-- ==== Sys2Proof/Word.lean ====
section
/-! DEFINITION. Words, bytes, bit-field names and the sparse tables the state is built from. -/

namespace Sys2Proof

/-- R8: a register is 32 bits. -/
abbrev Word := BitVec 32

/-- One byte. -/
abbrev Byte := BitVec 8

/-- R11: a field is a bit range `hi:lo` of a register. -/
structure Fld where
  hi : Nat
  lo : Nat
  deriving DecidableEq, Repr

/-- A sparse table: pairs of key and value with keys strictly rising and no entry equal to what an unlisted key holds. -/
abbrev Tab (α : Type) := List (Nat × α)

end Sys2Proof
end

