-- ==== Sys2Proof/Syntax.lean ====
section
/-! DEFINITION. The commands of the device: one constructor per row of spec/opcode_table.json, in its order. A command
carries what the outside world supplies with it (the bits of a write, the data of a DMA read, a measured value). -/

namespace Sys2Proof

/-- R396: the masters whose accesses come from outside the command path. -/
inductive Master where
  | sup | hostA | hostB | mnt | leg
  deriving DecidableEq, Repr

/-- R209: a memory operand of a Taruk instruction. -/
inductive MemForm where
  | ind (n : Fin 8)
  | post (n : Fin 8)
  | disp (n : Fin 8) (imm : BitVec 10)
  | abs (a : BitVec 16)
  deriving DecidableEq, Repr

/-- R219: the operand pair of a multiply: two D registers, a D register and memory, or two memory slots (X, then Y). -/
inductive MulOpd where
  | dd (a b : Fin 16)
  | dm (a : Fin 16) (m : MemForm)
  | mm (x y : MemForm)
  deriving DecidableEq, Repr

/-- R198: the address registers of a bank. -/
inductive AddrReg where
  | a | o | l | b
  deriving DecidableEq, Repr

/-- R219: MOV moves a D register to an address register, the reverse, or an immediate to an address register. -/
inductive MovSrc where
  | fromD (d : Fin 16)
  | toD (d : Fin 16)
  | imm (v : BitVec 16)
  deriving DecidableEq, Repr

/-- R219: the branch conditions. -/
inductive Cond where
  | eq | ne | lt | ge | gt | le | vs | vc | al
  deriving DecidableEq, Repr

/-- R213: what WAIT waits for. -/
inductive WaitCond where
  | burst (r : Fin 16)
  | timer (n : Fin 4)
  | stage
  deriving DecidableEq, Repr

/-- R259: a trip input: FAULTn_N of a channel or the trip of a rail. -/
inductive TripIn where
  | fault (n : Fin 24)
  | rail (k : Fin 5)
  deriving DecidableEq, Repr

/-- R269: the broker limit registers. -/
inductive LimitReg where
  | hp | pool | energy | stand
  deriving DecidableEq, Repr

/-- R293: what a received PTP message carries: type-independent header fields, its timestamp field (seconds, ns) and
correctionField (2^-16 ns), whether it is two-step, and the message's port identity match. -/
structure PtpMsg where
  domain : BitVec 8
  seq : BitVec 16
  twoStep : Bool
  sec : BitVec 48
  ns : BitVec 32
  corr : Int
  forUs : Bool
  deriving DecidableEq, Repr

/-- R275, R292: what a received Announce carries for the parent data set. -/
structure AnnMsg where
  domain : BitVec 8
  prio1 : BitVec 8
  clockClass : BitVec 8
  prio2 : BitVec 8
  ident : BitVec 64
  steps : BitVec 16
  utcOfs : BitVec 12
  utcValid : Bool
  state : BitVec 4
  deriving DecidableEq, Repr

/-- R380, R383: what the outside supplies at power-on: the flash's parameter table (mode index of R380 it allows, its clock
limit, whether it is larger than 16 MiB, whether the table exists), the writes that section 2 of the booted image spells,
and the address straps. -/
structure BootEnv where
  mode : Fin 3
  tableMHz : BitVec 8
  big : Bool
  sfdp : Bool
  init : List (BitVec 24 × BitVec 32)
  straps : BitVec 2
  selfTest : BitVec 102
  deriving DecidableEq, Repr

/-- The commands, one constructor per row of the table of operations and events. -/
inductive Instr where
  | sqTail (p : Fin 2) (g : Fin 16) (ofs : BitVec 12) (v : BitVec 32) (be : BitVec 4)
  | cqHead (p : Fin 2) (g : Fin 16) (ofs : BitVec 12) (v : BitVec 32) (be : BitVec 4)
  | descriptorFetchIssue
  | descriptorFetchComplete (p : Fin 2) (r : Fin 16) (data : List (BitVec 512))
  | dmaReadFailure (p : Fin 2) (r : Fin 16) (image : Bool) (timeout : Bool) (status : BitVec 3) (poison : Bool)
  | bell
  | now
  | amend
  | cancel
  | chart
  | chartImageFetchComplete (p : Fin 2) (r : Fin 16) (img : BitVec 8192)
  | acquire
  | renew
  | release
  | armLease
  | seize
  | round
  | sweepRequest
  | abort
  | markStale
  | routeCheck
  | bellState
  | unRetire
  | promoteOtherHost
  | telem
  | echo
  | heartbeat
  | pairHoldExpiry
  | leaseExpiry
  | overlapEnd
  | firewatchChallenge
  | reportCardGrade
  | modeWrite (m : Master) (v : BitVec 32)
  | promote (m : Master) (v : BitVec 32)
  | cardClr (m : Master) (v : BitVec 32)
  | hifHalt (m : Master) (v : BitVec 32)
  | ringEnSet (m : Master) (p : Fin 2) (r : Fin 16) (v : BitVec 32)
  | ringEnClear (m : Master) (p : Fin 2) (r : Fin 16) (v : BitVec 32)
  | hifPcntClr (m : Master) (p : Fin 2) (v : BitVec 32)
  | hifPcntClrRing (m : Master) (p : Fin 2) (v : BitVec 32)
  | iscMtrRate (m : Master) (i : Fin 33) (v : BitVec 32)
  | completionInterrupt (p : Fin 2) (r : Fin 16)
  | statusBlockWrite (p : Fin 2)
  | perst (p : Fin 2)
  | functionLevelReset (p : Fin 2)
  | d3hotEntry (p : Fin 2)
  | d3hotExit (p : Fin 2)
  | pcieLinkDown (p : Fin 2)
  | pcieLinkUp (p : Fin 2) (speed : BitVec 3) (width : BitVec 3)
  | streamPeriod (p : Fin 2) (i : Fin 16)
  | telemetryRecord (p : Fin 2)
  | telemetryFrame (e : Fin 4)
  | bellNotice (e : Fin 4)
  | readId
  | readStatus
  | submit (d : BitVec 256) (crc : BitVec 16)
  | readCpl (complete : Bool)
  | loadChart (slot : BitVec 16) (tag : BitVec 32) (img : BitVec 8192) (crc : BitVec 16)
  | readReg (a : BitVec 24)
  | writeReg (a : BitVec 24) (v : BitVec 32) (crc : BitVec 16)
  | resetPort (gapNs : Nat) (crc1 crc2 : BitVec 16)
  | addr (a : BitVec 24) (pecOk : Bool)
  | read
  | readInc
  | write (v : BitVec 32) (pecOk : Bool)
  | writeInc (v : BitVec 32) (pecOk : Bool)
  | status
  | registerWrite (m : Master) (a : BitVec 24) (v : BitVec 32) (be : BitVec 4)
  | defaultTargetAccess (m : Master) (a : BitVec 24) (wr : Bool)
  | tmuNowCapture (m : Master) (be : BitVec 4)
  | drvSlotData (m : Master) (t : Fin 96) (be : BitVec 4)
  | solveStart
  | solveComplete (l : Fin 2) (traceFail : Option (Fin 512))
  | xcheckDuplicate
  | xcheckComplete (bad : Option (Fin 2 × Fin 6144))
  | routeCheckStart
  | routeCheckComplete (traceFail : Option (Fin 512))
  | routeCheckTimeout
  | planRequest
  | kickPreRaise
  | kickReturn
  | arm
  | fire (seen : List (Fin 384 × List (Nat × Bool)))
  | wave2Start
  | playbackEnd (t : Fin 96) (c : Fin 128)
  | landingCheck (cur : List (Fin 12288 × Nat))
  | retryArm
  | retryStrobe
  | verifyComplete
  | passRelease
  | bellSkip
  | retirement
  | spanStart
  | spanEnd
  | drvEnable (m : Master) (t : Fin 96) (v : BitVec 32)
  | drvRelease (m : Master) (t : Fin 96) (v : BitVec 32)
  | manual (m : Master) (t : Fin 96) (v : BitVec 32)
  | parked (t : Fin 96)
  | pendingRegisterWrite (m : Master) (t : Fin 96) (c : Fin 128) (v : BitVec 32)
  | drvLoad (m : Master) (t : Fin 96) (v : BitVec 32)
  | slewStep (t : Fin 96) (c : Fin 128)
  | housekeepingMeasurement (t : Fin 96) (nA : Nat) (uV : Nat)
  | thresholdRecompute (t : Fin 96) (c : Fin 128)
  | headroomStepUp (t : Fin 96) (c : Fin 128)
  | channelFault (t : Fin 96) (c : Fin 128) (kind : Fin 6)
  | drvTest (m : Master) (t : Fin 96) (v : BitVec 32)
  | selftestComplete (t : Fin 96) (result : BitVec 2) (worst : BitVec 16) (element : BitVec 6)
  | monEnable (m : Master) (t : Fin 96) (v : BitVec 32)
  | gainChange (m : Master) (t : Fin 96) (j : Fin 128) (v : BitVec 32)
  | windowWrite (m : Master) (t : Fin 96) (j : Fin 128) (v : BitVec 32)
  | windowHoldEnd (t : Fin 96) (j : Fin 128) (cur : Nat) (ns : Fin 64)
  | exit (t : Fin 96) (j : Fin 128) (cur : Nat) (ns : Fin 64)
  | scanConversion (adc : Fin 768) (cur : Nat) (recovery : Bool)
  | watchBurstStart (pair : Fin 384)
  | watchBurstEnd (pair : Fin 384) (seen : List (Nat × Bool))
  | monDiag (m : Master) (t : Fin 96) (v : BitVec 32)
  | diagConversion (t : Fin 96) (cur : Nat) (recovery : Bool)
  | adcCalibrationAll (m : Master) (v : BitVec 32)
  | adcCalibrationSingle (m : Master) (v : BitVec 32)
  | selfCalibrationComplete (res : List (Fin 768 × BitVec 12 × BitVec 16 × List (BitVec 16)))
  | eventEntry (k : Fin 100)
  | timerMatch (k : Fin 100) (n : Fin 4)
  | coreWatchdogExpiry (k : Fin 100)
  | coreFault (k : Fin 100) (kind : Fin 6)
  | migration
  | migrationComplete
  | neighbourMessage
  | stageComplete (k : Fin 100)
  | hookEn (m : Master) (k : Fin 100) (v : BitVec 32)
  | add (k : Fin 100) (d a b : Fin 16) (fl : Bool)
  | sub (k : Fin 100) (d a b : Fin 16) (fl : Bool)
  | adds (k : Fin 100) (d a b : Fin 16) (fl : Bool)
  | subs (k : Fin 100) (d a b : Fin 16) (fl : Bool)
  | and (k : Fin 100) (d a b : Fin 16) (fl : Bool)
  | or (k : Fin 100) (d a b : Fin 16) (fl : Bool)
  | xor (k : Fin 100) (d a b : Fin 16) (fl : Bool)
  | shl (k : Fin 100) (d a b : Fin 16) (fl : Bool)
  | shr (k : Fin 100) (d a b : Fin 16) (fl : Bool)
  | asr (k : Fin 100) (d a b : Fin 16) (fl : Bool)
  | min (k : Fin 100) (d a b : Fin 16) (fl : Bool)
  | max (k : Fin 100) (d a b : Fin 16) (fl : Bool)
  | abs (k : Fin 100) (d a : Fin 16) (fl : Bool)
  | neg (k : Fin 100) (d a : Fin 16) (fl : Bool)
  | cmp (k : Fin 100) (a b : Fin 16)
  | norm (k : Fin 100) (d a : Fin 16) (fl : Bool)
  | addi (k : Fin 100) (d a : Fin 16) (imm : BitVec 16)
  | andi (k : Fin 100) (d a : Fin 16) (imm : BitVec 16)
  | cmpi (k : Fin 100) (a : Fin 16) (imm : BitVec 16)
  | shli (k : Fin 100) (d a : Fin 16) (imm : BitVec 16)
  | shri (k : Fin 100) (d a : Fin 16) (imm : BitVec 16)
  | asri (k : Fin 100) (d a : Fin 16) (imm : BitVec 16)
  | ldi (k : Fin 100) (d : Fin 16) (imm : BitVec 24)
  | mul (k : Fin 100) (acc : Fin 4) (o : MulOpd) (frac ua ub : Bool)
  | mac (k : Fin 100) (acc : Fin 4) (o : MulOpd) (frac ua ub : Bool)
  | msu (k : Fin 100) (acc : Fin 4) (o : MulOpd) (frac ua ub : Bool)
  | mac2 (k : Fin 100) (acc : Fin 4) (d : Fin 16) (x y : MemForm) (frac ua ub : Bool)
  | cmac (k : Fin 100) (acc : Fin 2) (d : Fin 8) (x y : MemForm) (frac : Bool)
  | cmsu (k : Fin 100) (acc : Fin 2) (d : Fin 8) (x y : MemForm) (frac : Bool)
  | mova (k : Fin 100) (d : Fin 16) (acc : Fin 4) (n : Fin 64)
  | clr (k : Fin 100) (acc : Fin 4)
  | cmpa (k : Fin 100) (acc : Fin 4) (d : Fin 16)
  | ldA (k : Fin 100) (acc : Fin 4) (m : MemForm)
  | stA (k : Fin 100) (acc : Fin 4) (m : MemForm)
  | ldB (k : Fin 100) (d : Fin 16) (m : MemForm)
  | ldBu (k : Fin 100) (d : Fin 16) (m : MemForm)
  | ldH (k : Fin 100) (d : Fin 16) (m : MemForm)
  | ldHu (k : Fin 100) (d : Fin 16) (m : MemForm)
  | ldW (k : Fin 100) (d : Fin 16) (m : MemForm)
  | stB (k : Fin 100) (d : Fin 16) (m : MemForm)
  | stH (k : Fin 100) (d : Fin 16) (m : MemForm)
  | stW (k : Fin 100) (d : Fin 16) (m : MemForm)
  | ld2 (k : Fin 100) (d e : Fin 16) (x y : MemForm)
  | mov (k : Fin 100) (r : AddrReg) (n : Fin 8) (src : MovSrc)
  | lea (k : Fin 100) (n : Fin 8) (d : Fin 16) (imm : BitVec 16)
  | b (k : Fin 100) (tgt : BitVec 14)
  | bcc (k : Fin 100) (c : Cond) (tgt : BitVec 14)
  | call (k : Fin 100) (tgt : BitVec 14)
  | ret (k : Fin 100)
  | rep (k : Fin 100) (count : Fin 64) (tgt : BitVec 14)
  | nop (k : Fin 100)
  | sleep (k : Fin 100)
  | wait (k : Fin 100) (c : WaitCond)
  | rete (k : Fin 100)
  | reth (k : Fin 100)
  | movc (k : Fin 100) (wr : Bool) (d : Fin 16) (csr : BitVec 20)
  | inp (k : Fin 100) (d : Fin 16) (port : BitVec 12)
  | out (k : Fin 100) (d : Fin 16) (port : BitVec 12)
  | load (k : Fin 100)
  | watch (k : Fin 100) (x : Fin 16)
  | msg (k : Fin 100) (x y : Fin 16)
  | retire (k : Fin 100) (x : Fin 16)
  | stage (k : Fin 100) (x : Fin 16)
  | post (k : Fin 100) (x : Fin 16)
  | holdWake (t : Fin 96) (c : Fin 64) (c0 c1 : Nat)
  | settle (t : Fin 96) (c : Fin 64) (c0 c1 : Nat)
  | signchk (t : Fin 96) (c : Fin 64) (c0 c1 : Nat)
  | probeWait (t : Fin 96) (c : Fin 64) (c0 c1 : Nat)
  | recover (t : Fin 96) (c : Fin 64) (c0 c1 : Nat)
  | arriving (t : Fin 96) (c : Fin 64) (c0 c1 : Nat)
  | arriveMax (t : Fin 96) (c : Fin 64)
  | rampStep (t : Fin 96) (c : Fin 64) (c0 c1 : Nat)
  | temp (t : Fin 96)
  | wrapStep (t : Fin 96) (c : Fin 64)
  | neighbour (t : Fin 96)
  | commit (t : Fin 96)
  | holdSummaryRefresh (t : Fin 96)
  | passiveMeasurement (t : Fin 96) (c : Fin 64) (c0 c1 : Nat)
  | sweep (t : Fin 96) (c : Fin 64)
  | dwell (t : Fin 96) (c : Fin 64) (pairs : List (BitVec 12 × BitVec 12))
  | passRequestRetry (t : Fin 96) (c : Fin 64)
  | roundMax (t : Fin 96)
  | calibrationSwap
  | railEn (m : Master) (k : Fin 5) (v : BitVec 32)
  | restart (m : Master) (k : Fin 5) (v : BitVec 32)
  | railInRegulation (k : Fin 5) (volt curr : BitVec 16)
  | railOutOfRegulation (k : Fin 5) (volt curr : BitVec 16)
  | railFail (k : Fin 5) (tripInput : Bool)
  | railTargetWrite (m : Master) (k : Fin 4) (v : BitVec 32)
  | referenceFallStart (k : Fin 4)
  | shutdownRampEnd
  | periodBoundary (n : Fin 24)
  | trip (i : TripIn)
  | perWrite (m : Master) (n : Fin 24) (v : BitVec 32)
  | cmpWrite (m : Master) (n : Fin 24) (v : BitVec 32)
  | pwrPwmCommit (m : Master) (n : Fin 24) (v : BitVec 32)
  | brokerLimitWrite (m : Master) (r : LimitReg) (v : BitVec 32)
  | set (m : Master) (v : BitVec 32)
  | step (m : Master) (v : BitVec 32)
  | timeStep
  | rcArm (m : Master) (v : BitVec 32)
  | rcNow (m : Master) (v : BitVec 32)
  | rcStop (m : Master) (v : BitVec 32)
  | rollCall
  | rollCallHeader
  | offsetSample (k : Fin 6)
  | waitToRestore
  | ppsEdge (m : Fin 2) (falling : Bool)
  | ppsWindowExpiry (m : Fin 2)
  | ppsOut
  | bellPulse (n : Fin 8)
  | ethLinkUp (e : Fin 4) (rx tx : BitVec 32) (an : Bool) (speed : BitVec 2) (fec : Bool)
  | ethLinkDown (e : Fin 4)
  | sync (e : Fin 4) (m : PtpMsg)
  | followUp (e : Fin 4) (m : PtpMsg)
  | delayReq (e : Fin 4) (m : PtpMsg)
  | delayResp (e : Fin 4) (m : PtpMsg)
  | pdelayReq (e : Fin 4) (m : PtpMsg)
  | pdelayResp (e : Fin 4) (m : PtpMsg)
  | pdelayRespFollowUp (e : Fin 4) (m : PtpMsg)
  | announce (e : Fin 4) (m : AnnMsg)
  | signaling (e : Fin 4)
  | management (e : Fin 4) (get : Bool)
  | syncInterval (e : Fin 4)
  | delayReqInterval (e : Fin 4)
  | announceInterval (e : Fin 4)
  | announceReceiptTimeout (e : Fin 4)
  | arp (e : Fin 4) (target : BitVec 32) (srcMac : BitVec 48) (srcIp : BitVec 32)
  | neighbourSolicitation (e : Fin 4) (target : BitVec 128) (srcMac : BitVec 48)
  | esmc (e : Fin 4) (ql : BitVec 4)
  | esmcTimeout
  | sensorPublication (raw : List (BitVec 16))
  | releaseDwell
  | graceExpiry
  | recordWrite
  | force (m : Master) (k : Fin 11) (v : BitVec 32)
  | faultInterrupt (p : Fin 2)
  | inval (m : Master) (v : BitVec 32)
  | refuse (m : Master) (v : BitVec 32)
  | outcome (m : Master) (v : BitVec 32)
  | rtsCntClr (m : Master) (v : BitVec 32)
  | drvCntClr (m : Master) (t : Fin 96) (v : BitVec 32)
  | monCntClr (m : Master) (t : Fin 96) (v : BitVec 32)
  | trkCntClr (m : Master) (k : Fin 100) (v : BitVec 32)
  | calCntClr (m : Master) (v : BitVec 32)
  | pwrCntClr (m : Master) (v : BitVec 32)
  | tmuCntClr (m : Master) (v : BitVec 32)
  | ethCntClr (m : Master) (e : Fin 4) (v : BitVec 32)
  | iscCntClr (m : Master) (v : BitVec 32)
  | fltCntClr (m : Master) (v : BitVec 32)
  | thmCntClr (m : Master) (v : BitVec 32)
  | xbrCntClr (m : Master) (v : BitVec 32)
  | remap (m : Master) (v : BitVec 32)
  | xbrSliceWrite (m : Master) (i : Fin 13) (v : BitVec 32)
  | xbrParkWrite (m : Master) (k : Fin 2) (v : BitVec 32)
  | powerOnReset (env : BootEnv)
  | bootReady
  | supplyLoss
  | rstN
  | watchdogExpiry
  | glbReset (m : Master) (v : BitVec 32)
  | glbWdogKick (m : Master) (v : BitVec 32)
  | warmRestart (selfTest : BitVec 100)
  | laneSelfTest (l : Fin 2) (pass : Bool) (diff : BitVec 32)
  | pipelineResume
  | doze (m : Master) (v : BitVec 32)
  | nap (m : Master) (v : BitVec 32)
  | run (m : Master) (v : BitVec 32)
  | powerStateEntry
  | powerStateRefusal
  | confirm (m : Master) (v : BitVec 32)
  | bootCmdStage (m : Master) (v : BitVec 32)
  | jwrite (m : Master) (v : BitVec 32)
  | journalWriteBack
  | journalWriteComplete (ok : Bool)
  | readPage (m : Master) (v : BitVec 32)
  | programPage (m : Master) (v : BitVec 32)
  | eraseBlock (m : Master) (v : BitVec 32)
  | flashOperationComplete
  | extest
  | samplePreload
  | bypass
  | idcode
  | syncReceiptTimeout (e : Fin 4)
  | synceFrequencyLimit (inside : Bool)
  | adcConversionTimeout (adc : Fin 768)
  | tripInputRelease (i : TripIn)
  | rstNRelease
  | vddAuxValid
  | pllUnlock (i : Fin 4)
  | pllLock (i : Fin 4)
  | ecc2 (a : BitVec 24) (inSup : Bool)
  | droppedFrame (e : Fin 4) (fcsError : Bool)
  | discardedPtpMessage (e : Fin 4)
  | tapReset
  | functionLevelResetComplete (p : Fin 2)
  | configurationRequest (p : Fin 2) (wr : Bool) (reg : BitVec 12) (v : BitVec 32) (be : BitVec 4)
  | esmcTransmission (e : Fin 4)
  deriving DecidableEq, Repr

end Sys2Proof
end

