-- ==== Sys2Proof/Config.lean ====
section
/-! DEFINITION. The free values: what the specification leaves open. Each is an opaque constant without a body; the
step applies it to plain data, so nothing can be proved about its value. -/

namespace Sys2Proof.Config

/-- R68, R79: the samples that the stock planning kernel chooses (free within the limits of R69), by draw number. -/
opaque planSample : Nat → BitVec 16

/-- R71, R89: the planned peak excess in units of 10 mW, by draw number. -/
opaque planPeak : Nat → BitVec 32

/-- R89: the planned energy in units of 10 nJ, by draw number. -/
opaque planEnergy : Nat → BitVec 32

/-- R347: the challenge value, by draw number. -/
opaque challenge : Nat → BitVec 64

/-- R262: the compare value that a rail controller writes for a phase, by draw number. -/
opaque railDuty : Nat → BitVec 16

/-- R293: the octets of a firmware answer whose content the specification leaves to firmware, by draw number. -/
opaque firmwareWord : Nat → BitVec 64

/-- R219: the result of an instruction form for which the specification states no value, by draw number. -/
opaque coreValue : Nat → BitVec 56

/-- R302, R305: a configuration space register that the boot image fills and the specification does not list. -/
opaque configSpace : Nat → BitVec 32

/-- R419: what the boundary-scan cells capture, by draw number. -/
opaque scanCapture : Nat → BitVec 64

/-- R284: the device's own contribution to a port timestamp, by draw number (taken within ±0.5 ns). -/
opaque stampError : Nat → BitVec 8

/-- R404: data of an access for which the specification states no value, by draw number. -/
opaque openWord : Nat → BitVec 32

/-- R296, R328: which of the streams that wait is served, by draw number: the specification gives no order. -/
opaque streamPick : Nat → BitVec 8

/-- R232: the heater time constant fitted from the bursts of a sweep (delay after the load in ns, mean code of the weak output): the
specification does not give the fit. -/
opaque tauFit : List (Nat × Nat) → BitVec 16

/-- R203: a byte of the predecessor profiles that BEL delivers with a plan's inputs, by draw number and offset: the specification does not give
their form. -/
opaque planProfile : Nat → Nat → BitVec 8

/-- R203, R226: the stock tables of the boot image, by data memory address: the specification does not list them. -/
opaque stockTable : Nat → BitVec 8

/-- R204: the stock kernel's instruction words of the boot image, by byte address: the specification does not list them. -/
opaque stockCode : Nat → BitVec 8

/-- R220: KVER, the stock kernel's interface version. -/
opaque kernelVersion : BitVec 32

end Sys2Proof.Config
end

