-- ==== Sys2Proof/Machine/Bits.lean ====
section
/-! DEFINITION. Bit fields, sign extension, byte order, sparse tables and the two CRCs. -/

namespace Sys2Proof.Machine

/-- Bits `lo .. lo+len-1` of a number. -/
def bits (n lo len : Nat) : Nat := (n >>> lo) % 2 ^ len

/-- One bit of a number. -/
def bit (n i : Nat) : Bool := n.testBit i

/-- A Boolean as a number. -/
def b2n (b : Bool) : Nat := if b then 1 else 0

/-- R11: the value of a field of a word. -/
def getF (w : BitVec 32) (f : Fld) : Nat := bits w.toNat f.lo (f.hi + 1 - f.lo)

/-- The bits a field takes in its word. -/
def maskF (f : Fld) : BitVec 32 := BitVec.ofNat 32 ((2 ^ (f.hi + 1 - f.lo) - 1) <<< f.lo)

/-- A word with one field replaced (the value is cut to the field's width). -/
def setF (w : BitVec 32) (f : Fld) (v : Nat) : BitVec 32 :=
  (w &&& ~~~ maskF f) ||| BitVec.ofNat 32 ((v % 2 ^ (f.hi + 1 - f.lo)) <<< f.lo)

/-- A number with bit `i` set or cleared. -/
def putBit (n i : Nat) (b : Bool) : Nat :=
  if n.testBit i = b then n else n ^^^ 2 ^ i

/-- The two's-complement reading of the low `w` bits. -/
def sext (n w : Nat) : Int := if bits n 0 w < 2 ^ (w - 1) then (bits n 0 w : Int) else (bits n 0 w : Int) - 2 ^ w

/-- A signed number in `w` bits of two's complement. -/
def enc (x : Int) (w : Nat) : Nat := (x % (2 ^ w : Int)).toNat

/-- A signed number held at the limits of `w` bits. -/
def satS (x : Int) (w : Nat) : Int := max (-(2 ^ (w - 1) : Int)) (min (2 ^ (w - 1) - 1 : Int) x)

/-- A count held at its largest value. -/
def satU (x w : Nat) : Nat := min x (2 ^ w - 1)

/-! Sparse tables. -/

/-- The entry of a key, if the table lists it. -/
def tfind {α : Type} : Tab α → Nat → Option α
  | [], _ => none
  | (k, v) :: r, i => if k = i then some v else tfind r i

/-- The value at a key; an unlisted key holds `d`. -/
def tget {α : Type} (t : Tab α) (d : α) (i : Nat) : α := (tfind t i).getD d

/-- The table without a key. -/
def tdel {α : Type} (t : Tab α) (i : Nat) : Tab α := t.filter (fun e => !decide (e.1 = i))

/-- The table with a key's entry put at its place. -/
def tins {α : Type} : Tab α → Nat → α → Tab α
  | [], i, x => [(i, x)]
  | (k, v) :: r, i, x => if i < k then (i, x) :: (k, v) :: r else if i = k then (i, x) :: r else (k, v) :: tins r i x

/-- The table with a value written; writing what an unlisted key holds removes the entry. -/
def tset {α : Type} [DecidableEq α] (t : Tab α) (d : α) (i : Nat) (x : α) : Tab α :=
  if x = d then tdel t i else tins t i x

/-- The keys rise strictly from above `lo`. -/
def tsorted {α : Type} : Option Nat → Tab α → Bool
  | _, [] => true
  | none, (k, _) :: r => tsorted (some k) r
  | some j, (k, _) :: r => decide (j < k) && tsorted (some k) r

/-- The canonical form: keys strictly rising, no entry equal to what an unlisted key holds. -/
def twf {α : Type} [DecidableEq α] (d : Nat → α) (t : Tab α) : Bool :=
  tsorted none t && t.all (fun e => decide (e.2 ≠ d e.1))

/-! Byte memories, little-endian (R8). -/

/-- A byte of a memory whose unlisted bytes read `d`. -/
def rb (m : Tab Byte) (a : Nat) (d : Byte := 0) : Nat := (tget m d a).toNat

/-- `n` bytes from `a` as a little-endian number. -/
def rd (m : Tab Byte) (a : Nat) : Nat → (d : Byte := 0) → Nat
  | 0, _ => 0
  | n + 1, d => rb m a d + 256 * rd m (a + 1) n d

/-- Write the low `n` bytes of a number from `a` on, little-endian. -/
def wr (m : Tab Byte) (a : Nat) : Nat → Nat → (d : Byte := 0) → Tab Byte
  | 0, _, _ => m
  | n + 1, v, d => wr (tset m d a (BitVec.ofNat 8 v)) (a + 1) n (v / 256) d

/-- The bytes of a memory range, in address order. -/
def rbytes (m : Tab Byte) (a n : Nat) (d : Byte := 0) : List Nat := (List.range n).map (fun i => rb m (a + i) d)

/-- Write a list of bytes from `a` on. -/
def wbytes (m : Tab Byte) (a : Nat) : List Nat → (d : Byte := 0) → Tab Byte
  | [], _ => m
  | b :: r, d => wbytes (tset m d a (BitVec.ofNat 8 b)) (a + 1) r d

/-- The entries of a memory inside a range, without copying unlisted bytes. -/
def slice (m : Tab Byte) (a n : Nat) : Tab Byte := m.filter (fun e => decide (a ≤ e.1 ∧ e.1 < a + n))

/-- A memory with a range taken out. -/
def cut (m : Tab Byte) (a n : Nat) : Tab Byte := m.filter (fun e => !decide (a ≤ e.1 ∧ e.1 < a + n))

/-- Copy a range of one memory to another, both with unlisted bytes 0. -/
def copyRange (src : Tab Byte) (a n : Nat) (dst : Tab Byte) (b : Nat) : Tab Byte :=
  (slice src a n).foldl (fun m e => tset m 0 (e.1 - a + b) e.2) (cut dst b n)

/-- The bytes of a number, least significant first. -/
def leBytes (v : Nat) : Nat → List Nat
  | 0 => []
  | n + 1 => v % 256 :: leBytes (v / 256) n

/-- The bytes of a number, most significant first (R296, R330). -/
def beBytes (v n : Nat) : List Nat := (leBytes v n).reverse

/-! CRCs. -/

/-- One bit of the reflected CRC-32C. -/
def crcBit (c : Nat) : Nat := if c % 2 = 1 then (c / 2) ^^^ 0x82F63B78 else c / 2

/-- One byte of the reflected CRC-32C. -/
def crcByte (c b : Nat) : Nat :=
  crcBit (crcBit (crcBit (crcBit (crcBit (crcBit (crcBit (crcBit (c ^^^ b))))))))

/-- R316: CRC-32C, reflected, initial value and final XOR all ones. -/
def crc32c (l : List Nat) : Nat := (l.foldl crcByte 0xFFFFFFFF) ^^^ 0xFFFFFFFF

/-- One bit of the CRC-16 of R330. -/
def crc16Bit (c : Nat) : Nat := if bit c 15 then ((c * 2) % 65536) ^^^ 0x1021 else (c * 2) % 65536

/-- R330: CRC-16 with polynomial 0x1021 and initial value 0xFFFF. -/
def crc16 (l : List Nat) : Nat :=
  l.foldl (fun c b => crc16Bit (crc16Bit (crc16Bit (crc16Bit (crc16Bit (crc16Bit (crc16Bit (crc16Bit (c ^^^ (b * 256))))))))))
    0xFFFF

/-- The index of the first element that satisfies a test. -/
def findIdx1 {α : Type} (p : α → Bool) (l : List α) : Option Nat :=
  match l.findIdx p with
  | i => if i < l.length then some i else none

/-- The element of a list with the smallest key, the first on a tie. -/
def minBy {α : Type} (f : α → Int) : List α → Option α
  | [] => none
  | x :: r => match minBy f r with
    | none => some x
    | some y => if f x ≤ f y then some x else some y

/-- Insert in ascending order of a key. -/
def insBy {α : Type} (f : α → Int) (x : α) : List α → List α
  | [] => [x]
  | y :: r => if f x < f y then x :: y :: r else y :: insBy f x r

/-- A list in ascending order of a key, equal keys in their order. -/
def sortBy {α : Type} (f : α → Int) (l : List α) : List α := l.foldl (fun acc x => insBy f x acc) []

/-- The median of a list of numbers: the middle one, or the mean of the two middle ones. -/
def median (l : List Int) : Int :=
  let s := sortBy id l
  let n := s.length
  if n % 2 = 1 then s.getD (n / 2) 0 else (s.getD (n / 2 - 1) 0 + s.getD (n / 2) 0) / 2

end Sys2Proof.Machine
end

