-- ==== Sys2Proof/Machine/FixMath.lean ====
section
/-! DEFINITION. The real functions that the formulas use (square root, powers of ten and two, sine, logarithm) in
fixed point. Integer results are found by comparing exact or 2^-96 fixed-point values, so a rounded result is the
real one rounded (notes/assumptions/12). -/

namespace Sys2Proof.Machine

/-- Bit-by-bit search for the largest number below `2^k` that keeps a monotone test true, given one that does. -/
def searchMax (p : Nat → Bool) : Nat → Nat → Nat
  | 0, x => x
  | k + 1, x => if p (x + 2 ^ k) then searchMax p k (x + 2 ^ k) else searchMax p k x

/-- The integer square root, rounded down. -/
def isqrt (n : Nat) : Nat := searchMax (fun r => decide (r * r ≤ n)) (n.log2 / 2 + 1) 0

/-- The scale of fixed-point numbers: 2^96. -/
def one : Nat := 2 ^ 96

/-- A product of fixed-point numbers. -/
def fmul (a b : Nat) : Nat := a * b / one

/-- 10^(1/10000) in fixed point. -/
def tenRoot : Nat := 79246407573318841846461847680

/-- A power in fixed point by squaring; the exponent's bits are taken from `k` of them. -/
def fpow (b : Nat) : Nat → Nat → Nat
  | 0, _ => one
  | k + 1, n => let h := fpow b k (n / 2); if n % 2 = 1 then fmul (fmul h h) b else fmul h h

/-- 10^(n/10000) in fixed point for n ≥ 0; decades are exact. -/
def pow10 (n : Nat) : Nat := 10 ^ (n / 10000) * fpow tenRoot 14 (n % 10000)

/-- 10^(x/10000) in fixed point for any integer x. -/
def pow10i (x : Int) : Nat := if 0 ≤ x then pow10 x.toNat else one * one / pow10 (-x).toNat

/-- x × 10^(tap/10) with the tap in units of 0.1 dB (R159, R173). -/
def referTap (x tap : Nat) : Nat := x * pow10 (tap * 100) / one

/-- π in fixed point. -/
def piF : Nat := 248902613312231085230521944622

/-- Terms of the cosine series: `c` is the present term, `k` its order. -/
def cosTerms (x2 : Nat) : Nat → Nat → Nat → Int
  | 0, _, _ => 0
  | f + 1, k, c => (c : Int) - cosTerms x2 f (k + 2) (fmul c x2 / ((k + 1) * (k + 2)))

/-- sin²(π n / (2 × 65,536 × …)): the value of sin²(π × h / 131,072) in fixed point, for a count h of half turns16
up to 65,536; by sin²x = (1 − cos 2x) / 2. -/
def sinSqHalf (h : Nat) : Nat :=
  let y := piF * h / 65536
  let c := cosTerms (fmul y y) 40 0 one
  (((one : Int) - c) / 2).toNat

/-- sin²q with q = π × n / 65,536 (R161, R177). -/
def sinSq (n : Nat) : Nat := sinSqHalf (2 * n)

/-- R173: (65,536 / π) × asin(√x) for x in fixed point, rounded to the nearest integer: the largest e whose lower half
step e − 1/2 does not lie above it. -/
def asinSqrt (x : Nat) : Nat :=
  searchMax (fun e => decide (e ≤ 32768) && decide (sinSqHalf (2 * e - 1) ≤ x)) 16 0

/-- −10 × log10(x) in units of 0.1 dB, rounded to the nearest, for x in fixed point, at most 65,535 (R232). -/
def extDb (x : Nat) : Nat :=
  if x = 0 then 65535 else
  searchMax (fun n => decide (x * pow10 (n * 100 - 50) ≤ one * one)) 12 0

/-- Terms of the series of e^(−y): `c` is the present term, `k` its order. -/
def expTerms (y : Nat) : Nat → Nat → Nat → Int
  | 0, _, _ => 0
  | f + 1, k, c => (c : Int) - expTerms y f (k + 1) (fmul c y / (k + 1))

/-- A number squared `n` times. -/
def squareN : Nat → Nat → Nat
  | 0, x => x
  | n + 1, x => squareN n (fmul x x)

/-- e^(−y) for y in fixed point: the series at y / 4096, squared twelve times. -/
def expNeg (y : Nat) : Nat := if 4096 * one ≤ y then 0 else squareN 12 (expTerms (y / 4096) 30 0 one).toNat

/-- R68, R187: the share of a step that a first-order lag (time constant in units of 10 ns) makes in `dt` ns. -/
def lagShare (tau dt : Nat) : Nat := if tau = 0 then one else one - expNeg (dt * one / (10 * tau))

/-- A lag's output after one step toward its target. -/
def lagStep (a : Nat) (x target : Int) : Int := x + (a : Int) * (target - x) / (one : Int)

/-- A lag's outputs over a list of targets. -/
def lagRun (a : Nat) : Int → List Int → List Int
  | _, [] => []
  | x, t :: r => lagStep a x t :: lagRun a (lagStep a x t) r

/-- R147: the largest d with d ≤ ref × 2^(num/den), found with exact integers; `up` tells the exponent's sign. -/
def scale2 (ref num den : Nat) (up : Bool) : Nat :=
  searchMax (fun d => if up then decide (d ^ den ≤ ref ^ den * 2 ^ num) else decide (d ^ den * 2 ^ num ≤ ref ^ den)) 20 0

/-- A quotient rounded to the nearest integer, halves up. -/
def divRound (a b : Nat) : Nat := (2 * a + b) / (2 * b)

/-- A quotient rounded up. -/
def divUp (a b : Nat) : Nat := (a + b - 1) / b

end Sys2Proof.Machine
end

