-- ==== Sys2Proof/Machine/RegMap.lean ====
section
/-! DEFINITION. The register tables of the specification (R92, R114, R143, R167, R168, R228, R247, R271, R300,
R301, R332, R333, R334, R352, R369, R378, R395, R407 and the MSI-X tables of R308): for each register its address,
its strides and, field by field, the bits, the access type (R12) and the values of the P, W and H columns (R15).
Each address has a name `Reg.<REGISTER>` and each field a name `Reg.<REGISTER>_<FIELD>`, as the specification spells them. -/

namespace Sys2Proof.Machine

/-- R12: the access types of a register field. -/
inductive Access where
  | ro | rw | w1c | w1s | wo | rws
  deriving DecidableEq, Repr

/-- One row of a register's field table: bits `hi:lo`, access, and its value after power-on (`p`), after warm
restart (`w`; `none` is the dash, unchanged) and after a host-domain reset of its port (`h`) (R15). -/
structure RegField where
  hi : Nat
  lo : Nat
  acc : Access
  p : Nat
  w : Option Nat
  h : Option Nat
  deriving DecidableEq, Repr

/-- One register table: `dims` are its repetitions, each a stride and a count, outermost first. -/
structure RegRow where
  base : Nat
  dims : List (Nat × Nat)
  fields : List RegField
  deriving DecidableEq, Repr

namespace Reg

/-- BEL_CTRL (spec/03_bell_pipeline.md). -/
def BEL_CTRL : Nat := 0x050000
def BEL_CTRL_RUNAHEAD : Fld := ⟨3, 0⟩
def BEL_CTRL_RETRY_EN : Fld := ⟨8, 8⟩

/-- BEL_STATUS (spec/03_bell_pipeline.md). -/
def BEL_STATUS : Nat := 0x050004
def BEL_STATUS_RECOMPUTE : Fld := ⟨0, 0⟩
def BEL_STATUS_IN_SERVICE : Fld := ⟨1, 1⟩
def BEL_STATUS_LANES : Fld := ⟨3, 2⟩
def BEL_STATUS_PENDING : Fld := ⟨28, 16⟩

/-- BEL_SPACING (spec/03_bell_pipeline.md). -/
def BEL_SPACING : Nat := 0x050008
def BEL_SPACING_BASE : Fld := ⟨15, 0⟩
def BEL_SPACING_IN_FORCE : Fld := ⟨31, 16⟩

/-- BEL_KICK (spec/03_bell_pipeline.md). -/
def BEL_KICK : Nat := 0x05000C
def BEL_KICK_P_CELL : Fld := ⟨11, 0⟩
def BEL_KICK_E_CELL : Fld := ⟨27, 16⟩

/-- BEL_LAND (spec/03_bell_pipeline.md). -/
def BEL_LAND : Nat := 0x050010
def BEL_LAND_TOL : Fld := ⟨11, 0⟩
def BEL_LAND_EXCUR : Fld := ⟨27, 16⟩

/-- BEL_NOW (spec/03_bell_pipeline.md). -/
def BEL_NOW : Nat := 0x050014
def BEL_NOW_WINDOW : Fld := ⟨15, 0⟩

/-- BEL_GEN (spec/03_bell_pipeline.md). -/
def BEL_GEN : Nat := 0x050018

/-- BEL_INVALk (spec/03_bell_pipeline.md). -/
def BEL_INVAL (k : Nat) : Nat := 0x050020 + 0x4 * k

/-- BEL_REFUSEk (spec/03_bell_pipeline.md). -/
def BEL_REFUSE (k : Nat) : Nat := 0x050040 + 0x4 * k

/-- BEL_OUTCOMEk (spec/03_bell_pipeline.md). -/
def BEL_OUTCOME (k : Nat) : Nat := 0x050070 + 0x4 * k

/-- BEL_CNT_CLR (spec/03_bell_pipeline.md). -/
def BEL_CNT_CLR : Nat := 0x050080
def BEL_CNT_CLR_INVAL : Fld := ⟨0, 0⟩
def BEL_CNT_CLR_REFUSE : Fld := ⟨1, 1⟩
def BEL_CNT_CLR_OUTCOME : Fld := ⟨2, 2⟩

/-- BEL_REPORT_LAST (spec/03_bell_pipeline.md). -/
def BEL_REPORT_LAST : Nat := 0x050084
def BEL_REPORT_LAST_INDEX : Fld := ⟨7, 0⟩
def BEL_REPORT_LAST_VALID : Fld := ⟨8, 8⟩

/-- BEL_RGRPg_MASKw (spec/03_bell_pipeline.md). -/
def BEL_RGRP_MASK (g : Nat) (w : Nat) : Nat := 0x050400 + 0x40 * g + 0x4 * w

/-- RTS_CTRL (spec/04_route_solver.md). -/
def RTS_CTRL : Nat := 0x060000
def RTS_CTRL_XCHECK : Fld := ⟨0, 0⟩

/-- RTS_STATUS (spec/04_route_solver.md). -/
def RTS_STATUS : Nat := 0x060004
def RTS_STATUS_LANE0_OK : Fld := ⟨0, 0⟩
def RTS_STATUS_LANE1_OK : Fld := ⟨1, 1⟩
def RTS_STATUS_LANE0_BUSY : Fld := ⟨2, 2⟩
def RTS_STATUS_LANE1_BUSY : Fld := ⟨3, 3⟩
def RTS_STATUS_CHECK_BUSY : Fld := ⟨4, 4⟩

/-- RTS_IMG_GEN (spec/04_route_solver.md). -/
def RTS_IMG_GEN : Nat := 0x060008

/-- RTS_CNTk (spec/04_route_solver.md). -/
def RTS_CNT (k : Nat) : Nat := 0x060020 + 0x4 * k

/-- RTS_CNT_CLR (spec/04_route_solver.md). -/
def RTS_CNT_CLR : Nat := 0x060050
def RTS_CNT_CLR_CLEAR : Fld := ⟨0, 0⟩

/-- RTS_LOCKk (spec/04_route_solver.md). -/
def RTS_LOCK (k : Nat) : Nat := 0x060100 + 0x4 * k

/-- RTS_LOADEDk (spec/04_route_solver.md). -/
def RTS_LOADED (k : Nat) : Nat := 0x060200 + 0x4 * k

/-- DRV_CTRL (spec/05_drive_array.md). -/
def DRV_CTRL (t : Nat) : Nat := 0x100000 + 0x1000 * t
def DRV_CTRL_ENABLE : Fld := ⟨0, 0⟩
def DRV_CTRL_RELEASE : Fld := ⟨1, 1⟩
def DRV_CTRL_MANUAL : Fld := ⟨2, 2⟩

/-- DRV_STATUS (spec/05_drive_array.md). -/
def DRV_STATUS (t : Nat) : Nat := 0x100004 + 0x1000 * t
def DRV_STATUS_STATE : Fld := ⟨2, 0⟩
def DRV_STATUS_ENREFUSE : Fld := ⟨6, 4⟩
def DRV_STATUS_PLAYING : Fld := ⟨8, 8⟩
def DRV_STATUS_ARMED : Fld := ⟨9, 9⟩
def DRV_STATUS_RETRY_ARMED : Fld := ⟨10, 10⟩
def DRV_STATUS_SLEWING : Fld := ⟨23, 16⟩

/-- DRV_ARM (spec/05_drive_array.md). -/
def DRV_ARM (t : Nat) : Nat := 0x100008 + 0x1000 * t
def DRV_ARM_VALID : Fld := ⟨0, 0⟩
def DRV_ARM_SLOT : Fld := ⟨3, 1⟩
def DRV_ARM_RVALID : Fld := ⟨4, 4⟩

/-- DRV_ARM_GEN (spec/05_drive_array.md). -/
def DRV_ARM_GEN (t : Nat) : Nat := 0x10000C + 0x1000 * t

/-- DRV_RETRY_GEN (spec/05_drive_array.md). -/
def DRV_RETRY_GEN (t : Nat) : Nat := 0x100010 + 0x1000 * t

/-- DRV_SLEW (spec/05_drive_array.md). -/
def DRV_SLEW (t : Nat) : Nat := 0x100014 + 0x1000 * t
def DRV_SLEW_STEP : Fld := ⟨11, 0⟩
def DRV_SLEW_INTERVAL : Fld := ⟨23, 16⟩

/-- DRV_RAIL (spec/05_drive_array.md). -/
def DRV_RAIL (t : Nat) : Nat := 0x100018 + 0x1000 * t
def DRV_RAIL_MARGIN : Fld := ⟨7, 0⟩
def DRV_RAIL_HYST : Fld := ⟨15, 8⟩

/-- DRV_LOAD (spec/05_drive_array.md). -/
def DRV_LOAD (t : Nat) : Nat := 0x10001C + 0x1000 * t
def DRV_LOAD_LOAD : Fld := ⟨0, 0⟩

/-- DRV_SLOT_ADDR (spec/05_drive_array.md). -/
def DRV_SLOT_ADDR (t : Nat) : Nat := 0x100020 + 0x1000 * t
def DRV_SLOT_ADDR_SLOT : Fld := ⟨3, 0⟩
def DRV_SLOT_ADDR_WORD : Fld := ⟨27, 16⟩

/-- DRV_SLOT_DATA (spec/05_drive_array.md). -/
def DRV_SLOT_DATA (t : Nat) : Nat := 0x100024 + 0x1000 * t

/-- DRV_TEST (spec/05_drive_array.md). -/
def DRV_TEST (t : Nat) : Nat := 0x100028 + 0x1000 * t
def DRV_TEST_CH : Fld := ⟨6, 0⟩
def DRV_TEST_START : Fld := ⟨8, 8⟩
def DRV_TEST_BUSY : Fld := ⟨16, 16⟩
def DRV_TEST_RESULT : Fld := ⟨18, 17⟩

/-- DRV_TEST_RES (spec/05_drive_array.md). -/
def DRV_TEST_RES (t : Nat) : Nat := 0x10002C + 0x1000 * t
def DRV_TEST_RES_WORST : Fld := ⟨15, 0⟩
def DRV_TEST_RES_ELEMENT : Fld := ⟨21, 16⟩

/-- DRV_FAULTk (spec/05_drive_array.md). -/
def DRV_FAULT (t : Nat) (k : Nat) : Nat := 0x100040 + 0x1000 * t + 0x4 * k

/-- DRV_FVALk (spec/05_drive_array.md). -/
def DRV_FVAL (t : Nat) (k : Nat) : Nat := 0x100050 + 0x1000 * t + 0x4 * k

/-- DRV_CNTk (spec/05_drive_array.md). -/
def DRV_CNT (t : Nat) (k : Nat) : Nat := 0x100080 + 0x1000 * t + 0x4 * k

/-- DRV_CNT_CLR (spec/05_drive_array.md). -/
def DRV_CNT_CLR (t : Nat) : Nat := 0x1000B0 + 0x1000 * t
def DRV_CNT_CLR_CLEAR : Fld := ⟨0, 0⟩

/-- DRV_CHc_CODE (spec/05_drive_array.md). -/
def DRV_CH_CODE (t : Nat) (c : Nat) : Nat := 0x100400 + 0x1000 * t + 0x4 * c
def DRV_CH_CODE_CODE : Fld := ⟨15, 0⟩
def DRV_CH_CODE_RANGE : Fld := ⟨16, 16⟩
def DRV_CH_CODE_CONVERT : Fld := ⟨17, 17⟩

/-- DRV_CHc_STAT (spec/05_drive_array.md). -/
def DRV_CH_STAT (t : Nat) (c : Nat) : Nat := 0x100600 + 0x1000 * t + 0x4 * c
def DRV_CH_STAT_ACTIVE : Fld := ⟨15, 0⟩
def DRV_CH_STAT_RAIL : Fld := ⟨18, 16⟩
def DRV_CH_STAT_RANGE : Fld := ⟨19, 19⟩
def DRV_CH_STAT_FAULT : Fld := ⟨23, 20⟩
def DRV_CH_STAT_VLIM : Fld := ⟨24, 24⟩
def DRV_CH_STAT_SLEW : Fld := ⟨25, 25⟩
def DRV_CH_STAT_OWNED : Fld := ⟨26, 26⟩

/-- DRV_CHc_PARK (spec/05_drive_array.md). -/
def DRV_CH_PARK (t : Nat) (c : Nat) : Nat := 0x100800 + 0x1000 * t + 0x4 * c
def DRV_CH_PARK_PARK : Fld := ⟨15, 0⟩
def DRV_CH_PARK_PRANGE : Fld := ⟨16, 16⟩

/-- DRV_CHc_RES (spec/05_drive_array.md). -/
def DRV_CH_RES (t : Nat) (c : Nat) : Nat := 0x100A00 + 0x1000 * t + 0x4 * c
def DRV_CH_RES_REST : Fld := ⟨15, 0⟩
def DRV_CH_RES_CODE_VMAX : Fld := ⟨31, 16⟩

/-- DRV_CHc_TH0 (spec/05_drive_array.md). -/
def DRV_CH_TH0 (t : Nat) (c : Nat) : Nat := 0x100C00 + 0x1000 * t + 0x8 * c
def DRV_CH_TH0_UP0 : Fld := ⟨15, 0⟩
def DRV_CH_TH0_UP1 : Fld := ⟨31, 16⟩

/-- DRV_CHc_TH1 (spec/05_drive_array.md). -/
def DRV_CH_TH1 (t : Nat) (c : Nat) : Nat := 0x100C04 + 0x1000 * t + 0x8 * c
def DRV_CH_TH1_UP2 : Fld := ⟨15, 0⟩
def DRV_CH_TH1_UP3 : Fld := ⟨31, 16⟩

/-- MON_CTRL (spec/06_monitor_array.md). -/
def MON_CTRL (t : Nat) : Nat := 0x200000 + 0x1000 * t
def MON_CTRL_ENABLE : Fld := ⟨0, 0⟩

/-- MON_STATUS (spec/06_monitor_array.md). -/
def MON_STATUS (t : Nat) : Nat := 0x200004 + 0x1000 * t
def MON_STATUS_ENABLED : Fld := ⟨0, 0⟩
def MON_STATUS_ENREFUSE : Fld := ⟨3, 1⟩
def MON_STATUS_ADC_OK : Fld := ⟨15, 8⟩
def MON_STATUS_WATCH : Fld := ⟨19, 16⟩
def MON_STATUS_SUSPENDED : Fld := ⟨20, 20⟩
def MON_STATUS_DARK_NONE : Fld := ⟨21, 21⟩

/-- MON_AVG (spec/06_monitor_array.md). -/
def MON_AVG (t : Nat) : Nat := 0x200008 + 0x1000 * t
def MON_AVG_NM1 : Fld := ⟨7, 0⟩
def MON_AVG_SHIFT : Fld := ⟨11, 8⟩
def MON_AVG_WATCH_N : Fld := ⟨18, 16⟩

/-- MON_THR (spec/06_monitor_array.md). -/
def MON_THR (t : Nat) : Nat := 0x20000C + 0x1000 * t
def MON_THR_PRESENT : Fld := ⟨7, 0⟩
def MON_THR_ABSENT : Fld := ⟨15, 8⟩
def MON_THR_MARGIN : Fld := ⟨23, 16⟩
def MON_THR_FLOOR : Fld := ⟨31, 24⟩

/-- MON_DARK (spec/06_monitor_array.md). -/
def MON_DARK (t : Nat) : Nat := 0x200010 + 0x1000 * t
def MON_DARK_TRACK : Fld := ⟨0, 0⟩
def MON_DARK_DOUBLE : Fld := ⟨15, 8⟩
def MON_DARK_TILE_DARK : Fld := ⟨31, 16⟩

/-- MON_DIAG (spec/06_monitor_array.md). -/
def MON_DIAG (t : Nat) : Nat := 0x200014 + 0x1000 * t
def MON_DIAG_INPUT : Fld := ⟨6, 0⟩
def MON_DIAG_START : Fld := ⟨7, 7⟩
def MON_DIAG_BUSY : Fld := ⟨8, 8⟩
def MON_DIAG_SAMPLE : Fld := ⟨31, 16⟩

/-- MON_WATCHq (spec/06_monitor_array.md). -/
def MON_WATCH (t : Nat) (q : Nat) : Nat := 0x200020 + 0x1000 * t + 0x4 * q
def MON_WATCH_INPUT : Fld := ⟨6, 0⟩
def MON_WATCH_ACTIVE : Fld := ⟨8, 8⟩
def MON_WATCH_SINGLE : Fld := ⟨9, 9⟩
def MON_WATCH_QLEN : Fld := ⟨12, 10⟩

/-- MON_EXITk (spec/06_monitor_array.md). -/
def MON_EXIT (t : Nat) (k : Nat) : Nat := 0x200040 + 0x1000 * t + 0x4 * k

/-- MON_LIGHTk (spec/06_monitor_array.md). -/
def MON_LIGHT (t : Nat) (k : Nat) : Nat := 0x200050 + 0x1000 * t + 0x4 * k

/-- MON_ADCk_CAL (spec/06_monitor_array.md). -/
def MON_ADC_CAL (t : Nat) (k : Nat) : Nat := 0x200060 + 0x1000 * t + 0x4 * k
def MON_ADC_CAL_OFFSET : Fld := ⟨11, 0⟩
def MON_ADC_CAL_GAIN : Fld := ⟨27, 12⟩
def MON_ADC_CAL_VALID : Fld := ⟨28, 28⟩

/-- MON_CNTk (spec/06_monitor_array.md). -/
def MON_CNT (t : Nat) (k : Nat) : Nat := 0x200080 + 0x1000 * t + 0x4 * k

/-- MON_CNT_CLR (spec/06_monitor_array.md). -/
def MON_CNT_CLR (t : Nat) : Nat := 0x2000A0 + 0x1000 * t
def MON_CNT_CLR_CLEAR : Fld := ⟨0, 0⟩

/-- MON_INj_CFG (spec/06_monitor_array.md). -/
def MON_IN_CFG (t : Nat) (j : Nat) : Nat := 0x200400 + 0x1000 * t + 0x4 * j
def MON_IN_CFG_GAIN : Fld := ⟨2, 0⟩
def MON_IN_CFG_DARK : Fld := ⟨13, 4⟩
def MON_IN_CFG_DSTALE : Fld := ⟨14, 14⟩
def MON_IN_CFG_CMP_EN : Fld := ⟨16, 16⟩
def MON_IN_CFG_WAKE_EN : Fld := ⟨17, 17⟩
def MON_IN_CFG_FILT : Fld := ⟨19, 18⟩

/-- MON_INj_WIN (spec/06_monitor_array.md). -/
def MON_IN_WIN (t : Nat) (j : Nat) : Nat := 0x200600 + 0x1000 * t + 0x4 * j
def MON_IN_WIN_LO : Fld := ⟨11, 0⟩
def MON_IN_WIN_HI : Fld := ⟨27, 16⟩
def MON_IN_WIN_STATE : Fld := ⟨29, 28⟩

/-- MON_INj_AVG (spec/06_monitor_array.md). -/
def MON_IN_AVG (t : Nat) (j : Nat) : Nat := 0x200800 + 0x1000 * t + 0x4 * j
def MON_IN_AVG_AVG : Fld := ⟨19, 0⟩
def MON_IN_AVG_PARTIAL : Fld := ⟨20, 20⟩
def MON_IN_AVG_GAP : Fld := ⟨21, 21⟩
def MON_IN_AVG_FLAG : Fld := ⟨22, 22⟩
def MON_IN_AVG_OVER : Fld := ⟨23, 23⟩
def MON_IN_AVG_SEQ : Fld := ⟨31, 24⟩

/-- MON_INj_LAST (spec/06_monitor_array.md). -/
def MON_IN_LAST (t : Nat) (j : Nat) : Nat := 0x200A00 + 0x1000 * t + 0x4 * j
def MON_IN_LAST_SAMPLE : Fld := ⟨15, 0⟩
def MON_IN_LAST_SEQ : Fld := ⟨23, 16⟩

/-- CAL_ADC_CMD (spec/06_monitor_array.md). -/
def CAL_ADC_CMD : Nat := 0x0A0800
def CAL_ADC_CMD_ADC : Fld := ⟨9, 0⟩
def CAL_ADC_CMD_ALL : Fld := ⟨10, 10⟩
def CAL_ADC_CMD_START : Fld := ⟨11, 11⟩

/-- CAL_ADC_STATUS (spec/06_monitor_array.md). -/
def CAL_ADC_STATUS : Nat := 0x0A0804
def CAL_ADC_STATUS_BUSY : Fld := ⟨0, 0⟩
def CAL_ADC_STATUS_DONE : Fld := ⟨1, 1⟩
def CAL_ADC_STATUS_REFUSED : Fld := ⟨2, 2⟩
def CAL_ADC_STATUS_LAST_FAIL : Fld := ⟨13, 4⟩
def CAL_ADC_STATUS_FAILED : Fld := ⟨25, 16⟩

/-- TRK_CTRL (spec/08_taruk_cores.md). -/
def TRK_CTRL (core : Nat) : Nat := 0x300000 + 0x4000 * core
def TRK_CTRL_HOOK_EN : Fld := ⟨0, 0⟩

/-- TRK_STATUS (spec/08_taruk_cores.md). -/
def TRK_STATUS (core : Nat) : Nat := 0x300004 + 0x4000 * core
def TRK_STATUS_STATE : Fld := ⟨1, 0⟩
def TRK_STATUS_LEVEL : Fld := ⟨7, 4⟩
def TRK_STATUS_CMODE : Fld := ⟨8, 8⟩
def TRK_STATUS_HOOK_OFF : Fld := ⟨9, 9⟩
def TRK_STATUS_TILE : Fld := ⟨23, 16⟩
def TRK_STATUS_SPARE : Fld := ⟨24, 24⟩

/-- TRK_PAGE (spec/08_taruk_cores.md). -/
def TRK_PAGE (core : Nat) : Nat := 0x300008 + 0x4000 * core
def TRK_PAGE_IPAGE : Fld := ⟨2, 0⟩
def TRK_PAGE_DPAGE : Fld := ⟨6, 4⟩

/-- TRK_PC (spec/08_taruk_cores.md). -/
def TRK_PC (core : Nat) : Nat := 0x30000C + 0x4000 * core
def TRK_PC_PC : Fld := ⟨14, 0⟩

/-- TRK_CSR (spec/08_taruk_cores.md). -/
def TRK_CSR (core : Nat) : Nat := 0x300010 + 0x4000 * core
def TRK_CSR_STATUS : Fld := ⟨15, 0⟩
def TRK_CSR_MODOUT : Fld := ⟨16, 16⟩
def TRK_CSR_AOV : Fld := ⟨17, 17⟩
def TRK_CSR_SAT : Fld := ⟨18, 18⟩
def TRK_CSR_MODREG : Fld := ⟨21, 19⟩
def TRK_CSR_CAUSE : Fld := ⟨23, 22⟩

/-- TRK_FAULT (spec/08_taruk_cores.md). -/
def TRK_FAULT (core : Nat) : Nat := 0x300014 + 0x4000 * core
def TRK_FAULT_KIND : Fld := ⟨2, 0⟩
def TRK_FAULT_PC : Fld := ⟨30, 16⟩

/-- TRK_EVPEND (spec/08_taruk_cores.md). -/
def TRK_EVPEND (core : Nat) : Nat := 0x300018 + 0x4000 * core
def TRK_EVPEND_PEND : Fld := ⟨8, 1⟩

/-- TRK_CNTk (spec/08_taruk_cores.md). -/
def TRK_CNT (core : Nat) (k : Nat) : Nat := 0x300040 + 0x4000 * core + 0x4 * k

/-- TRK_CNT_CLR (spec/08_taruk_cores.md). -/
def TRK_CNT_CLR (core : Nat) : Nat := 0x300060 + 0x4000 * core
def TRK_CNT_CLR_CLEAR : Fld := ⟨0, 0⟩

/-- CAL_CTRL (spec/09_recess_calibration.md). -/
def CAL_CTRL : Nat := 0x0A0000
def CAL_CTRL_EN : Fld := ⟨0, 0⟩
def CAL_CTRL_SWEEP_EN : Fld := ⟨1, 1⟩
def CAL_CTRL_LANTERN_EN : Fld := ⟨2, 2⟩
def CAL_CTRL_KAPPA_EN : Fld := ⟨3, 3⟩
def CAL_CTRL_TCOEF_EN : Fld := ⟨4, 4⟩
def CAL_CTRL_PAR : Fld := ⟨10, 8⟩
def CAL_CTRL_JOURNAL_EN : Fld := ⟨12, 12⟩

/-- CAL_TRIG (spec/09_recess_calibration.md). -/
def CAL_TRIG : Nat := 0x0A0004
def CAL_TRIG_TRIG : Fld := ⟨15, 0⟩
def CAL_TRIG_SWAP_INT : Fld := ⟨31, 16⟩

/-- CAL_SWEEP (spec/09_recess_calibration.md). -/
def CAL_SWEEP : Nat := 0x0A0008
def CAL_SWEEP_SPAN : Fld := ⟨11, 0⟩
def CAL_SWEEP_DWELL : Fld := ⟨23, 16⟩
def CAL_SWEEP_AGREE : Fld := ⟨31, 24⟩

/-- CAL_AGE (spec/09_recess_calibration.md). -/
def CAL_AGE : Nat := 0x0A000C
def CAL_AGE_SWEEP_AGE : Fld := ⟨15, 0⟩
def CAL_AGE_ROUND_MAX : Fld := ⟨31, 16⟩

/-- CAL_STATUS (spec/09_recess_calibration.md). -/
def CAL_STATUS : Nat := 0x0A0010
def CAL_STATUS_SWAP_PENDING : Fld := ⟨0, 0⟩
def CAL_STATUS_JOURNAL_DIRTY : Fld := ⟨1, 1⟩
def CAL_STATUS_ROUNDS : Fld := ⟨14, 8⟩
def CAL_STATUS_SWEEPS : Fld := ⟨24, 16⟩

/-- CAL_LAST_SWAP (spec/09_recess_calibration.md). -/
def CAL_LAST_SWAP : Nat := 0x0A0014

/-- CAL_SWAP_TILESk (spec/09_recess_calibration.md). -/
def CAL_SWAP_TILES (k : Nat) : Nat := 0x0A0020 + 0x4 * k

/-- CAL_CNTk (spec/09_recess_calibration.md). -/
def CAL_CNT (k : Nat) : Nat := 0x0A0040 + 0x4 * k

/-- CAL_CNT_CLR (spec/09_recess_calibration.md). -/
def CAL_CNT_CLR : Nat := 0x0A0060
def CAL_CNT_CLR_CLEAR : Fld := ⟨0, 0⟩

/-- PWR_CTRL (spec/10_heater_power.md). -/
def PWR_CTRL : Nat := 0x070000
def PWR_CTRL_TRIP_LIMIT : Fld := ⟨7, 0⟩
def PWR_CTRL_SS_RATE : Fld := ⟨15, 8⟩

/-- PWR_STATUS (spec/10_heater_power.md). -/
def PWR_STATUS : Nat := 0x070004
def PWR_STATUS_REG : Fld := ⟨4, 0⟩
def PWR_STATUS_FAIL : Fld := ⟨12, 8⟩
def PWR_STATUS_KICK_STATE : Fld := ⟨17, 16⟩
def PWR_STATUS_TSET : Fld := ⟨18, 18⟩
def PWR_STATUS_SHUTDOWN : Fld := ⟨19, 19⟩

/-- PWR_HP (spec/10_heater_power.md). -/
def PWR_HP : Nat := 0x070008
def PWR_HP_PEAK : Fld := ⟨15, 0⟩

/-- PWR_POOL (spec/10_heater_power.md). -/
def PWR_POOL : Nat := 0x07000C
def PWR_POOL_PEAK_MAX : Fld := ⟨15, 0⟩
def PWR_POOL_REPAIR : Fld := ⟨31, 16⟩

/-- PWR_ENERGY (spec/10_heater_power.md). -/
def PWR_ENERGY : Nat := 0x070010
def PWR_ENERGY_E_WIN : Fld := ⟨15, 0⟩

/-- PWR_STAND (spec/10_heater_power.md). -/
def PWR_STAND : Nat := 0x070014
def PWR_STAND_TILE : Fld := ⟨7, 0⟩
def PWR_STAND_WATCH_RATE : Fld := ⟨15, 8⟩
def PWR_STAND_WATCH_DEPTH : Fld := ⟨31, 16⟩

/-- PWR_KICK (spec/10_heater_power.md). -/
def PWR_KICK : Nat := 0x070018
def PWR_KICK_IDLE : Fld := ⟨15, 0⟩
def PWR_KICK_BELL : Fld := ⟨31, 16⟩

/-- PWR_KICK2 (spec/10_heater_power.md). -/
def PWR_KICK2 : Nat := 0x07001C
def PWR_KICK2_RATE : Fld := ⟨7, 0⟩
def PWR_KICK2_HOLDOFF : Fld := ⟨15, 8⟩

/-- PWR_RAILk_CFG (spec/10_heater_power.md). -/
def PWR_RAIL_CFG (k : Nat) : Nat := 0x070040 + 0x10 * k
def PWR_RAIL_CFG_EN : Fld := ⟨0, 0⟩
def PWR_RAIL_CFG_PER : Fld := ⟨31, 16⟩

/-- PWR_RAIL0_TGT (spec/10_heater_power.md). -/
def PWR_RAIL_TGT (k : Nat) : Nat := 0x070044 + 0x10 * k
def PWR_RAIL_TGT_TGT0 : Fld := ⟨15, 0⟩
def PWR_RAIL_TGT_TGT1 : Fld := ⟨31, 16⟩

/-- PWR_RAILk_MEAS (spec/10_heater_power.md). -/
def PWR_RAIL_MEAS (k : Nat) : Nat := 0x070048 + 0x10 * k
def PWR_RAIL_MEAS_VOLT : Fld := ⟨15, 0⟩
def PWR_RAIL_MEAS_CURR : Fld := ⟨31, 16⟩

/-- PWR_RAILk_CMD (spec/10_heater_power.md). -/
def PWR_RAIL_CMD (k : Nat) : Nat := 0x07004C + 0x10 * k
def PWR_RAIL_CMD_RESTART : Fld := ⟨0, 0⟩

/-- PWR_PWMn_CTRL (spec/10_heater_power.md). -/
def PWR_PWM_CTRL (n : Nat) : Nat := 0x070100 + 0x20 * n
def PWR_PWM_CTRL_EN : Fld := ⟨0, 0⟩
def PWR_PWM_CTRL_MODE : Fld := ⟨1, 1⟩
def PWR_PWM_CTRL_PAIRED : Fld := ⟨2, 2⟩
def PWR_PWM_CTRL_RAIL : Fld := ⟨6, 4⟩

/-- PWR_PWMn_PER (spec/10_heater_power.md). -/
def PWR_PWM_PER (n : Nat) : Nat := 0x070104 + 0x20 * n
def PWR_PWM_PER_PER : Fld := ⟨15, 0⟩

/-- PWR_PWMn_CMP (spec/10_heater_power.md). -/
def PWR_PWM_CMP (n : Nat) : Nat := 0x070108 + 0x20 * n
def PWR_PWM_CMP_CMP : Fld := ⟨15, 0⟩

/-- PWR_PWMn_DT (spec/10_heater_power.md). -/
def PWR_PWM_DT (n : Nat) : Nat := 0x07010C + 0x20 * n
def PWR_PWM_DT_RISE : Fld := ⟨5, 0⟩
def PWR_PWM_DT_FALL : Fld := ⟨13, 8⟩

/-- PWR_PWMn_COMMIT (spec/10_heater_power.md). -/
def PWR_PWM_COMMIT (n : Nat) : Nat := 0x070110 + 0x20 * n
def PWR_PWM_COMMIT_COMMIT : Fld := ⟨0, 0⟩

/-- PWR_PWMn_STAT (spec/10_heater_power.md). -/
def PWR_PWM_STAT (n : Nat) : Nat := 0x070114 + 0x20 * n
def PWR_PWM_STAT_TRIP : Fld := ⟨0, 0⟩
def PWR_PWM_STAT_RTRIP : Fld := ⟨1, 1⟩
def PWR_PWM_STAT_INPUT : Fld := ⟨2, 2⟩
def PWR_PWM_STAT_OFF : Fld := ⟨3, 3⟩
def PWR_PWM_STAT_RUNTRIP : Fld := ⟨15, 8⟩

/-- PWR_PWMn_ACT (spec/10_heater_power.md). -/
def PWR_PWM_ACT (n : Nat) : Nat := 0x070118 + 0x20 * n
def PWR_PWM_ACT_PER : Fld := ⟨15, 0⟩
def PWR_PWM_ACT_CMP : Fld := ⟨31, 16⟩

/-- PWR_CNTk (spec/10_heater_power.md). -/
def PWR_CNT (k : Nat) : Nat := 0x070400 + 0x4 * k

/-- PWR_CNT_CLR (spec/10_heater_power.md). -/
def PWR_CNT_CLR : Nat := 0x070420
def PWR_CNT_CLR_CLEAR : Fld := ⟨0, 0⟩

/-- TMU_CTRL (spec/11_time_and_network.md). -/
def TMU_CTRL : Nat := 0x030000
def TMU_CTRL_FORCE_SRC : Fld := ⟨2, 0⟩
def TMU_CTRL_PPS_SQUELCH : Fld := ⟨3, 3⟩
def TMU_CTRL_WTR : Fld := ⟨15, 8⟩

/-- TMU_STATUS (spec/11_time_and_network.md). -/
def TMU_STATUS : Nat := 0x030004
def TMU_STATUS_SERVO : Fld := ⟨2, 0⟩
def TMU_STATUS_STEPPED : Fld := ⟨3, 3⟩
def TMU_STATUS_SRC : Fld := ⟨6, 4⟩
def TMU_STATUS_FREQ_SYNCE : Fld := ⟨7, 7⟩
def TMU_STATUS_QUAL : Fld := ⟨13, 8⟩
def TMU_STATUS_SYNCE_QUAL : Fld := ⟨14, 14⟩

/-- TMU_CMD (spec/11_time_and_network.md). -/
def TMU_CMD : Nat := 0x030008
def TMU_CMD_SET : Fld := ⟨0, 0⟩
def TMU_CMD_STEP : Fld := ⟨1, 1⟩
def TMU_CMD_RC_ARM : Fld := ⟨2, 2⟩
def TMU_CMD_RC_NOW : Fld := ⟨3, 3⟩
def TMU_CMD_RC_STOP : Fld := ⟨4, 4⟩

/-- TMU_CMD_STATUS (spec/11_time_and_network.md). -/
def TMU_CMD_STATUS : Nat := 0x03000C
def TMU_CMD_STATUS_LAST : Fld := ⟨1, 0⟩

/-- TMU_NOWk (spec/11_time_and_network.md). -/
def TMU_NOW (k : Nat) : Nat := 0x030010 + 0x4 * k

/-- TMU_SETk (spec/11_time_and_network.md). -/
def TMU_SET (k : Nat) : Nat := 0x030020 + 0x4 * k

/-- TMU_EPOCH (spec/11_time_and_network.md). -/
def TMU_EPOCH : Nat := 0x03002C
def TMU_EPOCH_EPOCH : Fld := ⟨15, 0⟩
def TMU_EPOCH_UTC_OFS : Fld := ⟨27, 16⟩
def TMU_EPOCH_UTC_VALID : Fld := ⟨28, 28⟩

/-- TMU_SRC_PRIO (spec/11_time_and_network.md). -/
def TMU_SRC_PRIO : Nat := 0x030030
def TMU_SRC_PRIO_PRIO : Fld := ⟨23, 0⟩

/-- TMU_SYNCE (spec/11_time_and_network.md). -/
def TMU_SYNCE : Nat := 0x030034
def TMU_SYNCE_FSRC : Fld := ⟨1, 0⟩
def TMU_SYNCE_FLIM : Fld := ⟨15, 8⟩
def TMU_SYNCE_BW : Fld := ⟨23, 16⟩

/-- TMU_SERVO (spec/11_time_and_network.md). -/
def TMU_SERVO : Nat := 0x030038
def TMU_SERVO_KP : Fld := ⟨7, 0⟩
def TMU_SERVO_KI : Fld := ⟨15, 8⟩
def TMU_SERVO_MAXRATE : Fld := ⟨23, 16⟩
def TMU_SERVO_LOCK_THR : Fld := ⟨31, 24⟩

/-- TMU_STEP (spec/11_time_and_network.md). -/
def TMU_STEP : Nat := 0x03003C
def TMU_STEP_STEP_MIN : Fld := ⟨15, 0⟩

/-- TMU_SVk (spec/11_time_and_network.md). -/
def TMU_SV (k : Nat) : Nat := 0x030040 + 0x4 * k

/-- TMU_HO (spec/11_time_and_network.md). -/
def TMU_HO : Nat := 0x030048
def TMU_HO_HO_SEC : Fld := ⟨23, 0⟩
def TMU_HO_HO_AVG : Fld := ⟨31, 24⟩

/-- TMU_HO_ERR (spec/11_time_and_network.md). -/
def TMU_HO_ERR : Nat := 0x03004C

/-- TMU_OSC (spec/11_time_and_network.md). -/
def TMU_OSC : Nat := 0x030050
def TMU_OSC_RATE_UNC : Fld := ⟨15, 0⟩
def TMU_OSC_DRIFT : Fld := ⟨31, 16⟩

/-- TMU_PPSm_CFG (spec/11_time_and_network.md). -/
def TMU_PPS_CFG (m : Nat) : Nat := 0x030060 + 0x4 * m
def TMU_PPS_CFG_EN : Fld := ⟨0, 0⟩
def TMU_PPS_CFG_EDGE : Fld := ⟨1, 1⟩
def TMU_PPS_CFG_DELAY : Fld := ⟨31, 16⟩

/-- TMU_PPSm_SEC (spec/11_time_and_network.md). -/
def TMU_PPS_SEC (m : Nat) : Nat := 0x030068 + 0x4 * m

/-- TMU_PPS_OUT (spec/11_time_and_network.md). -/
def TMU_PPS_OUT : Nat := 0x030070
def TMU_PPS_OUT_EN : Fld := ⟨0, 0⟩
def TMU_PPS_OUT_POL : Fld := ⟨1, 1⟩
def TMU_PPS_OUT_WIDTH : Fld := ⟨23, 8⟩

/-- TMU_PPS_TRIM (spec/11_time_and_network.md). -/
def TMU_PPS_TRIM : Nat := 0x030074
def TMU_PPS_TRIM_FINE : Fld := ⟨15, 0⟩

/-- TMU_BELLn_CFG (spec/11_time_and_network.md). -/
def TMU_BELL_CFG (n : Nat) : Nat := 0x030080 + 0x8 * n
def TMU_BELL_CFG_SEL : Fld := ⟨2, 0⟩
def TMU_BELL_CFG_POL : Fld := ⟨3, 3⟩
def TMU_BELL_CFG_LEAD : Fld := ⟨19, 8⟩
def TMU_BELL_CFG_WIDTH : Fld := ⟨31, 20⟩

/-- TMU_BELLn_TRIM (spec/11_time_and_network.md). -/
def TMU_BELL_TRIM (n : Nat) : Nat := 0x030084 + 0x8 * n
def TMU_BELL_TRIM_FINE : Fld := ⟨15, 0⟩
def TMU_BELL_TRIM_ORPHAN : Fld := ⟨16, 16⟩

/-- TMU_RCk (spec/11_time_and_network.md). -/
def TMU_RC (k : Nat) : Nat := 0x0300C0 + 0x4 * k

/-- TMU_RC_PERIOD (spec/11_time_and_network.md). -/
def TMU_RC_PERIOD : Nat := 0x0300CC

/-- TMU_RC_STATUS (spec/11_time_and_network.md). -/
def TMU_RC_STATUS : Nat := 0x0300D0
def TMU_RC_STATUS_ARMED : Fld := ⟨0, 0⟩
def TMU_RC_STATUS_REFUSED : Fld := ⟨1, 1⟩
def TMU_RC_STATUS_SEQ : Fld := ⟨31, 16⟩

/-- TMU_CNTk (spec/11_time_and_network.md). -/
def TMU_CNT (k : Nat) : Nat := 0x030100 + 0x4 * k

/-- TMU_CNT_CLR (spec/11_time_and_network.md). -/
def TMU_CNT_CLR : Nat := 0x030120
def TMU_CNT_CLR_CLEAR : Fld := ⟨0, 0⟩

/-- ETH_CTRL (spec/11_time_and_network.md). -/
def ETH_CTRL (p : Nat) : Nat := 0x040000 + 0x1000 * p
def ETH_CTRL_EN : Fld := ⟨0, 0⟩
def ETH_CTRL_MODE : Fld := ⟨2, 1⟩
def ETH_CTRL_FEC : Fld := ⟨3, 3⟩
def ETH_CTRL_AN : Fld := ⟨4, 4⟩
def ETH_CTRL_PTP_EN : Fld := ⟨5, 5⟩
def ETH_CTRL_TEL_EN : Fld := ⟨6, 6⟩
def ETH_CTRL_SYNCE_TX : Fld := ⟨7, 7⟩

/-- ETH_STATUS (spec/11_time_and_network.md). -/
def ETH_STATUS (p : Nat) : Nat := 0x040004 + 0x1000 * p
def ETH_STATUS_LINK : Fld := ⟨0, 0⟩
def ETH_STATUS_AN_DONE : Fld := ⟨1, 1⟩
def ETH_STATUS_SPEED : Fld := ⟨3, 2⟩
def ETH_STATUS_FEC_LOCK : Fld := ⟨4, 4⟩
def ETH_STATUS_LAT_VALID : Fld := ⟨5, 5⟩
def ETH_STATUS_PTP_STATE : Fld := ⟨11, 8⟩
def ETH_STATUS_CFGERR : Fld := ⟨12, 12⟩
def ETH_STATUS_ONESTEP_OFF : Fld := ⟨13, 13⟩

/-- ETH_MAC0 (spec/11_time_and_network.md). -/
def ETH_MAC (p : Nat) (k : Nat) : Nat := 0x040008 + 0x1000 * p + 0x4 * k

/-- ETH_VLAN (spec/11_time_and_network.md). -/
def ETH_VLAN (p : Nat) : Nat := 0x040010 + 0x1000 * p
def ETH_VLAN_VID : Fld := ⟨11, 0⟩
def ETH_VLAN_TAG_TX : Fld := ⟨12, 12⟩
def ETH_VLAN_PCP_PTP : Fld := ⟨15, 13⟩
def ETH_VLAN_PCP_NOTICE : Fld := ⟨18, 16⟩
def ETH_VLAN_PCP_TEL : Fld := ⟨21, 19⟩

/-- ETH_IPV4 (spec/11_time_and_network.md). -/
def ETH_IPV4 (p : Nat) : Nat := 0x040014 + 0x1000 * p

/-- ETH_PTP_CFG (spec/11_time_and_network.md). -/
def ETH_PTP_CFG (p : Nat) : Nat := 0x040018 + 0x1000 * p
def ETH_PTP_CFG_TRANSPORT : Fld := ⟨1, 0⟩
def ETH_PTP_CFG_DELAY : Fld := ⟨2, 2⟩
def ETH_PTP_CFG_ONESTEP : Fld := ⟨3, 3⟩
def ETH_PTP_CFG_PROFILE : Fld := ⟨5, 4⟩
def ETH_PTP_CFG_G8275_DA : Fld := ⟨6, 6⟩
def ETH_PTP_CFG_LOG_SYNC : Fld := ⟨15, 8⟩
def ETH_PTP_CFG_LOG_DELAY : Fld := ⟨23, 16⟩
def ETH_PTP_CFG_LOCAL_PRIO : Fld := ⟨31, 24⟩

/-- ETH_TSk (spec/11_time_and_network.md). -/
def ETH_TS (p : Nat) (k : Nat) : Nat := 0x04001C + 0x1000 * p + 0x4 * k

/-- ETH_SHAPE (spec/11_time_and_network.md). -/
def ETH_SHAPE (p : Nat) : Nat := 0x040030 + 0x1000 * p
def ETH_SHAPE_RATE : Fld := ⟨15, 0⟩
def ETH_SHAPE_BURST : Fld := ⟨31, 16⟩

/-- ETH_CLASS (spec/11_time_and_network.md). -/
def ETH_CLASS (p : Nat) : Nat := 0x040034 + 0x1000 * p
def ETH_CLASS_ETYPE : Fld := ⟨15, 0⟩
def ETH_CLASS_MAXLEN : Fld := ⟨26, 16⟩

/-- ETH_CNTk (spec/11_time_and_network.md). -/
def ETH_CNT (p : Nat) (k : Nat) : Nat := 0x040080 + 0x1000 * p + 0x4 * k

/-- ETH_CNT_CLR (spec/11_time_and_network.md). -/
def ETH_CNT_CLR (p : Nat) : Nat := 0x0400C0 + 0x1000 * p
def ETH_CNT_CLR_CLEAR : Fld := ⟨0, 0⟩

/-- ETH_PTP_GLB (spec/11_time_and_network.md). -/
def ETH_PTP_GLB : Nat := 0x04F000
def ETH_PTP_GLB_DOMAIN : Fld := ⟨7, 0⟩
def ETH_PTP_GLB_PRIO1 : Fld := ⟨15, 8⟩
def ETH_PTP_GLB_PRIO2 : Fld := ⟨23, 16⟩
def ETH_PTP_GLB_CLASS : Fld := ⟨31, 24⟩

/-- HIF_PSTATUS (spec/12_host_rings.md). -/
def HIF_PSTATUS (p : Nat) : Nat := 0x010000 + 0x4000 * p
def HIF_PSTATUS_LINK : Fld := ⟨0, 0⟩
def HIF_PSTATUS_SPEED : Fld := ⟨3, 1⟩
def HIF_PSTATUS_WIDTH : Fld := ⟨6, 4⟩
def HIF_PSTATUS_D3 : Fld := ⟨7, 7⟩
def HIF_PSTATUS_FLR_BUSY : Fld := ⟨8, 8⟩

/-- HIF_SBLK_LO (spec/12_host_rings.md). -/
def HIF_SBLK_LO (p : Nat) : Nat := 0x010008 + 0x4000 * p
def HIF_SBLK_LO_EN : Fld := ⟨0, 0⟩
def HIF_SBLK_LO_ADDR : Fld := ⟨31, 7⟩

/-- HIF_SBLK_HI (spec/12_host_rings.md). -/
def HIF_SBLK_HI (p : Nat) : Nat := 0x01000C + 0x4000 * p

/-- HIF_EVVEC (spec/12_host_rings.md). -/
def HIF_EVVEC (p : Nat) : Nat := 0x010010 + 0x4000 * p
def HIF_EVVEC_FAULT : Fld := ⟨5, 0⟩
def HIF_EVVEC_FAULT_EN : Fld := ⟨6, 6⟩
def HIF_EVVEC_THERM : Fld := ⟨13, 8⟩
def HIF_EVVEC_THERM_EN : Fld := ⟨14, 14⟩
def HIF_EVVEC_DUAL : Fld := ⟨21, 16⟩
def HIF_EVVEC_DUAL_EN : Fld := ⟨22, 22⟩

/-- HIF_TSHAPE (spec/12_host_rings.md). -/
def HIF_TSHAPE (p : Nat) : Nat := 0x010014 + 0x4000 * p
def HIF_TSHAPE_RATE : Fld := ⟨15, 0⟩
def HIF_TSHAPE_BURST : Fld := ⟨31, 16⟩

/-- HIF_PCNTk (spec/12_host_rings.md). -/
def HIF_PCNT (p : Nat) (k : Nat) : Nat := 0x010040 + 0x4000 * p + 0x4 * k

/-- HIF_PCNT_CLR (spec/12_host_rings.md). -/
def HIF_PCNT_CLR (p : Nat) : Nat := 0x010060 + 0x4000 * p
def HIF_PCNT_CLR_CLEAR : Fld := ⟨0, 0⟩
def HIF_PCNT_CLR_RING : Fld := ⟨1, 1⟩

/-- HIF_RINGr_SQ_LO (spec/12_host_rings.md). -/
def HIF_RING_SQ_LO (p : Nat) (r : Nat) : Nat := 0x010100 + 0x4000 * p + 0x40 * r
def HIF_RING_SQ_LO_ADDR : Fld := ⟨31, 12⟩

/-- HIF_RINGr_SQ_HI (spec/12_host_rings.md). -/
def HIF_RING_SQ_HI (p : Nat) (r : Nat) : Nat := 0x010104 + 0x4000 * p + 0x40 * r

/-- HIF_RINGr_CQ_LO (spec/12_host_rings.md). -/
def HIF_RING_CQ_LO (p : Nat) (r : Nat) : Nat := 0x010108 + 0x4000 * p + 0x40 * r
def HIF_RING_CQ_LO_ADDR : Fld := ⟨31, 12⟩

/-- HIF_RINGr_CQ_HI (spec/12_host_rings.md). -/
def HIF_RING_CQ_HI (p : Nat) (r : Nat) : Nat := 0x01010C + 0x4000 * p + 0x40 * r

/-- HIF_RINGr_CFG (spec/12_host_rings.md). -/
def HIF_RING_CFG (p : Nat) (r : Nat) : Nat := 0x010110 + 0x4000 * p + 0x40 * r
def HIF_RING_CFG_EN : Fld := ⟨0, 0⟩
def HIF_RING_CFG_FMT : Fld := ⟨1, 1⟩
def HIF_RING_CFG_CLASS : Fld := ⟨3, 2⟩
def HIF_RING_CFG_SQ_SIZE : Fld := ⟨7, 4⟩
def HIF_RING_CFG_CQ_SIZE : Fld := ⟨11, 8⟩
def HIF_RING_CFG_BATCH : Fld := ⟨14, 12⟩
def HIF_RING_CFG_VEC : Fld := ⟨21, 16⟩
def HIF_RING_CFG_WEIGHT : Fld := ⟨31, 24⟩

/-- HIF_RINGr_IRQ (spec/12_host_rings.md). -/
def HIF_RING_IRQ (p : Nat) (r : Nat) : Nat := 0x010114 + 0x4000 * p + 0x40 * r
def HIF_RING_IRQ_COUNT : Fld := ⟨7, 0⟩
def HIF_RING_IRQ_TIME : Fld := ⟨23, 8⟩

/-- HIF_RINGr_STAT (spec/12_host_rings.md). -/
def HIF_RING_STAT (p : Nat) (r : Nat) : Nat := 0x010118 + 0x4000 * p + 0x40 * r
def HIF_RING_STAT_HEAD : Fld := ⟨11, 0⟩
def HIF_RING_STAT_ERR : Fld := ⟨15, 12⟩
def HIF_RING_STAT_OWED : Fld := ⟨28, 16⟩
def HIF_RING_STAT_ACTIVE : Fld := ⟨29, 29⟩

/-- HIF_RINGr_CQT (spec/12_host_rings.md). -/
def HIF_RING_CQT (p : Nat) (r : Nat) : Nat := 0x01011C + 0x4000 * p + 0x40 * r
def HIF_RING_CQT_TAIL : Fld := ⟨11, 0⟩
def HIF_RING_CQT_PHASE : Fld := ⟨12, 12⟩
def HIF_RING_CQT_HEAD : Fld := ⟨27, 16⟩

/-- HIF_RINGr_DLY (spec/12_host_rings.md). -/
def HIF_RING_DLY (p : Nat) (r : Nat) : Nat := 0x010120 + 0x4000 * p + 0x40 * r
def HIF_RING_DLY_LAST : Fld := ⟨15, 0⟩
def HIF_RING_DLY_MAX : Fld := ⟨31, 16⟩

/-- HIF_RINGr_DEPTH (spec/12_host_rings.md). -/
def HIF_RING_DEPTH (p : Nat) (r : Nat) : Nat := 0x010124 + 0x4000 * p + 0x40 * r
def HIF_RING_DEPTH_NOW : Fld := ⟨12, 0⟩
def HIF_RING_DEPTH_MAX : Fld := ⟨28, 16⟩

/-- HIF_RINGr_CNT (spec/12_host_rings.md). -/
def HIF_RING_CNT (p : Nat) (r : Nat) : Nat := 0x010128 + 0x4000 * p + 0x40 * r

/-- HIF_HALT (spec/12_host_rings.md). -/
def HIF_HALT : Nat := 0x018000
def HIF_HALT_HALT : Fld := ⟨0, 0⟩
def HIF_HALT_BY : Fld := ⟨3, 1⟩
def HIF_HALT_DONE : Fld := ⟨4, 4⟩

/-- ISC_VTIME (spec/12_host_rings.md). -/
def ISC_VTIME : Nat := 0x020000

/-- ISC_CNT_CLR (spec/12_host_rings.md). -/
def ISC_CNT_CLR : Nat := 0x020004
def ISC_CNT_CLR_CLEAR : Fld := ⟨0, 0⟩

/-- ISC_MTRi_RATE (spec/12_host_rings.md). -/
def ISC_MTR_RATE (i : Nat) : Nat := 0x020100 + 0x20 * i
def ISC_MTR_RATE_CIR : Fld := ⟨15, 0⟩
def ISC_MTR_RATE_PIR : Fld := ⟨31, 16⟩

/-- ISC_MTRi_BURST (spec/12_host_rings.md). -/
def ISC_MTR_BURST (i : Nat) : Nat := 0x020104 + 0x20 * i
def ISC_MTR_BURST_CBS : Fld := ⟨15, 0⟩
def ISC_MTR_BURST_PBS : Fld := ⟨31, 16⟩

/-- ISC_MTRi_Gk (spec/12_host_rings.md). -/
def ISC_MTR_G (i : Nat) (k : Nat) : Nat := 0x020108 + 0x20 * i + 0x4 * k

/-- LEG_CTRL (spec/12_host_rings.md). -/
def LEG_CTRL : Nat := 0x0D0000
def LEG_CTRL_EN : Fld := ⟨0, 0⟩
def LEG_CTRL_AS : Fld := ⟨1, 1⟩
def LEG_CTRL_WR_EN : Fld := ⟨2, 2⟩
def LEG_CTRL_WEIGHT : Fld := ⟨15, 8⟩

/-- LEG_STATUS (spec/12_host_rings.md). -/
def LEG_STATUS : Nat := 0x0D0004
def LEG_STATUS_QLEN : Fld := ⟨4, 0⟩
def LEG_STATUS_CPLS : Fld := ⟨12, 8⟩
def LEG_STATUS_LAST_NAK : Fld := ⟨16, 16⟩

/-- LEG_CNTk (spec/12_host_rings.md). -/
def LEG_CNT (k : Nat) : Nat := 0x0D0010 + 0x4 * k

/-- HIF_DUAL_CTRL (spec/13_dual_host.md). -/
def HIF_DUAL_CTRL : Nat := 0x019000
def HIF_DUAL_CTRL_MODE : Fld := ⟨1, 0⟩
def HIF_DUAL_CTRL_DIV_LIMIT : Fld := ⟨7, 4⟩
def HIF_DUAL_CTRL_PAIR_WAIT : Fld := ⟨13, 8⟩
def HIF_DUAL_CTRL_FW_LIMIT : Fld := ⟨19, 16⟩

/-- HIF_PRECEDENCE (spec/13_dual_host.md). -/
def HIF_PRECEDENCE : Nat := 0x019004
def HIF_PRECEDENCE_HOST : Fld := ⟨0, 0⟩

/-- HIF_DUAL_STATUS (spec/13_dual_host.md). -/
def HIF_DUAL_STATUS : Nat := 0x019008
def HIF_DUAL_STATUS_ROLE_A : Fld := ⟨1, 0⟩
def HIF_DUAL_STATUS_ROLE_B : Fld := ⟨3, 2⟩
def HIF_DUAL_STATUS_HOLDER : Fld := ⟨5, 4⟩
def HIF_DUAL_STATUS_OVERLAP : Fld := ⟨6, 6⟩
def HIF_DUAL_STATUS_ARMED : Fld := ⟨7, 7⟩
def HIF_DUAL_STATUS_HELD : Fld := ⟨15, 8⟩

/-- HIF_DUAL_CMD (spec/13_dual_host.md). -/
def HIF_DUAL_CMD : Nat := 0x01900C
def HIF_DUAL_CMD_PROMOTE_A : Fld := ⟨0, 0⟩
def HIF_DUAL_CMD_PROMOTE_B : Fld := ⟨1, 1⟩
def HIF_DUAL_CMD_CLR_A : Fld := ⟨2, 2⟩
def HIF_DUAL_CMD_CLR_B : Fld := ⟨3, 3⟩

/-- HIF_LEASEk (spec/13_dual_host.md). -/
def HIF_LEASE (k : Nat) : Nat := 0x019010 + 0x4 * k

/-- HIF_JRNL_HEAD (spec/13_dual_host.md). -/
def HIF_JRNL_HEAD : Nat := 0x019020
def HIF_JRNL_HEAD_INDEX : Fld := ⟨11, 0⟩

/-- HIF_JRNL_SEQ (spec/13_dual_host.md). -/
def HIF_JRNL_SEQ : Nat := 0x019024

/-- HIF_RCARDp_0 (spec/13_dual_host.md). -/
def HIF_RCARD (p : Nat) (k : Nat) : Nat := 0x019100 + 0x40 * p + 0x4 * k
def HIF_RCARD_GRADE : Fld := ⟨1, 0⟩
def HIF_RCARD_UNFIT : Fld := ⟨2, 2⟩
def HIF_RCARD_ROLE : Fld := ⟨5, 4⟩
def HIF_RCARD_LINK : Fld := ⟨6, 6⟩
def HIF_RCARD_RING_ERR : Fld := ⟨7, 7⟩
def HIF_RCARD_FW_RUN : Fld := ⟨11, 8⟩
def HIF_RCARD_DIV : Fld := ⟨15, 0⟩
def HIF_RCARD_DUP : Fld := ⟨31, 16⟩
def HIF_RCARD_FW_OK : Fld := ⟨15, 0⟩
def HIF_RCARD_FW_LAT : Fld := ⟨31, 16⟩
def HIF_RCARD_WARN : Fld := ⟨15, 0⟩
def HIF_RCARD_CLAMP : Fld := ⟨31, 16⟩
def HIF_RCARD_LMARGIN : Fld := ⟨15, 0⟩
def HIF_RCARD_NP : Fld := ⟨31, 16⟩

/-- FLT_CTRL (spec/14_faults_roll_call.md). -/
def FLT_CTRL : Nat := 0x090000
def FLT_CTRL_FORCE_EN : Fld := ⟨0, 0⟩

/-- FLT_STATUS (spec/14_faults_roll_call.md). -/
def FLT_STATUS : Nat := 0x090004
def FLT_STATUS_OPEN : Fld := ⟨8, 0⟩
def FLT_STATUS_FREFUSED : Fld := ⟨9, 9⟩

/-- FLT_LOG_HEAD (spec/14_faults_roll_call.md). -/
def FLT_LOG_HEAD : Nat := 0x090008
def FLT_LOG_HEAD_INDEX : Fld := ⟨9, 0⟩
def FLT_LOG_HEAD_EMPTY : Fld := ⟨31, 31⟩

/-- FLT_LOG_SEQ (spec/14_faults_roll_call.md). -/
def FLT_LOG_SEQ : Nat := 0x09000C

/-- FLT_FORCE_CFG (spec/14_faults_roll_call.md). -/
def FLT_FORCE_CFG : Nat := 0x090010
def FLT_FORCE_CFG_KIND : Fld := ⟨7, 0⟩
def FLT_FORCE_CFG_REPAIR : Fld := ⟨8, 8⟩

/-- FLT_FORCE_ADDR (spec/14_faults_roll_call.md). -/
def FLT_FORCE_ADDR : Nat := 0x090014
def FLT_FORCE_ADDR_ADDR : Fld := ⟨23, 0⟩

/-- FLT_PENDk (spec/14_faults_roll_call.md). -/
def FLT_PEND (k : Nat) : Nat := 0x090040 + 0x4 * k

/-- FLT_LOSTk (spec/14_faults_roll_call.md). -/
def FLT_LOST (k : Nat) : Nat := 0x090080 + 0x4 * k

/-- FLT_FORCEk (spec/14_faults_roll_call.md). -/
def FLT_FORCE (k : Nat) : Nat := 0x0900C0 + 0x4 * k

/-- FLT_ACTIVEk (spec/14_faults_roll_call.md). -/
def FLT_ACTIVE (k : Nat) : Nat := 0x090100 + 0x4 * k

/-- FLT_TMAPk (spec/14_faults_roll_call.md). -/
def FLT_TMAP (k : Nat) : Nat := 0x090200 + 0x4 * k

/-- FLT_CNTk (spec/14_faults_roll_call.md). -/
def FLT_CNT (k : Nat) : Nat := 0x090300 + 0x4 * k

/-- FLT_CNT_CLR (spec/14_faults_roll_call.md). -/
def FLT_CNT_CLR : Nat := 0x090320
def FLT_CNT_CLR_CLEAR : Fld := ⟨0, 0⟩

/-- FLT_ACTs (spec/14_faults_roll_call.md). -/
def FLT_ACT (s : Nat) : Nat := 0x090400 + 0x4 * s
def FLT_ACT_IRQ_A : Fld := ⟨0, 0⟩
def FLT_ACT_IRQ_B : Fld := ⟨1, 1⟩
def FLT_ACT_ALERT : Fld := ⟨2, 2⟩
def FLT_ACT_HALT : Fld := ⟨3, 3⟩

/-- THM_CTRL (spec/15_thermal.md). -/
def THM_CTRL : Nat := 0x080000
def THM_CTRL_GRACE : Fld := ⟨15, 0⟩
def THM_CTRL_RELEASE_HOLD : Fld := ⟨31, 16⟩

/-- THM_STATUS (spec/15_thermal.md). -/
def THM_STATUS : Nat := 0x080004
def THM_STATUS_LEVEL : Fld := ⟨1, 0⟩
def THM_STATUS_WARN : Fld := ⟨2, 2⟩
def THM_STATUS_ENFORCED : Fld := ⟨3, 3⟩
def THM_STATUS_DIE_SHUT : Fld := ⟨4, 4⟩
def THM_STATUS_PIC_SHUT : Fld := ⟨5, 5⟩
def THM_STATUS_HOTTEST : Fld := ⟨15, 8⟩
def THM_STATUS_N_SUSPECT : Fld := ⟨23, 16⟩

/-- THM_DIE_THR (spec/15_thermal.md). -/
def THM_DIE_THR : Nat := 0x080008
def THM_DIE_THR_WARN : Fld := ⟨7, 0⟩
def THM_DIE_THR_THR1 : Fld := ⟨15, 8⟩
def THM_DIE_THR_THR2 : Fld := ⟨23, 16⟩
def THM_DIE_THR_SHUT : Fld := ⟨31, 24⟩

/-- THM_PIC_THR (spec/15_thermal.md). -/
def THM_PIC_THR : Nat := 0x08000C
def THM_PIC_THR_WARN : Fld := ⟨7, 0⟩
def THM_PIC_THR_THR1 : Fld := ⟨15, 8⟩
def THM_PIC_THR_THR2 : Fld := ⟨23, 16⟩
def THM_PIC_THR_SHUT : Fld := ⟨31, 24⟩

/-- THM_HYST (spec/15_thermal.md). -/
def THM_HYST : Nat := 0x080010
def THM_HYST_DIE : Fld := ⟨7, 0⟩
def THM_HYST_PIC : Fld := ⟨15, 8⟩

/-- THM_SPACE (spec/15_thermal.md). -/
def THM_SPACE : Nat := 0x080014
def THM_SPACE_SPACE1 : Fld := ⟨15, 0⟩
def THM_SPACE_SPACE2 : Fld := ⟨31, 16⟩

/-- THM_SUSPk (spec/15_thermal.md). -/
def THM_SUSP (k : Nat) : Nat := 0x080020 + 0x4 * k

/-- THM_DIEn (spec/15_thermal.md). -/
def THM_DIE (n : Nat) : Nat := 0x080100 + 0x4 * n
def THM_DIE_EFF : Fld := ⟨15, 0⟩
def THM_DIE_RAW : Fld := ⟨31, 16⟩

/-- THM_PICt (spec/15_thermal.md). -/
def THM_PIC (t : Nat) : Nat := 0x080200 + 0x4 * t
def THM_PIC_EFF : Fld := ⟨15, 0⟩
def THM_PIC_RAW : Fld := ⟨31, 16⟩

/-- THM_CNTk (spec/15_thermal.md). -/
def THM_CNT (k : Nat) : Nat := 0x080400 + 0x4 * k

/-- THM_CNT_CLR (spec/15_thermal.md). -/
def THM_CNT_CLR : Nat := 0x080420
def THM_CNT_CLR_CLEAR : Fld := ⟨0, 0⟩

/-- GLB_ID (spec/16_boot_reset_states.md). -/
def GLB_ID : Nat := 0x000000

/-- GLB_RESET (spec/16_boot_reset_states.md). -/
def GLB_RESET : Nat := 0x000004
def GLB_RESET_WARM : Fld := ⟨0, 0⟩
def GLB_RESET_USE_STAGED : Fld := ⟨1, 1⟩
def GLB_RESET_KEY : Fld := ⟨31, 16⟩

/-- GLB_RST_CAUSE (spec/16_boot_reset_states.md). -/
def GLB_RST_CAUSE : Nat := 0x000008
def GLB_RST_CAUSE_LAST : Fld := ⟨2, 0⟩
def GLB_RST_CAUSE_COUNT : Fld := ⟨31, 16⟩

/-- GLB_WDOG (spec/16_boot_reset_states.md). -/
def GLB_WDOG : Nat := 0x000010
def GLB_WDOG_PERIOD : Fld := ⟨15, 0⟩
def GLB_WDOG_EN : Fld := ⟨16, 16⟩

/-- GLB_WDOG_KICK (spec/16_boot_reset_states.md). -/
def GLB_WDOG_KICK : Nat := 0x000014
def GLB_WDOG_KICK_KICK : Fld := ⟨0, 0⟩

/-- GLB_PSTATE (spec/16_boot_reset_states.md). -/
def GLB_PSTATE : Nat := 0x000020
def GLB_PSTATE_REQ : Fld := ⟨1, 0⟩
def GLB_PSTATE_STATE : Fld := ⟨5, 4⟩
def GLB_PSTATE_REFUSED : Fld := ⟨8, 8⟩
def GLB_PSTATE_REASON : Fld := ⟨11, 9⟩
def GLB_PSTATE_EXIT : Fld := ⟨17, 16⟩

/-- GLB_CLK (spec/16_boot_reset_states.md). -/
def GLB_CLK : Nat := 0x000030
def GLB_CLK_REFCLK_OK : Fld := ⟨0, 0⟩
def GLB_CLK_TIME_LOCK : Fld := ⟨1, 1⟩
def GLB_CLK_CORE_LOCK : Fld := ⟨2, 2⟩
def GLB_CLK_FABRIC_LOCK : Fld := ⟨3, 3⟩

/-- BOOT_STATUS (spec/16_boot_reset_states.md). -/
def BOOT_STATUS : Nat := 0x0C0000
def BOOT_STATUS_READY : Fld := ⟨0, 0⟩
def BOOT_STATUS_SLOT : Fld := ⟨1, 1⟩
def BOOT_STATUS_ROM_ONLY : Fld := ⟨2, 2⟩
def BOOT_STATUS_MODE : Fld := ⟨4, 3⟩
def BOOT_STATUS_ADDR4 : Fld := ⟨5, 5⟩
def BOOT_STATUS_STORE_STAGED : Fld := ⟨6, 6⟩
def BOOT_STATUS_H0_OK : Fld := ⟨7, 7⟩
def BOOT_STATUS_H1_OK : Fld := ⟨8, 8⟩
def BOOT_STATUS_FLASH_MHZ : Fld := ⟨23, 16⟩

/-- BOOT_SLOTk (spec/16_boot_reset_states.md). -/
def BOOT_SLOT (k : Nat) : Nat := 0x0C0004 + 0x4 * k
def BOOT_SLOT_FAIL : Fld := ⟨2, 0⟩
def BOOT_SLOT_VALID : Fld := ⟨3, 3⟩
def BOOT_SLOT_CHECK : Fld := ⟨7, 4⟩
def BOOT_SLOT_TABLE : Fld := ⟨10, 8⟩
def BOOT_SLOT_RECORD : Fld := ⟨31, 16⟩

/-- BOOT_CMD (spec/16_boot_reset_states.md). -/
def BOOT_CMD : Nat := 0x0C0010
def BOOT_CMD_CONFIRM : Fld := ⟨0, 0⟩
def BOOT_CMD_STAGE : Fld := ⟨1, 1⟩
def BOOT_CMD_JWRITE : Fld := ⟨2, 2⟩

/-- BOOT_JRNL (spec/16_boot_reset_states.md). -/
def BOOT_JRNL : Nat := 0x0C0014
def BOOT_JRNL_VALID : Fld := ⟨0, 0⟩
def BOOT_JRNL_REGION : Fld := ⟨1, 1⟩
def BOOT_JRNL_BUSY : Fld := ⟨2, 2⟩
def BOOT_JRNL_REFUSED : Fld := ⟨3, 3⟩
def BOOT_JRNL_AGE : Fld := ⟨31, 8⟩

/-- BOOT_PROG (spec/16_boot_reset_states.md). -/
def BOOT_PROG : Nat := 0x0C0020
def BOOT_PROG_PAGE : Fld := ⟨25, 8⟩
def BOOT_PROG_OP : Fld := ⟨27, 26⟩
def BOOT_PROG_GO : Fld := ⟨28, 28⟩
def BOOT_PROG_BUSY : Fld := ⟨29, 29⟩
def BOOT_PROG_DENIED : Fld := ⟨30, 30⟩

/-- BOOT_PBUFk (spec/16_boot_reset_states.md). -/
def BOOT_PBUF (k : Nat) : Nat := 0x0C0100 + 0x4 * k

/-- XBR_CTRL (spec/17_internal_map.md). -/
def XBR_CTRL : Nat := 0x0B0000
def XBR_CTRL_REMAP : Fld := ⟨0, 0⟩

/-- XBR_ERR (spec/17_internal_map.md). -/
def XBR_ERR : Nat := 0x0B0004
def XBR_ERR_MASTER : Fld := ⟨3, 0⟩
def XBR_ERR_WRITE : Fld := ⟨4, 4⟩
def XBR_ERR_VALID : Fld := ⟨31, 31⟩

/-- XBR_ERR_ADDR (spec/17_internal_map.md). -/
def XBR_ERR_ADDR : Nat := 0x0B0008
def XBR_ERR_ADDR_ADDR : Fld := ⟨23, 0⟩

/-- XBR_PARK0 (spec/17_internal_map.md). -/
def XBR_PARK (k : Nat) : Nat := 0x0B0010 + 0x4 * k

/-- XBR_SLICEm (spec/17_internal_map.md). -/
def XBR_SLICE (m : Nat) : Nat := 0x0B0040 + 0x4 * m
def XBR_SLICE_SLICE : Fld := ⟨10, 0⟩

/-- XBR_CNTk (spec/17_internal_map.md). -/
def XBR_CNT (k : Nat) : Nat := 0x0B0100 + 0x4 * k

/-- XBR_CNT_CLR (spec/17_internal_map.md). -/
def XBR_CNT_CLR : Nat := 0x0B0120
def XBR_CNT_CLR_CLEAR : Fld := ⟨0, 0⟩

/-- HIF_MSIXv_ADDR_LO (spec/12_host_rings.md). -/
def HIF_MSIX_ADDR_LO (p : Nat) (v : Nat) : Nat := 0x012000 + 0x4000 * p + 0x10 * v
def HIF_MSIX_ADDR_LO_ADDR : Fld := ⟨31, 2⟩

/-- HIF_MSIXv_ADDR_HI (spec/12_host_rings.md). -/
def HIF_MSIX_ADDR_HI (p : Nat) (v : Nat) : Nat := 0x012004 + 0x4000 * p + 0x10 * v

/-- HIF_MSIXv_DATA (spec/12_host_rings.md). -/
def HIF_MSIX_DATA (p : Nat) (v : Nat) : Nat := 0x012008 + 0x4000 * p + 0x10 * v

/-- HIF_MSIXv_CTRL (spec/12_host_rings.md). -/
def HIF_MSIX_CTRL (p : Nat) (v : Nat) : Nat := 0x01200C + 0x4000 * p + 0x10 * v
def HIF_MSIX_CTRL_MASK : Fld := ⟨0, 0⟩

/-- HIF_MSIX_PBAk (spec/12_host_rings.md). -/
def HIF_MSIX_PBA (p : Nat) (k : Nat) : Nat := 0x013000 + 0x4000 * p + 0x4 * k

end Reg

/-- The register tables of the BEL block. -/
def regRowsBel : List RegRow := [
  /- BEL_CTRL -/ ⟨0x050000, [], [⟨3, 0, .rw, 0x8, none, none⟩, ⟨8, 8, .rw, 0x1, none, none⟩]⟩,
  /- BEL_STATUS -/ ⟨0x050004, [], [⟨0, 0, .ro, 0x0, (some 0x0), none⟩, ⟨1, 1, .ro, 0x0, none, none⟩, ⟨3, 2, .ro, 0x2, none, none⟩, ⟨28, 16, .ro, 0x0, none, none⟩]⟩,
  /- BEL_SPACING -/ ⟨0x050008, [], [⟨15, 0, .rw, 0xc8, none, none⟩, ⟨31, 16, .ro, 0xc8, none, none⟩]⟩,
  /- BEL_KICK -/ ⟨0x05000C, [], [⟨11, 0, .rw, 0x258, none, none⟩, ⟨27, 16, .rw, 0x96, none, none⟩]⟩,
  /- BEL_LAND -/ ⟨0x050010, [], [⟨11, 0, .rw, 0x100, none, none⟩, ⟨27, 16, .rw, 0x190, none, none⟩]⟩,
  /- BEL_NOW -/ ⟨0x050014, [], [⟨15, 0, .rw, 0x3e8, none, none⟩]⟩,
  /- BEL_GEN -/ ⟨0x050018, [], [⟨31, 0, .ro, 0x0, none, none⟩]⟩,
  /- BEL_INVALk -/ ⟨0x050020, [(0x4, 7)], [⟨31, 0, .ro, 0x0, none, none⟩]⟩,
  /- BEL_REFUSEk -/ ⟨0x050040, [(0x4, 10)], [⟨31, 0, .ro, 0x0, none, none⟩]⟩,
  /- BEL_OUTCOMEk -/ ⟨0x050070, [(0x4, 4)], [⟨31, 0, .ro, 0x0, none, none⟩]⟩,
  /- BEL_CNT_CLR -/ ⟨0x050080, [], [⟨0, 0, .wo, 0x0, (some 0x0), (some 0x0)⟩, ⟨1, 1, .wo, 0x0, (some 0x0), (some 0x0)⟩, ⟨2, 2, .wo, 0x0, (some 0x0), (some 0x0)⟩]⟩,
  /- BEL_REPORT_LAST -/ ⟨0x050084, [], [⟨7, 0, .ro, 0x0, none, none⟩, ⟨8, 8, .ro, 0x0, none, none⟩]⟩,
  /- BEL_RGRPg_MASKw -/ ⟨0x050400, [(0x40, 8), (0x4, 16)], [⟨31, 0, .rw, 0x0, none, none⟩]⟩]

/-- The register tables of the RTS block. -/
def regRowsRts : List RegRow := [
  /- RTS_CTRL -/ ⟨0x060000, [], [⟨0, 0, .rw, 0x1, none, none⟩]⟩,
  /- RTS_STATUS -/ ⟨0x060004, [], [⟨0, 0, .ro, 0x1, none, none⟩, ⟨1, 1, .ro, 0x1, none, none⟩, ⟨2, 2, .ro, 0x0, (some 0x0), none⟩, ⟨3, 3, .ro, 0x0, (some 0x0), none⟩, ⟨4, 4, .ro, 0x0, (some 0x0), none⟩]⟩,
  /- RTS_IMG_GEN -/ ⟨0x060008, [], [⟨31, 0, .ro, 0x0, none, none⟩]⟩,
  /- RTS_CNTk -/ ⟨0x060020, [(0x4, 10)], [⟨31, 0, .ro, 0x0, none, none⟩]⟩,
  /- RTS_CNT_CLR -/ ⟨0x060050, [], [⟨0, 0, .wo, 0x0, (some 0x0), (some 0x0)⟩]⟩,
  /- RTS_LOCKk -/ ⟨0x060100, [(0x4, 32)], [⟨31, 0, .ro, 0x0, none, none⟩]⟩,
  /- RTS_LOADEDk -/ ⟨0x060200, [(0x4, 32)], [⟨31, 0, .ro, 0x0, none, none⟩]⟩]

/-- The register tables of the DRV block. -/
def regRowsDrv : List RegRow := [
  /- DRV_CTRL -/ ⟨0x100000, [(0x1000, 96)], [⟨0, 0, .w1s, 0x0, none, none⟩, ⟨1, 1, .w1s, 0x0, none, none⟩, ⟨2, 2, .rw, 0x0, none, none⟩]⟩,
  /- DRV_STATUS -/ ⟨0x100004, [(0x1000, 96)], [⟨2, 0, .ro, 0x0, none, none⟩, ⟨6, 4, .ro, 0x0, none, none⟩, ⟨8, 8, .ro, 0x0, none, none⟩, ⟨9, 9, .ro, 0x0, (some 0x0), none⟩, ⟨10, 10, .ro, 0x0, (some 0x0), none⟩, ⟨23, 16, .ro, 0x0, none, none⟩]⟩,
  /- DRV_ARM -/ ⟨0x100008, [(0x1000, 96)], [⟨0, 0, .ro, 0x0, (some 0x0), none⟩, ⟨3, 1, .ro, 0x0, (some 0x0), none⟩, ⟨4, 4, .ro, 0x0, (some 0x0), none⟩]⟩,
  /- DRV_ARM_GEN -/ ⟨0x10000C, [(0x1000, 96)], [⟨31, 0, .ro, 0x0, (some 0x0), none⟩]⟩,
  /- DRV_RETRY_GEN -/ ⟨0x100010, [(0x1000, 96)], [⟨31, 0, .ro, 0x0, (some 0x0), none⟩]⟩,
  /- DRV_SLEW -/ ⟨0x100014, [(0x1000, 96)], [⟨11, 0, .rw, 0x3f, none, none⟩, ⟨23, 16, .rw, 0x0, none, none⟩]⟩,
  /- DRV_RAIL -/ ⟨0x100018, [(0x1000, 96)], [⟨7, 0, .rw, 0x32, none, none⟩, ⟨15, 8, .rw, 0x4b, none, none⟩]⟩,
  /- DRV_LOAD -/ ⟨0x10001C, [(0x1000, 96)], [⟨0, 0, .wo, 0x0, (some 0x0), (some 0x0)⟩]⟩,
  /- DRV_SLOT_ADDR -/ ⟨0x100020, [(0x1000, 96)], [⟨3, 0, .rw, 0x0, none, none⟩, ⟨27, 16, .rw, 0x0, none, none⟩]⟩,
  /- DRV_SLOT_DATA -/ ⟨0x100024, [(0x1000, 96)], [⟨31, 0, .ro, 0x0, none, none⟩]⟩,
  /- DRV_TEST -/ ⟨0x100028, [(0x1000, 96)], [⟨6, 0, .rw, 0x0, none, none⟩, ⟨8, 8, .wo, 0x0, (some 0x0), (some 0x0)⟩, ⟨16, 16, .ro, 0x0, (some 0x0), none⟩, ⟨18, 17, .ro, 0x0, none, none⟩]⟩,
  /- DRV_TEST_RES -/ ⟨0x10002C, [(0x1000, 96)], [⟨15, 0, .ro, 0x0, none, none⟩, ⟨21, 16, .ro, 0x0, none, none⟩]⟩,
  /- DRV_FAULTk -/ ⟨0x100040, [(0x1000, 96), (0x4, 4)], [⟨31, 0, .w1c, 0x0, none, none⟩]⟩,
  /- DRV_FVALk -/ ⟨0x100050, [(0x1000, 96), (0x4, 4)], [⟨31, 0, .rw, 0x0, none, none⟩]⟩,
  /- DRV_CNTk -/ ⟨0x100080, [(0x1000, 96), (0x4, 10)], [⟨31, 0, .ro, 0x0, none, none⟩]⟩,
  /- DRV_CNT_CLR -/ ⟨0x1000B0, [(0x1000, 96)], [⟨0, 0, .wo, 0x0, (some 0x0), (some 0x0)⟩]⟩,
  /- DRV_CHc_CODE -/ ⟨0x100400, [(0x1000, 96), (0x4, 128)], [⟨15, 0, .rw, 0x0, none, none⟩, ⟨16, 16, .rw, 0x0, none, none⟩, ⟨17, 17, .rw, 0x0, none, none⟩]⟩,
  /- DRV_CHc_STAT -/ ⟨0x100600, [(0x1000, 96), (0x4, 128)], [⟨15, 0, .ro, 0x0, none, none⟩, ⟨18, 16, .ro, 0x7, none, none⟩, ⟨19, 19, .ro, 0x0, none, none⟩, ⟨23, 20, .ro, 0x0, none, none⟩, ⟨24, 24, .ro, 0x0, none, none⟩, ⟨25, 25, .ro, 0x0, none, none⟩, ⟨26, 26, .ro, 0x0, (some 0x0), none⟩]⟩,
  /- DRV_CHc_PARK -/ ⟨0x100800, [(0x1000, 96), (0x4, 128)], [⟨15, 0, .rw, 0x0, none, none⟩, ⟨16, 16, .rw, 0x0, none, none⟩]⟩,
  /- DRV_CHc_RES -/ ⟨0x100A00, [(0x1000, 96), (0x4, 128)], [⟨15, 0, .ro, 0x0, none, none⟩, ⟨31, 16, .ro, 0xffff, none, none⟩]⟩,
  /- DRV_CHc_TH0 -/ ⟨0x100C00, [(0x1000, 96), (0x8, 128)], [⟨15, 0, .ro, 0x0, none, none⟩, ⟨31, 16, .ro, 0x0, none, none⟩]⟩,
  /- DRV_CHc_TH1 -/ ⟨0x100C04, [(0x1000, 96), (0x8, 128)], [⟨15, 0, .ro, 0x0, none, none⟩, ⟨31, 16, .ro, 0x0, none, none⟩]⟩]

/-- The register tables of the MON block. -/
def regRowsMon : List RegRow := [
  /- MON_CTRL -/ ⟨0x200000, [(0x1000, 96)], [⟨0, 0, .w1s, 0x0, none, none⟩]⟩,
  /- MON_STATUS -/ ⟨0x200004, [(0x1000, 96)], [⟨0, 0, .ro, 0x0, none, none⟩, ⟨3, 1, .ro, 0x0, none, none⟩, ⟨15, 8, .ro, 0xff, none, none⟩, ⟨19, 16, .ro, 0x0, (some 0x0), none⟩, ⟨20, 20, .ro, 0x0, (some 0x0), none⟩, ⟨21, 21, .ro, 0x1, none, none⟩]⟩,
  /- MON_AVG -/ ⟨0x200008, [(0x1000, 96)], [⟨7, 0, .rw, 0xf, none, none⟩, ⟨11, 8, .rw, 0x4, none, none⟩, ⟨18, 16, .rw, 0x4, none, none⟩]⟩,
  /- MON_THR -/ ⟨0x20000C, [(0x1000, 96)], [⟨7, 0, .rw, 0x32, none, none⟩, ⟨15, 8, .rw, 0x19, none, none⟩, ⟨23, 16, .rw, 0x20, none, none⟩, ⟨31, 24, .rw, 0x4, none, none⟩]⟩,
  /- MON_DARK -/ ⟨0x200010, [(0x1000, 96)], [⟨0, 0, .rw, 0x1, none, none⟩, ⟨15, 8, .rw, 0x5a, none, none⟩, ⟨31, 16, .ro, 0x0, none, none⟩]⟩,
  /- MON_DIAG -/ ⟨0x200014, [(0x1000, 96)], [⟨6, 0, .rw, 0x0, none, none⟩, ⟨7, 7, .wo, 0x0, (some 0x0), (some 0x0)⟩, ⟨8, 8, .ro, 0x0, (some 0x0), none⟩, ⟨31, 16, .ro, 0x0, none, none⟩]⟩,
  /- MON_WATCHq -/ ⟨0x200020, [(0x1000, 96), (0x4, 4)], [⟨6, 0, .ro, 0x0, (some 0x0), none⟩, ⟨8, 8, .ro, 0x0, (some 0x0), none⟩, ⟨9, 9, .ro, 0x0, none, none⟩, ⟨12, 10, .ro, 0x0, (some 0x0), none⟩]⟩,
  /- MON_EXITk -/ ⟨0x200040, [(0x1000, 96), (0x4, 4)], [⟨31, 0, .w1c, 0x0, none, none⟩]⟩,
  /- MON_LIGHTk -/ ⟨0x200050, [(0x1000, 96), (0x4, 2)], [⟨31, 0, .ro, 0x0, none, none⟩]⟩,
  /- MON_ADCk_CAL -/ ⟨0x200060, [(0x1000, 96), (0x4, 8)], [⟨11, 0, .ro, 0x0, none, none⟩, ⟨27, 12, .ro, 0x0, none, none⟩, ⟨28, 28, .ro, 0x0, none, none⟩]⟩,
  /- MON_CNTk -/ ⟨0x200080, [(0x1000, 96), (0x4, 8)], [⟨31, 0, .ro, 0x0, none, none⟩]⟩,
  /- MON_CNT_CLR -/ ⟨0x2000A0, [(0x1000, 96)], [⟨0, 0, .wo, 0x0, (some 0x0), (some 0x0)⟩]⟩,
  /- MON_INj_CFG -/ ⟨0x200400, [(0x1000, 96), (0x4, 128)], [⟨2, 0, .rw, 0x0, none, none⟩, ⟨13, 4, .rw, 0x0, none, none⟩, ⟨14, 14, .ro, 0x1, none, none⟩, ⟨16, 16, .rw, 0x1, none, none⟩, ⟨17, 17, .rw, 0x0, none, none⟩, ⟨19, 18, .rw, 0x1, none, none⟩]⟩,
  /- MON_INj_WIN -/ ⟨0x200600, [(0x1000, 96), (0x4, 128)], [⟨11, 0, .rw, 0x0, none, none⟩, ⟨27, 16, .rw, 0xfff, none, none⟩, ⟨29, 28, .ro, 0x1, none, none⟩]⟩,
  /- MON_INj_AVG -/ ⟨0x200800, [(0x1000, 96), (0x4, 128)], [⟨19, 0, .ro, 0x0, none, none⟩, ⟨20, 20, .ro, 0x0, none, none⟩, ⟨21, 21, .ro, 0x0, none, none⟩, ⟨22, 22, .ro, 0x0, none, none⟩, ⟨23, 23, .ro, 0x0, none, none⟩, ⟨31, 24, .ro, 0x0, none, none⟩]⟩,
  /- MON_INj_LAST -/ ⟨0x200A00, [(0x1000, 96), (0x4, 128)], [⟨15, 0, .ro, 0x0, none, none⟩, ⟨23, 16, .ro, 0x0, none, none⟩]⟩]

/-- The register tables of the CAL block. -/
def regRowsCal : List RegRow := [
  /- CAL_ADC_CMD -/ ⟨0x0A0800, [], [⟨9, 0, .rw, 0x0, none, none⟩, ⟨10, 10, .rw, 0x0, none, none⟩, ⟨11, 11, .wo, 0x0, (some 0x0), (some 0x0)⟩]⟩,
  /- CAL_ADC_STATUS -/ ⟨0x0A0804, [], [⟨0, 0, .ro, 0x0, none, none⟩, ⟨1, 1, .rws, 0x0, none, none⟩, ⟨2, 2, .ro, 0x0, none, none⟩, ⟨13, 4, .ro, 0x3ff, none, none⟩, ⟨25, 16, .ro, 0x0, none, none⟩]⟩,
  /- CAL_CTRL -/ ⟨0x0A0000, [], [⟨0, 0, .rw, 0x1, none, none⟩, ⟨1, 1, .rw, 0x1, none, none⟩, ⟨2, 2, .rw, 0x1, none, none⟩, ⟨3, 3, .rw, 0x1, none, none⟩, ⟨4, 4, .rw, 0x1, none, none⟩, ⟨10, 8, .rw, 0x2, none, none⟩, ⟨12, 12, .rw, 0x1, none, none⟩]⟩,
  /- CAL_TRIG -/ ⟨0x0A0004, [], [⟨15, 0, .rw, 0x32, none, none⟩, ⟨31, 16, .rw, 0x64, none, none⟩]⟩,
  /- CAL_SWEEP -/ ⟨0x0A0008, [], [⟨11, 0, .rw, 0x800, none, none⟩, ⟨23, 16, .rw, 0xa, none, none⟩, ⟨31, 24, .rw, 0x40, none, none⟩]⟩,
  /- CAL_AGE -/ ⟨0x0A000C, [], [⟨15, 0, .rw, 0x3c, none, none⟩, ⟨31, 16, .rw, 0xa, none, none⟩]⟩,
  /- CAL_STATUS -/ ⟨0x0A0010, [], [⟨0, 0, .ro, 0x0, (some 0x0), none⟩, ⟨1, 1, .ro, 0x0, none, none⟩, ⟨14, 8, .ro, 0x0, (some 0x0), none⟩, ⟨24, 16, .ro, 0x0, (some 0x0), none⟩]⟩,
  /- CAL_LAST_SWAP -/ ⟨0x0A0014, [], [⟨31, 0, .ro, 0x0, none, none⟩]⟩,
  /- CAL_SWAP_TILESk -/ ⟨0x0A0020, [(0x4, 3)], [⟨31, 0, .ro, 0x0, none, none⟩]⟩,
  /- CAL_CNTk -/ ⟨0x0A0040, [(0x4, 8)], [⟨31, 0, .ro, 0x0, none, none⟩]⟩,
  /- CAL_CNT_CLR -/ ⟨0x0A0060, [], [⟨0, 0, .wo, 0x0, (some 0x0), (some 0x0)⟩]⟩]

/-- The register tables of the TRK block. -/
def regRowsTrk : List RegRow := [
  /- TRK_CTRL -/ ⟨0x300000, [(0x4000, 100)], [⟨0, 0, .rw, 0x0, (some 0x0), none⟩]⟩,
  /- TRK_STATUS -/ ⟨0x300004, [(0x4000, 100)], [⟨1, 0, .ro, 0x0, (some 0x0), none⟩, ⟨7, 4, .ro, 0x0, (some 0x0), none⟩, ⟨8, 8, .ro, 0x0, (some 0x0), none⟩, ⟨9, 9, .ro, 0x0, (some 0x0), none⟩, ⟨23, 16, .ro, 0xff, none, none⟩, ⟨24, 24, .ro, 0x0, none, none⟩]⟩,
  /- TRK_PAGE -/ ⟨0x300008, [(0x4000, 100)], [⟨2, 0, .rw, 0x0, none, none⟩, ⟨6, 4, .rw, 0x0, none, none⟩]⟩,
  /- TRK_PC -/ ⟨0x30000C, [(0x4000, 100)], [⟨14, 0, .ro, 0x0, (some 0x0), none⟩]⟩,
  /- TRK_CSR -/ ⟨0x300010, [(0x4000, 100)], [⟨15, 0, .ro, 0x0, (some 0x0), none⟩, ⟨16, 16, .w1c, 0x0, (some 0x0), none⟩, ⟨17, 17, .w1c, 0x0, (some 0x0), none⟩, ⟨18, 18, .w1c, 0x0, (some 0x0), none⟩, ⟨21, 19, .ro, 0x0, (some 0x0), none⟩, ⟨23, 22, .ro, 0x0, (some 0x1), none⟩]⟩,
  /- TRK_FAULT -/ ⟨0x300014, [(0x4000, 100)], [⟨2, 0, .ro, 0x0, none, none⟩, ⟨30, 16, .ro, 0x0, none, none⟩]⟩,
  /- TRK_EVPEND -/ ⟨0x300018, [(0x4000, 100)], [⟨8, 1, .ro, 0x0, (some 0x0), none⟩]⟩,
  /- TRK_CNTk -/ ⟨0x300040, [(0x4000, 100), (0x4, 8)], [⟨31, 0, .ro, 0x0, none, none⟩]⟩,
  /- TRK_CNT_CLR -/ ⟨0x300060, [(0x4000, 100)], [⟨0, 0, .wo, 0x0, (some 0x0), (some 0x0)⟩]⟩]

/-- The register tables of the PWR block. -/
def regRowsPwr : List RegRow := [
  /- PWR_CTRL -/ ⟨0x070000, [], [⟨7, 0, .rw, 0x40, none, none⟩, ⟨15, 8, .rw, 0xa, none, none⟩]⟩,
  /- PWR_STATUS -/ ⟨0x070004, [], [⟨4, 0, .ro, 0x0, none, none⟩, ⟨12, 8, .ro, 0x0, none, none⟩, ⟨17, 16, .ro, 0x0, none, none⟩, ⟨18, 18, .ro, 0x0, none, none⟩, ⟨19, 19, .ro, 0x0, none, none⟩]⟩,
  /- PWR_HP -/ ⟨0x070008, [], [⟨15, 0, .rw, 0x708, none, none⟩]⟩,
  /- PWR_POOL -/ ⟨0x07000C, [], [⟨15, 0, .rw, 0xbb8, none, none⟩, ⟨31, 16, .rw, 0x258, none, none⟩]⟩,
  /- PWR_ENERGY -/ ⟨0x070010, [], [⟨15, 0, .rw, 0xc8, none, none⟩]⟩,
  /- PWR_STAND -/ ⟨0x070014, [], [⟨7, 0, .rw, 0x19, none, none⟩, ⟨15, 8, .rw, 0x30, none, none⟩, ⟨31, 16, .rw, 0x180, none, none⟩]⟩,
  /- PWR_KICK -/ ⟨0x070018, [], [⟨15, 0, .rw, 0x4b0, none, none⟩, ⟨31, 16, .rw, 0x5dc, none, none⟩]⟩,
  /- PWR_KICK2 -/ ⟨0x07001C, [], [⟨7, 0, .rw, 0xa, none, none⟩, ⟨15, 8, .rw, 0xa, none, none⟩]⟩,
  /- PWR_RAILk_CFG -/ ⟨0x070040, [(0x10, 5)], [⟨0, 0, .rw, 0x0, none, none⟩, ⟨31, 16, .rw, 0x18f, none, none⟩]⟩,
  /- PWR_RAIL0_TGT -/ ⟨0x070044, [], [⟨15, 0, .rw, 0xc8, none, none⟩, ⟨31, 16, .rw, 0xc8, none, none⟩]⟩,
  /- PWR_RAIL1_TGT -/ ⟨0x070054, [], [⟨15, 0, .rw, 0x190, none, none⟩, ⟨31, 16, .rw, 0x190, none, none⟩]⟩,
  /- PWR_RAIL2_TGT -/ ⟨0x070064, [], [⟨15, 0, .rw, 0x258, none, none⟩, ⟨31, 16, .rw, 0x258, none, none⟩]⟩,
  /- PWR_RAIL3_TGT -/ ⟨0x070074, [], [⟨15, 0, .rw, 0x384, none, none⟩, ⟨31, 16, .rw, 0x384, none, none⟩]⟩,
  /- PWR_RAIL4_TGT -/ ⟨0x070084, [], []⟩,
  /- PWR_RAILk_MEAS -/ ⟨0x070048, [(0x10, 5)], [⟨15, 0, .ro, 0x0, none, none⟩, ⟨31, 16, .ro, 0x0, none, none⟩]⟩,
  /- PWR_RAILk_CMD -/ ⟨0x07004C, [(0x10, 5)], [⟨0, 0, .wo, 0x0, (some 0x0), (some 0x0)⟩]⟩,
  /- PWR_PWMn_CTRL -/ ⟨0x070100, [(0x20, 24)], [⟨0, 0, .rw, 0x0, none, none⟩, ⟨1, 1, .rw, 0x1, none, none⟩, ⟨2, 2, .rw, 0x0, none, none⟩, ⟨6, 4, .rw, 0x7, none, none⟩]⟩,
  /- PWR_PWMn_PER -/ ⟨0x070104, [(0x20, 24)], [⟨15, 0, .rw, 0x18f, none, none⟩]⟩,
  /- PWR_PWMn_CMP -/ ⟨0x070108, [(0x20, 24)], [⟨15, 0, .rw, 0x0, none, none⟩]⟩,
  /- PWR_PWMn_DT -/ ⟨0x07010C, [(0x20, 24)], [⟨5, 0, .rw, 0x8, none, none⟩, ⟨13, 8, .rw, 0x8, none, none⟩]⟩,
  /- PWR_PWMn_COMMIT -/ ⟨0x070110, [(0x20, 24)], [⟨0, 0, .wo, 0x0, (some 0x0), (some 0x0)⟩]⟩,
  /- PWR_PWMn_STAT -/ ⟨0x070114, [(0x20, 24)], [⟨0, 0, .w1c, 0x0, none, none⟩, ⟨1, 1, .w1c, 0x0, none, none⟩, ⟨2, 2, .ro, 0x0, none, none⟩, ⟨3, 3, .ro, 0x0, none, none⟩, ⟨15, 8, .ro, 0x0, none, none⟩]⟩,
  /- PWR_PWMn_ACT -/ ⟨0x070118, [(0x20, 24)], [⟨15, 0, .ro, 0x18f, none, none⟩, ⟨31, 16, .ro, 0x0, none, none⟩]⟩,
  /- PWR_CNTk -/ ⟨0x070400, [(0x4, 8)], [⟨31, 0, .ro, 0x0, none, none⟩]⟩,
  /- PWR_CNT_CLR -/ ⟨0x070420, [], [⟨0, 0, .wo, 0x0, (some 0x0), (some 0x0)⟩]⟩]

/-- The register tables of the TMU block. -/
def regRowsTmu : List RegRow := [
  /- TMU_CTRL -/ ⟨0x030000, [], [⟨2, 0, .rw, 0x7, none, none⟩, ⟨3, 3, .rw, 0x1, none, none⟩, ⟨15, 8, .rw, 0xa, none, none⟩]⟩,
  /- TMU_STATUS -/ ⟨0x030004, [], [⟨2, 0, .ro, 0x0, none, none⟩, ⟨3, 3, .rws, 0x0, none, none⟩, ⟨6, 4, .ro, 0x7, none, none⟩, ⟨7, 7, .ro, 0x0, none, none⟩, ⟨13, 8, .ro, 0x0, none, none⟩, ⟨14, 14, .ro, 0x0, none, none⟩]⟩,
  /- TMU_CMD -/ ⟨0x030008, [], [⟨0, 0, .wo, 0x0, (some 0x0), (some 0x0)⟩, ⟨1, 1, .wo, 0x0, (some 0x0), (some 0x0)⟩, ⟨2, 2, .wo, 0x0, (some 0x0), (some 0x0)⟩, ⟨3, 3, .wo, 0x0, (some 0x0), (some 0x0)⟩, ⟨4, 4, .wo, 0x0, (some 0x0), (some 0x0)⟩]⟩,
  /- TMU_CMD_STATUS -/ ⟨0x03000C, [], [⟨1, 0, .ro, 0x0, none, none⟩]⟩,
  /- TMU_NOWk -/ ⟨0x030010, [(0x4, 4)], [⟨31, 0, .ro, 0x0, none, none⟩]⟩,
  /- TMU_SETk -/ ⟨0x030020, [(0x4, 3)], [⟨31, 0, .rw, 0x0, none, none⟩]⟩,
  /- TMU_EPOCH -/ ⟨0x03002C, [], [⟨15, 0, .ro, 0x0, none, none⟩, ⟨27, 16, .rw, 0x0, none, none⟩, ⟨28, 28, .rw, 0x0, none, none⟩]⟩,
  /- TMU_SRC_PRIO -/ ⟨0x030030, [], [⟨23, 0, .rw, 0x542222, none, none⟩]⟩,
  /- TMU_SYNCE -/ ⟨0x030034, [], [⟨1, 0, .rw, 0x0, none, none⟩, ⟨15, 8, .rw, 0x78, none, none⟩, ⟨23, 16, .rw, 0x1e, none, none⟩]⟩,
  /- TMU_SERVO -/ ⟨0x030038, [], [⟨7, 0, .rw, 0xa0, none, none⟩, ⟨15, 8, .rw, 0x66, none, none⟩, ⟨23, 16, .rw, 0x14, none, none⟩, ⟨31, 24, .rw, 0x19, none, none⟩]⟩,
  /- TMU_STEP -/ ⟨0x03003C, [], [⟨15, 0, .rw, 0x32, none, none⟩]⟩,
  /- TMU_SVk -/ ⟨0x030040, [(0x4, 2)], [⟨31, 0, .ro, 0x0, none, none⟩]⟩,
  /- TMU_HO -/ ⟨0x030048, [], [⟨23, 0, .ro, 0x0, none, none⟩, ⟨31, 24, .rw, 0x3c, none, none⟩]⟩,
  /- TMU_HO_ERR -/ ⟨0x03004C, [], [⟨31, 0, .ro, 0x0, none, none⟩]⟩,
  /- TMU_OSC -/ ⟨0x030050, [], [⟨15, 0, .rw, 0x3e8, none, none⟩, ⟨31, 16, .rw, 0x64, none, none⟩]⟩,
  /- TMU_PPSm_CFG -/ ⟨0x030060, [(0x4, 2)], [⟨0, 0, .rw, 0x0, none, none⟩, ⟨1, 1, .rw, 0x0, none, none⟩, ⟨31, 16, .rw, 0x0, none, none⟩]⟩,
  /- TMU_PPSm_SEC -/ ⟨0x030068, [(0x4, 2)], [⟨31, 0, .rw, 0x0, none, none⟩]⟩,
  /- TMU_PPS_OUT -/ ⟨0x030070, [], [⟨0, 0, .rw, 0x0, none, none⟩, ⟨1, 1, .rw, 0x0, none, none⟩, ⟨23, 8, .rw, 0x64, none, none⟩]⟩,
  /- TMU_PPS_TRIM -/ ⟨0x030074, [], [⟨15, 0, .rw, 0x0, none, none⟩]⟩,
  /- TMU_BELLn_CFG -/ ⟨0x030080, [(0x8, 8)], [⟨2, 0, .rw, 0x0, none, none⟩, ⟨3, 3, .rw, 0x0, none, none⟩, ⟨19, 8, .rw, 0x0, none, none⟩, ⟨31, 20, .rw, 0x5, none, none⟩]⟩,
  /- TMU_BELLn_TRIM -/ ⟨0x030084, [(0x8, 8)], [⟨15, 0, .rw, 0x0, none, none⟩, ⟨16, 16, .w1c, 0x0, none, none⟩]⟩,
  /- TMU_RCk -/ ⟨0x0300C0, [(0x4, 3)], [⟨31, 0, .rw, 0x0, none, none⟩]⟩,
  /- TMU_RC_PERIOD -/ ⟨0x0300CC, [], [⟨31, 0, .rw, 0x0, none, none⟩]⟩,
  /- TMU_RC_STATUS -/ ⟨0x0300D0, [], [⟨0, 0, .ro, 0x0, none, none⟩, ⟨1, 1, .ro, 0x0, none, none⟩, ⟨31, 16, .ro, 0x0, none, none⟩]⟩,
  /- TMU_CNTk -/ ⟨0x030100, [(0x4, 8)], [⟨31, 0, .ro, 0x0, none, none⟩]⟩,
  /- TMU_CNT_CLR -/ ⟨0x030120, [], [⟨0, 0, .wo, 0x0, (some 0x0), (some 0x0)⟩]⟩]

/-- The register tables of the ETH block. -/
def regRowsEth : List RegRow := [
  /- ETH_CTRL -/ ⟨0x040000, [(0x1000, 4)], [⟨0, 0, .rw, 0x0, none, none⟩, ⟨2, 1, .rw, 0x0, none, none⟩, ⟨3, 3, .rw, 0x1, none, none⟩, ⟨4, 4, .rw, 0x1, none, none⟩, ⟨5, 5, .rw, 0x0, none, none⟩, ⟨6, 6, .rw, 0x0, none, none⟩, ⟨7, 7, .rw, 0x0, none, none⟩]⟩,
  /- ETH_STATUS -/ ⟨0x040004, [(0x1000, 4)], [⟨0, 0, .ro, 0x0, none, none⟩, ⟨1, 1, .ro, 0x0, none, none⟩, ⟨3, 2, .ro, 0x0, none, none⟩, ⟨4, 4, .ro, 0x0, none, none⟩, ⟨5, 5, .ro, 0x0, none, none⟩, ⟨11, 8, .ro, 0x0, none, none⟩, ⟨12, 12, .ro, 0x0, none, none⟩, ⟨13, 13, .ro, 0x0, none, none⟩]⟩,
  /- ETH_MAC0 -/ ⟨0x040008, [(0x1000, 4)], [⟨31, 0, .rw, 0x0, none, none⟩]⟩,
  /- ETH_MAC1 -/ ⟨0x04000C, [(0x1000, 4)], [⟨15, 0, .rw, 0x0, none, none⟩]⟩,
  /- ETH_VLAN -/ ⟨0x040010, [(0x1000, 4)], [⟨11, 0, .rw, 0x0, none, none⟩, ⟨12, 12, .rw, 0x0, none, none⟩, ⟨15, 13, .rw, 0x7, none, none⟩, ⟨18, 16, .rw, 0x5, none, none⟩, ⟨21, 19, .rw, 0x0, none, none⟩]⟩,
  /- ETH_IPV4 -/ ⟨0x040014, [(0x1000, 4)], [⟨31, 0, .rw, 0x0, none, none⟩]⟩,
  /- ETH_PTP_CFG -/ ⟨0x040018, [(0x1000, 4)], [⟨1, 0, .rw, 0x0, none, none⟩, ⟨2, 2, .rw, 0x0, none, none⟩, ⟨3, 3, .rw, 0x0, none, none⟩, ⟨5, 4, .rw, 0x0, none, none⟩, ⟨6, 6, .rw, 0x0, none, none⟩, ⟨15, 8, .rw, 0xfc, none, none⟩, ⟨23, 16, .rw, 0xfc, none, none⟩, ⟨31, 24, .rw, 0x80, none, none⟩]⟩,
  /- ETH_TSk (0-2) -/ ⟨0x04001C, [(0x1000, 4), (0x4, 3)], [⟨31, 0, .rw, 0x0, none, none⟩]⟩,
  /- ETH_TSk (3-4) -/ ⟨0x040028, [(0x1000, 4), (0x4, 2)], [⟨31, 0, .ro, 0x0, none, none⟩]⟩,
  /- ETH_SHAPE -/ ⟨0x040030, [(0x1000, 4)], [⟨15, 0, .rw, 0x3e8, none, none⟩, ⟨31, 16, .rw, 0x30, none, none⟩]⟩,
  /- ETH_CLASS -/ ⟨0x040034, [(0x1000, 4)], [⟨15, 0, .rw, 0x88b5, none, none⟩, ⟨26, 16, .rw, 0x5ee, none, none⟩]⟩,
  /- ETH_CNTk -/ ⟨0x040080, [(0x1000, 4), (0x4, 12)], [⟨31, 0, .ro, 0x0, none, none⟩]⟩,
  /- ETH_CNT_CLR -/ ⟨0x0400C0, [(0x1000, 4)], [⟨0, 0, .wo, 0x0, (some 0x0), (some 0x0)⟩]⟩,
  /- ETH_PTP_GLB -/ ⟨0x04F000, [], [⟨7, 0, .rw, 0x0, none, none⟩, ⟨15, 8, .rw, 0x80, none, none⟩, ⟨23, 16, .rw, 0x80, none, none⟩, ⟨31, 24, .rw, 0xf8, none, none⟩]⟩]

/-- The register tables of the HIF block. -/
def regRowsHif0 : List RegRow := [
  /- HIF_PSTATUS -/ ⟨0x010000, [(0x4000, 2)], [⟨0, 0, .ro, 0x0, none, none⟩, ⟨3, 1, .ro, 0x0, none, none⟩, ⟨6, 4, .ro, 0x0, none, none⟩, ⟨7, 7, .ro, 0x0, none, (some 0x0)⟩, ⟨8, 8, .ro, 0x0, none, (some 0x0)⟩]⟩,
  /- HIF_SBLK_LO -/ ⟨0x010008, [(0x4000, 2)], [⟨0, 0, .rw, 0x0, none, (some 0x0)⟩, ⟨31, 7, .rw, 0x0, none, (some 0x0)⟩]⟩,
  /- HIF_SBLK_HI -/ ⟨0x01000C, [(0x4000, 2)], [⟨31, 0, .rw, 0x0, none, (some 0x0)⟩]⟩,
  /- HIF_EVVEC -/ ⟨0x010010, [(0x4000, 2)], [⟨5, 0, .rw, 0x0, none, (some 0x0)⟩, ⟨6, 6, .rw, 0x0, none, (some 0x0)⟩, ⟨13, 8, .rw, 0x0, none, (some 0x0)⟩, ⟨14, 14, .rw, 0x0, none, (some 0x0)⟩, ⟨21, 16, .rw, 0x0, none, (some 0x0)⟩, ⟨22, 22, .rw, 0x0, none, (some 0x0)⟩]⟩,
  /- HIF_TSHAPE -/ ⟨0x010014, [(0x4000, 2)], [⟨15, 0, .rw, 0x64, none, (some 0x64)⟩, ⟨31, 16, .rw, 0x40, none, (some 0x40)⟩]⟩,
  /- HIF_PCNTk -/ ⟨0x010040, [(0x4000, 2), (0x4, 8)], [⟨31, 0, .ro, 0x0, none, none⟩]⟩,
  /- HIF_PCNT_CLR -/ ⟨0x010060, [(0x4000, 2)], [⟨0, 0, .wo, 0x0, (some 0x0), (some 0x0)⟩, ⟨1, 1, .wo, 0x0, (some 0x0), (some 0x0)⟩]⟩,
  /- HIF_RINGr_SQ_LO -/ ⟨0x010100, [(0x4000, 2), (0x40, 16)], [⟨31, 12, .rw, 0x0, none, (some 0x0)⟩]⟩,
  /- HIF_RINGr_SQ_HI -/ ⟨0x010104, [(0x4000, 2), (0x40, 16)], [⟨31, 0, .rw, 0x0, none, (some 0x0)⟩]⟩,
  /- HIF_RINGr_CQ_LO -/ ⟨0x010108, [(0x4000, 2), (0x40, 16)], [⟨31, 12, .rw, 0x0, none, (some 0x0)⟩]⟩,
  /- HIF_RINGr_CQ_HI -/ ⟨0x01010C, [(0x4000, 2), (0x40, 16)], [⟨31, 0, .rw, 0x0, none, (some 0x0)⟩]⟩,
  /- HIF_RING0_CFG -/ ⟨0x010110, [(0x4000, 2)], [⟨0, 0, .rw, 0x0, none, (some 0x0)⟩, ⟨1, 1, .rw, 0x0, none, (some 0x0)⟩, ⟨3, 2, .ro, 0x2, none, (some 0x2)⟩, ⟨7, 4, .rw, 0x4, none, (some 0x4)⟩, ⟨11, 8, .rw, 0x4, none, (some 0x4)⟩, ⟨14, 12, .rw, 0x0, none, (some 0x0)⟩, ⟨21, 16, .rw, 0x0, none, (some 0x0)⟩, ⟨31, 24, .rw, 0x10, none, (some 0x10)⟩]⟩,
  /- HIF_RINGr_CFG (r 1-15) -/ ⟨0x010150, [(0x4000, 2), (0x40, 15)], [⟨0, 0, .rw, 0x0, none, (some 0x0)⟩, ⟨1, 1, .rw, 0x0, none, (some 0x0)⟩, ⟨3, 2, .rw, 0x0, none, (some 0x0)⟩, ⟨7, 4, .rw, 0x4, none, (some 0x4)⟩, ⟨11, 8, .rw, 0x4, none, (some 0x4)⟩, ⟨14, 12, .rw, 0x0, none, (some 0x0)⟩, ⟨21, 16, .rw, 0x0, none, (some 0x0)⟩, ⟨31, 24, .rw, 0x10, none, (some 0x10)⟩]⟩,
  /- HIF_RINGr_IRQ -/ ⟨0x010114, [(0x4000, 2), (0x40, 16)], [⟨7, 0, .rw, 0x1, none, (some 0x1)⟩, ⟨23, 8, .rw, 0x0, none, (some 0x0)⟩]⟩,
  /- HIF_RINGr_STAT -/ ⟨0x010118, [(0x4000, 2), (0x40, 16)], [⟨11, 0, .ro, 0x0, none, (some 0x0)⟩, ⟨15, 12, .ro, 0x0, none, (some 0x0)⟩, ⟨28, 16, .ro, 0x0, none, (some 0x0)⟩, ⟨29, 29, .ro, 0x0, (some 0x0), (some 0x0)⟩]⟩,
  /- HIF_RINGr_CQT -/ ⟨0x01011C, [(0x4000, 2), (0x40, 16)], [⟨11, 0, .ro, 0x0, none, (some 0x0)⟩, ⟨12, 12, .ro, 0x1, none, (some 0x1)⟩, ⟨27, 16, .ro, 0x0, none, (some 0x0)⟩]⟩,
  /- HIF_RINGr_DLY -/ ⟨0x010120, [(0x4000, 2), (0x40, 16)], [⟨15, 0, .ro, 0x0, none, (some 0x0)⟩, ⟨31, 16, .ro, 0x0, none, (some 0x0)⟩]⟩,
  /- HIF_RINGr_DEPTH -/ ⟨0x010124, [(0x4000, 2), (0x40, 16)], [⟨12, 0, .ro, 0x0, none, (some 0x0)⟩, ⟨28, 16, .ro, 0x0, none, (some 0x0)⟩]⟩,
  /- HIF_RINGr_CNT -/ ⟨0x010128, [(0x4000, 2), (0x40, 16)], [⟨31, 0, .ro, 0x0, none, (some 0x0)⟩]⟩,
  /- HIF_HALT -/ ⟨0x018000, [], [⟨0, 0, .rw, 0x0, none, none⟩, ⟨3, 1, .ro, 0x3, none, none⟩, ⟨4, 4, .ro, 0x0, none, none⟩]⟩,
  /- HIF_DUAL_CTRL -/ ⟨0x019000, [], [⟨1, 0, .rw, 0x0, none, none⟩, ⟨7, 4, .rw, 0x4, none, none⟩, ⟨13, 8, .rw, 0x4, none, none⟩, ⟨19, 16, .rw, 0x3, none, none⟩]⟩,
  /- HIF_PRECEDENCE -/ ⟨0x019004, [], [⟨0, 0, .rw, 0x0, none, none⟩]⟩,
  /- HIF_DUAL_STATUS -/ ⟨0x019008, [], [⟨1, 0, .ro, 0x0, none, none⟩, ⟨3, 2, .ro, 0x0, none, none⟩, ⟨5, 4, .ro, 0x3, none, none⟩, ⟨6, 6, .ro, 0x0, none, none⟩, ⟨7, 7, .ro, 0x0, none, none⟩, ⟨15, 8, .ro, 0x0, none, none⟩]⟩,
  /- HIF_DUAL_CMD -/ ⟨0x01900C, [], [⟨0, 0, .wo, 0x0, (some 0x0), (some 0x0)⟩, ⟨1, 1, .wo, 0x0, (some 0x0), (some 0x0)⟩, ⟨2, 2, .wo, 0x0, (some 0x0), (some 0x0)⟩, ⟨3, 3, .wo, 0x0, (some 0x0), (some 0x0)⟩]⟩,
  /- HIF_LEASEk -/ ⟨0x019010, [(0x4, 3)], [⟨31, 0, .ro, 0x0, none, none⟩]⟩,
  /- HIF_JRNL_HEAD -/ ⟨0x019020, [], [⟨11, 0, .ro, 0xfff, none, none⟩]⟩,
  /- HIF_JRNL_SEQ -/ ⟨0x019024, [], [⟨31, 0, .ro, 0x0, none, none⟩]⟩,
  /- HIF_RCARDp_0 -/ ⟨0x019100, [(0x40, 2)], [⟨1, 0, .ro, 0x3, none, none⟩, ⟨2, 2, .ro, 0x0, none, none⟩, ⟨5, 4, .ro, 0x0, none, none⟩, ⟨6, 6, .ro, 0x0, none, none⟩, ⟨7, 7, .ro, 0x0, none, none⟩, ⟨11, 8, .ro, 0x0, none, none⟩]⟩,
  /- HIF_RCARDp_1 -/ ⟨0x019104, [(0x40, 2)], [⟨15, 0, .ro, 0x0, none, none⟩, ⟨31, 16, .ro, 0x0, none, none⟩]⟩,
  /- HIF_RCARDp_2 -/ ⟨0x019108, [(0x40, 2)], [⟨15, 0, .ro, 0x0, none, none⟩, ⟨31, 16, .ro, 0x0, none, none⟩]⟩]

/-- The register tables of the HIF block. -/
def regRowsHif1 : List RegRow := [
  /- HIF_RCARDp_3 -/ ⟨0x01910C, [(0x40, 2)], [⟨15, 0, .ro, 0x0, none, none⟩, ⟨31, 16, .ro, 0x0, none, none⟩]⟩,
  /- HIF_RCARDp_4 -/ ⟨0x019110, [(0x40, 2)], [⟨15, 0, .ro, 0xffff, none, none⟩, ⟨31, 16, .ro, 0x0, none, none⟩]⟩,
  /- HIF_MSIXv_ADDR_LO -/ ⟨0x012000, [(0x4000, 2), (0x10, 64)], [⟨31, 2, .rw, 0x0, none, (some 0x0)⟩]⟩,
  /- HIF_MSIXv_ADDR_HI -/ ⟨0x012004, [(0x4000, 2), (0x10, 64)], [⟨31, 0, .rw, 0x0, none, (some 0x0)⟩]⟩,
  /- HIF_MSIXv_DATA -/ ⟨0x012008, [(0x4000, 2), (0x10, 64)], [⟨31, 0, .rw, 0x0, none, (some 0x0)⟩]⟩,
  /- HIF_MSIXv_CTRL -/ ⟨0x01200C, [(0x4000, 2), (0x10, 64)], [⟨0, 0, .rw, 0x1, none, (some 0x1)⟩]⟩,
  /- HIF_MSIX_PBAk -/ ⟨0x013000, [(0x4000, 2), (0x4, 2)], [⟨31, 0, .ro, 0x0, none, (some 0x0)⟩]⟩]

/-- The register tables of the ISC block. -/
def regRowsIsc : List RegRow := [
  /- ISC_VTIME -/ ⟨0x020000, [], [⟨31, 0, .ro, 0x0, none, none⟩]⟩,
  /- ISC_CNT_CLR -/ ⟨0x020004, [], [⟨0, 0, .wo, 0x0, (some 0x0), (some 0x0)⟩]⟩,
  /- ISC_MTRi_RATE (i 1-15) -/ ⟨0x020120, [(0x20, 15)], [⟨15, 0, .rw, 0x0, none, none⟩, ⟨31, 16, .rw, 0x0, none, none⟩]⟩,
  /- ISC_MTRi_RATE (i 17-32) -/ ⟨0x020320, [(0x20, 16)], [⟨15, 0, .rw, 0x0, none, none⟩, ⟨31, 16, .rw, 0x0, none, none⟩]⟩,
  /- ISC_MTRi_RATE (i 0: reads 0) -/ ⟨0x020100, [], []⟩,
  /- ISC_MTRi_RATE (i 16: reads 0) -/ ⟨0x020300, [], []⟩,
  /- ISC_MTRi_BURST (i 1-15) -/ ⟨0x020124, [(0x20, 15)], [⟨15, 0, .rw, 0x10, none, none⟩, ⟨31, 16, .rw, 0x20, none, none⟩]⟩,
  /- ISC_MTRi_BURST (i 17-32) -/ ⟨0x020324, [(0x20, 16)], [⟨15, 0, .rw, 0x10, none, none⟩, ⟨31, 16, .rw, 0x20, none, none⟩]⟩,
  /- ISC_MTRi_BURST (i 0: reads 0) -/ ⟨0x020104, [], []⟩,
  /- ISC_MTRi_BURST (i 16: reads 0) -/ ⟨0x020304, [], []⟩,
  /- ISC_MTRi_Gk (i 1-15) -/ ⟨0x020128, [(0x20, 15), (0x4, 3)], [⟨31, 0, .ro, 0x0, none, none⟩]⟩,
  /- ISC_MTRi_Gk (i 17-32) -/ ⟨0x020328, [(0x20, 16), (0x4, 3)], [⟨31, 0, .ro, 0x0, none, none⟩]⟩,
  /- ISC_MTRi_Gk (i 0: reads 0) -/ ⟨0x020108, [(0x4, 3)], []⟩,
  /- ISC_MTRi_Gk (i 16: reads 0) -/ ⟨0x020308, [(0x4, 3)], []⟩]

/-- The register tables of the LEG block. -/
def regRowsLeg : List RegRow := [
  /- LEG_CTRL -/ ⟨0x0D0000, [], [⟨0, 0, .rw, 0x0, none, none⟩, ⟨1, 1, .rw, 0x0, none, none⟩, ⟨2, 2, .rw, 0x0, none, none⟩, ⟨15, 8, .rw, 0x10, none, none⟩]⟩,
  /- LEG_STATUS -/ ⟨0x0D0004, [], [⟨4, 0, .ro, 0x0, (some 0x0), none⟩, ⟨12, 8, .ro, 0x0, none, none⟩, ⟨16, 16, .ro, 0x0, (some 0x0), none⟩]⟩,
  /- LEG_CNTk -/ ⟨0x0D0010, [(0x4, 4)], [⟨31, 0, .ro, 0x0, none, none⟩]⟩]

/-- The register tables of the FLT block. -/
def regRowsFlt : List RegRow := [
  /- FLT_CTRL -/ ⟨0x090000, [], [⟨0, 0, .rw, 0x0, none, none⟩]⟩,
  /- FLT_STATUS -/ ⟨0x090004, [], [⟨8, 0, .ro, 0x0, none, none⟩, ⟨9, 9, .w1c, 0x0, none, none⟩]⟩,
  /- FLT_LOG_HEAD -/ ⟨0x090008, [], [⟨9, 0, .ro, 0x0, none, none⟩, ⟨31, 31, .ro, 0x1, none, none⟩]⟩,
  /- FLT_LOG_SEQ -/ ⟨0x09000C, [], [⟨31, 0, .ro, 0x0, none, none⟩]⟩,
  /- FLT_FORCE_CFG -/ ⟨0x090010, [], [⟨7, 0, .rw, 0x7f, none, none⟩, ⟨8, 8, .rw, 0x0, none, none⟩]⟩,
  /- FLT_FORCE_ADDR -/ ⟨0x090014, [], [⟨23, 0, .rw, 0x0, none, none⟩]⟩,
  /- FLT_PENDk -/ ⟨0x090040, [(0x4, 11)], [⟨31, 0, .ro, 0x0, none, none⟩]⟩,
  /- FLT_LOSTk -/ ⟨0x090080, [(0x4, 11)], [⟨31, 0, .w1c, 0x0, none, none⟩]⟩,
  /- FLT_FORCEk -/ ⟨0x0900C0, [(0x4, 11)], [⟨31, 0, .wo, 0x0, (some 0x0), (some 0x0)⟩]⟩,
  /- FLT_ACTIVEk -/ ⟨0x090100, [(0x4, 11)], [⟨31, 0, .w1c, 0x0, none, none⟩]⟩,
  /- FLT_TMAPk -/ ⟨0x090200, [(0x4, 24)], [⟨31, 0, .ro, 0xffffffff, none, none⟩]⟩,
  /- FLT_CNTk -/ ⟨0x090300, [(0x4, 8)], [⟨31, 0, .ro, 0x0, none, none⟩]⟩,
  /- FLT_CNT_CLR -/ ⟨0x090320, [], [⟨0, 0, .wo, 0x0, (some 0x0), (some 0x0)⟩]⟩,
  /- FLT_ACTs -/ ⟨0x090400, [(0x4, 352)], [⟨0, 0, .rw, 0x1, none, none⟩, ⟨1, 1, .rw, 0x1, none, none⟩, ⟨2, 2, .rw, 0x0, none, none⟩, ⟨3, 3, .rw, 0x0, none, none⟩]⟩]

/-- The register tables of the THM block. -/
def regRowsThm : List RegRow := [
  /- THM_CTRL -/ ⟨0x080000, [], [⟨15, 0, .rw, 0x32, none, none⟩, ⟨31, 16, .rw, 0xc8, none, none⟩]⟩,
  /- THM_STATUS -/ ⟨0x080004, [], [⟨1, 0, .ro, 0x0, none, none⟩, ⟨2, 2, .ro, 0x0, none, none⟩, ⟨3, 3, .ro, 0x0, none, none⟩, ⟨4, 4, .ro, 0x0, none, none⟩, ⟨5, 5, .ro, 0x0, none, none⟩, ⟨15, 8, .ro, 0x0, none, none⟩, ⟨23, 16, .ro, 0x0, none, none⟩]⟩,
  /- THM_DIE_THR -/ ⟨0x080008, [], [⟨7, 0, .rw, 0x5f, none, none⟩, ⟨15, 8, .rw, 0x69, none, none⟩, ⟨23, 16, .rw, 0x70, none, none⟩, ⟨31, 24, .rw, 0x7d, none, none⟩]⟩,
  /- THM_PIC_THR -/ ⟨0x08000C, [], [⟨7, 0, .rw, 0x46, none, none⟩, ⟨15, 8, .rw, 0x4e, none, none⟩, ⟨23, 16, .rw, 0x54, none, none⟩, ⟨31, 24, .rw, 0x5c, none, none⟩]⟩,
  /- THM_HYST -/ ⟨0x080010, [], [⟨7, 0, .rw, 0x32, none, none⟩, ⟨15, 8, .rw, 0x14, none, none⟩]⟩,
  /- THM_SPACE -/ ⟨0x080014, [], [⟨15, 0, .rw, 0x190, none, none⟩, ⟨31, 16, .rw, 0x320, none, none⟩]⟩,
  /- THM_SUSPk -/ ⟨0x080020, [(0x4, 5)], [⟨31, 0, .ro, 0x0, none, none⟩]⟩,
  /- THM_DIEn -/ ⟨0x080100, [(0x4, 64)], [⟨15, 0, .ro, 0x0, none, none⟩, ⟨31, 16, .ro, 0x0, none, none⟩]⟩,
  /- THM_PICt -/ ⟨0x080200, [(0x4, 96)], [⟨15, 0, .ro, 0x0, none, none⟩, ⟨31, 16, .ro, 0x0, none, none⟩]⟩,
  /- THM_CNTk -/ ⟨0x080400, [(0x4, 6)], [⟨31, 0, .ro, 0x0, none, none⟩]⟩,
  /- THM_CNT_CLR -/ ⟨0x080420, [], [⟨0, 0, .wo, 0x0, (some 0x0), (some 0x0)⟩]⟩]

/-- The register tables of the GLB block. -/
def regRowsGlb : List RegRow := [
  /- GLB_ID -/ ⟨0x000000, [], [⟨31, 0, .ro, 0x651200b1, none, none⟩]⟩,
  /- GLB_RESET -/ ⟨0x000004, [], [⟨0, 0, .wo, 0x0, (some 0x0), (some 0x0)⟩, ⟨1, 1, .wo, 0x0, (some 0x0), (some 0x0)⟩, ⟨31, 16, .wo, 0x0, (some 0x0), (some 0x0)⟩]⟩,
  /- GLB_RST_CAUSE -/ ⟨0x000008, [], [⟨2, 0, .ro, 0x0, none, none⟩, ⟨31, 16, .ro, 0x0, none, none⟩]⟩,
  /- GLB_WDOG -/ ⟨0x000010, [], [⟨15, 0, .rw, 0x3e8, none, none⟩, ⟨16, 16, .rw, 0x1, none, none⟩]⟩,
  /- GLB_WDOG_KICK -/ ⟨0x000014, [], [⟨0, 0, .wo, 0x0, (some 0x0), (some 0x0)⟩]⟩,
  /- GLB_PSTATE -/ ⟨0x000020, [], [⟨1, 0, .rw, 0x0, (some 0x0), none⟩, ⟨5, 4, .ro, 0x0, (some 0x0), none⟩, ⟨8, 8, .ro, 0x0, (some 0x0), none⟩, ⟨11, 9, .ro, 0x0, (some 0x0), none⟩, ⟨17, 16, .ro, 0x0, (some 0x0), none⟩]⟩,
  /- GLB_CLK -/ ⟨0x000030, [], [⟨0, 0, .ro, 0x0, none, none⟩, ⟨1, 1, .ro, 0x0, none, none⟩, ⟨2, 2, .ro, 0x0, none, none⟩, ⟨3, 3, .ro, 0x0, none, none⟩]⟩]

/-- The register tables of the BOOT block. -/
def regRowsBoot : List RegRow := [
  /- BOOT_STATUS -/ ⟨0x0C0000, [], [⟨0, 0, .ro, 0x0, none, none⟩, ⟨1, 1, .ro, 0x0, none, none⟩, ⟨2, 2, .ro, 0x0, none, none⟩, ⟨4, 3, .ro, 0x0, none, none⟩, ⟨5, 5, .ro, 0x0, none, none⟩, ⟨6, 6, .ro, 0x0, none, none⟩, ⟨7, 7, .ro, 0x0, none, none⟩, ⟨8, 8, .ro, 0x0, none, none⟩, ⟨23, 16, .ro, 0x0, none, none⟩]⟩,
  /- BOOT_SLOTk -/ ⟨0x0C0004, [(0x4, 2)], [⟨2, 0, .ro, 0x0, none, none⟩, ⟨3, 3, .ro, 0x0, none, none⟩, ⟨7, 4, .ro, 0x0, none, none⟩, ⟨10, 8, .ro, 0x0, none, none⟩, ⟨31, 16, .ro, 0xffff, none, none⟩]⟩,
  /- BOOT_CMD -/ ⟨0x0C0010, [], [⟨0, 0, .wo, 0x0, (some 0x0), (some 0x0)⟩, ⟨1, 1, .wo, 0x0, (some 0x0), (some 0x0)⟩, ⟨2, 2, .wo, 0x0, (some 0x0), (some 0x0)⟩]⟩,
  /- BOOT_JRNL -/ ⟨0x0C0014, [], [⟨0, 0, .ro, 0x0, none, none⟩, ⟨1, 1, .ro, 0x0, none, none⟩, ⟨2, 2, .ro, 0x0, none, none⟩, ⟨3, 3, .ro, 0x0, none, none⟩, ⟨31, 8, .ro, 0xffffff, none, none⟩]⟩,
  /- BOOT_PROG -/ ⟨0x0C0020, [], [⟨25, 8, .rw, 0x0, none, none⟩, ⟨27, 26, .rw, 0x0, none, none⟩, ⟨28, 28, .wo, 0x0, (some 0x0), (some 0x0)⟩, ⟨29, 29, .ro, 0x0, none, none⟩, ⟨30, 30, .ro, 0x0, none, none⟩]⟩,
  /- BOOT_PBUFk -/ ⟨0x0C0100, [(0x4, 64)], [⟨31, 0, .rw, 0x0, none, none⟩]⟩]

/-- The register tables of the XBR block. -/
def regRowsXbr : List RegRow := [
  /- XBR_CTRL -/ ⟨0x0B0000, [], [⟨0, 0, .w1s, 0x0, (some 0x0), none⟩]⟩,
  /- XBR_ERR -/ ⟨0x0B0004, [], [⟨3, 0, .ro, 0x0, none, none⟩, ⟨4, 4, .ro, 0x0, none, none⟩, ⟨31, 31, .w1c, 0x0, none, none⟩]⟩,
  /- XBR_ERR_ADDR -/ ⟨0x0B0008, [], [⟨23, 0, .ro, 0x0, none, none⟩]⟩,
  /- XBR_PARK0 -/ ⟨0x0B0010, [], [⟨31, 0, .rw, 0x98565500, none, none⟩]⟩,
  /- XBR_PARK1 -/ ⟨0x0B0014, [], [⟨11, 0, .rw, 0x6ca, none, none⟩]⟩,
  /- XBR_SLICEm -/ ⟨0x0B0040, [(0x4, 13)], [⟨10, 0, .rw, 0x0, none, none⟩]⟩,
  /- XBR_CNTk -/ ⟨0x0B0100, [(0x4, 4)], [⟨31, 0, .ro, 0x0, none, none⟩]⟩,
  /- XBR_CNT_CLR -/ ⟨0x0B0120, [], [⟨0, 0, .wo, 0x0, (some 0x0), (some 0x0)⟩]⟩]

/-- Every register table of the device. -/
def regRows : List RegRow :=
  regRowsBel ++ regRowsRts ++ regRowsDrv ++ regRowsMon ++ regRowsCal ++ regRowsTrk ++ regRowsPwr ++ regRowsTmu ++ regRowsEth ++ regRowsHif0 ++ regRowsHif1 ++ regRowsIsc ++ regRowsLeg ++ regRowsFlt ++ regRowsThm ++ regRowsGlb ++ regRowsBoot ++ regRowsXbr

end Sys2Proof.Machine
end

