-- ==== Sys2Proof/Machine/RegOps.lean ====
section
/-! DEFINITION. The register file's shape: which registers exist at which addresses, their reset values (R15) and what a
full-word write stores field by field (R12, R14). -/

namespace Sys2Proof.Machine

/-- The register tables of the block that an address lies in (R403). -/
def blockRows (a : Nat) : List RegRow :=
  match a / 0x10000 with
  | 0x00 => regRowsGlb
  | 0x01 => regRowsHif0 ++ regRowsHif1
  | 0x02 => regRowsIsc
  | 0x03 => regRowsTmu
  | 0x04 => regRowsEth
  | 0x05 => regRowsBel
  | 0x06 => regRowsRts
  | 0x07 => regRowsPwr
  | 0x08 => regRowsThm
  | 0x09 => regRowsFlt
  | 0x0A => regRowsCal
  | 0x0B => regRowsXbr
  | 0x0C => regRowsBoot
  | 0x0D => regRowsLeg
  | n => if 0x10 ≤ n ∧ n ≤ 0x15 then regRowsDrv
         else if 0x20 ≤ n ∧ n ≤ 0x25 then regRowsMon
         else if 0x30 ≤ n ∧ n ≤ 0x48 then regRowsTrk
         else []

/-- An offset that a row's repetitions reach: 0 after taking out one multiple of each stride. -/
def inDims : List (Nat × Nat) → Nat → Bool
  | [], o => decide (o = 0)
  | (st, n) :: r, o => decide (o / st < n) && inDims r (o % st)

/-- The last stride may leave no rest; a row without repetitions takes its base only. -/
def rowHas (row : RegRow) (a : Nat) : Bool := decide (row.base ≤ a) && inDims row.dims (a - row.base)

/-- The row of a register address. -/
def findReg (a : Nat) : Option RegRow := (blockRows a).find? (fun r => rowHas r a)

/-- The word of the fields' values after power-on (R15, column P). -/
def resetOf (row : RegRow) : BitVec 32 :=
  BitVec.ofNat 32 (row.fields.foldl (fun acc f => acc + f.p % 2 ^ (f.hi + 1 - f.lo) * 2 ^ f.lo) 0)

/-- R15: the power-on value of the register at an address; 0 where there is none. -/
def resetWord (a : Nat) : BitVec 32 :=
  match findReg a with
  | some r => resetOf r
  | none => 0

/-- R12: the value of one field after a write. -/
def fieldWrite (acc : Access) (old v : Nat) : Nat :=
  match acc with
  | .rw => v
  | .w1c => old &&& (old ^^^ v)
  | .w1s => old ||| v
  | .ro | .wo | .rws => old

/-- R12, R14: the word that a full-word write of `v` leaves in a register of this row. -/
def writeRow (row : RegRow) (old v : BitVec 32) : BitVec 32 :=
  row.fields.foldl (fun w f => setF w ⟨f.hi, f.lo⟩ (fieldWrite f.acc (getF old ⟨f.hi, f.lo⟩) (getF v ⟨f.hi, f.lo⟩))) old

/-- R15: the fields of a row that a reset's column sets, applied to a word. -/
def resetFields (col : RegField → Option Nat) (row : RegRow) (old : BitVec 32) : BitVec 32 :=
  row.fields.foldl (fun w f => match col f with
    | some v => setF w ⟨f.hi, f.lo⟩ v
    | none => w) old

end Sys2Proof.Machine
end

