-- ==== Sys2Proof/Machine/Fabric.lean ====
section
/-! DEFINITION. The fabric map (R39 to R43), its checks at boot (R45, R46) and the seating chart (R47, R48). A map is read
through a getter: the byte at an offset from the map's start, in flash at boot and in the window 0xE0_0000 afterwards. -/

namespace Sys2Proof.Machine

/-- A little-endian 16-bit field of a structure read byte by byte. -/
def g16 (g : Nat → Nat) (a : Nat) : Nat := g a + 256 * g (a + 1)

/-- A little-endian 32-bit field. -/
def g32 (g : Nat → Nat) (a : Nat) : Nat := g16 g a + 65536 * g16 g (a + 2)

/-! The header (R39). -/
def mapTopo (g : Nat → Nat) : Nat := g 0x08
def mapPorts (g : Nat → Nat) : Nat := g16 g 0x0A
def mapStages (g : Nat → Nat) : Nat := g16 g 0x0C
def mapCells (g : Nat → Nat) : Nat := g16 g 0x0E
def mapTiles (g : Nat → Nat) : Nat := g 0x10
def mapVhtr (g : Nat → Nat) : Nat := g16 g 0x2C
def mapBias (g : Nat → Nat) : Nat := g16 g 0x2E
def mapDark (g : Nat → Nat) : Nat := g32 g 0x30
def mapLength (g : Nat → Nat) : Nat := g32 g 0x34
def mapCrc (g : Nat → Nat) : Nat := g32 g 0x3C

/-! The cell record (R40). -/
def cellAt (g : Nat → Nat) (i : Nat) : Nat := g32 g 0x14 + 32 * i
def cellFlags (g : Nat → Nat) (i : Nat) : Nat := g16 g (cellAt g i)
def cellPresent (g : Nat → Nat) (i : Nat) : Bool := bit (cellFlags g i) 0
def cellSpare (g : Nat → Nat) (i : Nat) : Bool := bit (cellFlags g i) 1
def cellRetiredFlag (g : Nat → Nat) (i : Nat) : Bool := bit (cellFlags g i) 2
def cellNomHi (g : Nat → Nat) (i : Nat) : Bool := bit (cellFlags g i) 3
def cellStage (g : Nat → Nat) (i : Nat) : Nat := g16 g (cellAt g i + 2)
def cellRow (g : Nat → Nat) (i : Nat) : Nat := g16 g (cellAt g i + 4)
def cellPhi0 (g : Nat → Nat) (i : Nat) : Nat := g16 g (cellAt g i + 6)
def cellBarNom (g : Nat → Nat) (i : Nat) : Nat := g16 g (cellAt g i + 8)
/-- R40: the efficiency of an arm (0 north, 1 south), in 1/16 turns16 per mW. -/
def cellEta (g : Nat → Nat) (i arm : Nat) : Nat := g16 g (cellAt g i + 0xA + 2 * arm)
/-- R40: the resistance of an arm at 25 °C, in 0.1 Ω. -/
def cellRes (g : Nat → Nat) (i arm : Nat) : Nat := g16 g (cellAt g i + 0xE + 2 * arm)
def cellTau (g : Nat → Nat) (i : Nat) : Nat := g16 g (cellAt g i + 0x12)
def cellIL (g : Nat → Nat) (i : Nat) : Nat := g16 g (cellAt g i + 0x14)
def cellTap (g : Nat → Nat) (i o : Nat) : Nat := g (cellAt g i + 0x16 + o)
def cellCplFirst (g : Nat → Nat) (i : Nat) : Nat := g16 g (cellAt g i + 0x18)
def cellCplN (g : Nat → Nat) (i : Nat) : Nat := g (cellAt g i + 0x1A)
/-- R40: the nominal ember code of an arm. -/
def cellNom (g : Nat → Nat) (i arm : Nat) : Nat := g16 g (cellAt g i + 0x1C + 2 * arm)

/-! Coupling entries (R41), port tables (R42) and tile records (R43). -/
def cplAt (g : Nat → Nat) (e : Nat) : Nat := g32 g 0x18 + 8 * e
def cplAggr (g : Nat → Nat) (e : Nat) : Nat := bits (g16 g (cplAt g e)) 0 14
def cplKappa (g : Nat → Nat) (e : Nat) : Int := sext (g16 g (cplAt g e + 2)) 16
def cplTau (g : Nat → Nat) (e : Nat) : Nat := g16 g (cplAt g e + 4)
/-- R42: a west (`east` false) or east port table entry. -/
def portAt (g : Nat → Nat) (east : Bool) (p : Nat) : Nat := (if east then g32 g 0x24 else g32 g 0x20) + 4 * p
def portCell (g : Nat → Nat) (east : Bool) (p : Nat) : Nat := g16 g (portAt g east p)
def portSide (g : Nat → Nat) (east : Bool) (p : Nat) : Nat := g (portAt g east p + 2)
def portPresent (g : Nat → Nat) (east : Bool) (p : Nat) : Bool := decide (p < 512) && bit (g (portAt g east p + 3)) 0
def portLantern (g : Nat → Nat) (east : Bool) (p : Nat) : Bool := bit (g (portAt g east p + 3)) 1
def tileAt (g : Nat → Nat) (t : Nat) : Nat := g32 g 0x28 + 16 * t
def tileNCell (g : Nat → Nat) (t : Nat) : Nat := g (tileAt g t)
def tileNAdj (g : Nat → Nat) (t : Nat) : Nat := g (tileAt g t + 1)
def tileAdj (g : Nat → Nat) (t : Nat) : List Nat := (List.range (min 4 (tileNAdj g t))).map (fun j => g (tileAt g t + 2 + j))
def tileR0 (g : Nat → Nat) (t : Nat) : Nat := g16 g (tileAt g t + 6)
def tileAlpha (g : Nat → Nat) (t : Nat) : Nat := g16 g (tileAt g t + 8)
def tileExc (g : Nat → Nat) (t : Nat) : Nat := g (tileAt g t + 0xA)
/-- R37: a tile with a present cell is used. -/
def tileUsed (g : Nat → Nat) (t : Nat) : Bool := (List.range 64).any (fun c => cellPresent g (64 * t + c))

/-- The binary logarithm of a power of two. -/
def log2n (n : Nat) : Nat := n.log2

/-- R38: what the topology table says of a (topology, N): stages and cells; none where N is not allowed. -/
def topoShape (topo n : Nat) : Option (Nat × Nat) :=
  let l := log2n n
  let pw := decide (2 ^ l = n)
  if topo = 0 ∧ pw ∧ 8 ≤ n ∧ n ≤ 512 then some (2 * l - 1, (2 * l - 1) * (n / 2))
  else if topo = 1 ∧ pw ∧ 8 ≤ n ∧ n ≤ 512 then some (2 * l, 2 * l * (n / 2))
  else if topo = 2 ∧ pw ∧ 8 ≤ n ∧ n ≤ 256 then some (2 * l + 1, (2 * l + 1) * n)
  else if topo = 3 ∧ 4 ≤ n ∧ n ≤ 64 ∧ n % 2 = 0 then some (2 * n - 1, n * n)
  else none

/-- R38: the number of cells that a stage of a topology holds. -/
def stageRows (topo n s : Nat) : Nat :=
  if topo = 0 ∨ topo = 1 then n / 2 else if topo = 2 then n
  else if s < n then s + 1 else 2 * n - 1 - s

/-! The checks of R45. A failing check answers the table (R46) and the record index. -/

/-- R46: a check's outcome: none passes; a failure names the table and the record. -/
abbrev CheckRes := Option (Nat × Nat)

/-- R46: a failure that names no record. -/
def failNone : CheckRes := some (0, 0xFFFF)

/-- The first index that satisfies a test, as a failing record of a table: the rule names no record where several fail
(notes/assumptions/84). -/
def firstBad (tab n : Nat) (p : Nat → Bool) : CheckRes := ((List.range n).find? p).map (fun i => (tab, i))

/-- The last index that satisfies a test (R46: the later of two records). -/
def lastBad (tab n : Nat) (p : Nat → Bool) : CheckRes := ((List.range n).reverse.find? p).map (fun i => (tab, i))

/-- The first failure of a list of parts. -/
def orElseAll : List CheckRes → CheckRes
  | [] => none
  | some r :: _ => some r
  | none :: t => orElseAll t

/-- R45, check 1. -/
def check1 (g : Nat → Nat) : CheckRes :=
  let len := mapLength g
  if g32 g 0 = 0x4D465A4B ∧ g16 g 4 = 2 ∧ g16 g 6 = 64 ∧ 64 ≤ len ∧ len ≤ 1048576 ∧
     g32 g 0x14 + 6144 * 32 ≤ len ∧ g32 g 0x18 + g32 g 0x1C * 8 ≤ len ∧ g32 g 0x20 + 512 * 4 ≤ len ∧
     g32 g 0x24 + 512 * 4 ≤ len ∧ g32 g 0x28 + 96 * 16 ≤ len then none else failNone

/-- R45, check 2: the CRC over LENGTH bytes with the CRC field taken as 0. -/
def check2 (g : Nat → Nat) : CheckRes :=
  if crc32c ((List.range (mapLength g)).map (fun a => if 0x3C ≤ a ∧ a < 0x40 then 0 else g a)) = mapCrc g then none else failNone

/-- R45, check 3. -/
def check3 (g : Nat → Nat) : CheckRes :=
  if topoShape (mapTopo g) (mapPorts g) = some (mapStages g, mapCells g) then none else failNone

/-- The highest used tile number + 1. -/
def tilesUsed (g : Nat → Nat) : Nat := ((List.range 96).filter (tileUsed g)).foldl (fun _ t => t + 1) 0

/-- R45, check 4. -/
def check4 (g : Nat → Nat) : CheckRes :=
  orElseAll [
    (if mapTiles g ≤ 96 ∧ mapTiles g = tilesUsed g ∧ g 9 = 0 ∧ g 0x13 = 0 then none else failNone),
    firstBad 5 96 (fun t => decide (tileNCell g t ≠ ((List.range 64).filter (fun c => cellPresent g (64 * t + c))).length)),
    firstBad 1 6144 (fun i => decide (cellFlags g i / 16 ≠ 0) || decide (g (cellAt g i + 0x1B) ≠ 0) ||
      (!cellPresent g i && (List.range 32).any (fun o => decide (g (cellAt g i + o) ≠ 0)))),
    firstBad 2 (g32 g 0x1C) (fun e => decide (g16 g (cplAt g e) / 16384 ≠ 0) || decide (g16 g (cplAt g e + 6) ≠ 0)),
    firstBad 3 512 (fun p => decide (g (portAt g false p + 3) / 4 ≠ 0)),
    firstBad 4 512 (fun p => decide (g (portAt g true p + 3) / 4 ≠ 0)),
    firstBad 5 96 (fun t => (List.range 5).any (fun o => decide (g (tileAt g t + 0xB + o) ≠ 0)))]

/-- The present cells at a position. -/
def holders (g : Nat → Nat) (s r : Nat) : List Nat :=
  (List.range 6144).filter (fun i => cellPresent g i && decide (cellStage g i = s ∧ cellRow g i = r))

/-- R45, check 5: each position held once, by no cell outside the topology (notes/assumptions/85), SPARE exactly on stage 0 of topology 1. -/
def check5 (g : Nat → Nat) : CheckRes :=
  let inTopo (i : Nat) : Bool := decide (cellStage g i < mapStages g ∧ cellRow g i < stageRows (mapTopo g) (mapPorts g) (cellStage g i))
  orElseAll [
    lastBad 1 6144 (fun i => cellPresent g i &&
      (!inTopo i || decide ((holders g (cellStage g i) (cellRow g i)).length ≠ 1))),
    (if (List.range (mapStages g)).all (fun s => (List.range (stageRows (mapTopo g) (mapPorts g) s)).all
        (fun r => decide ((holders g s r).length = 1))) then none else some (1, 0xFFFF)),
    firstBad 1 6144 (fun i => cellPresent g i && decide (cellSpare g i ≠ decide (mapTopo g = 1 ∧ cellStage g i = 0)))]

/-- R45, check 6. -/
def check6 (g : Nat → Nat) : CheckRes :=
  firstBad 1 6144 (fun i => cellPresent g i && (List.range 2).any (fun a => decide (cellRes g i a < 600 ∨ 6000 < cellRes g i a)))

/-- R45, check 7: ETA × I_max² × RES ≥ 81,920 turns16 with I_max = min(24 mA, VHTR_MAX / RES), in exact integers.
With the current in mA, the resistance in Ω and the efficiency in turns16 per mW: P = I² R / 1000 mW. -/
def reachOk (g : Nat → Nat) (i a : Nat) : Bool :=
  let r := cellRes g i a
  let v := mapVhtr g
  decide (cellEta g i a ≠ 0) &&
  (if 24 * r ≤ 10 * v then decide (81920 * 16 * 10000 ≤ cellEta g i a * 576 * r)
   else decide (81920 * 16 * 100 * r ≤ cellEta g i a * v * v))

/-- R45, check 7. -/
def check7 (g : Nat → Nat) : CheckRes :=
  firstBad 1 6144 (fun i => cellPresent g i && (List.range 2).any (fun a => !reachOk g i a))

/-- R45, check 8 with the ranges of R410. -/
def check8 (g : Nat → Nat) : CheckRes :=
  if 1000 ≤ mapVhtr g ∧ mapVhtr g ≤ 14000 ∧ 500 ≤ mapBias g ∧ mapBias g ≤ 3000 ∧ mapDark g ≤ 100000 then none else failNone

/-- R43: the excitation current in µA. -/
def excUA (c : Nat) : Nat := if c = 0 then 100 else if c = 1 then 250 else if c = 2 then 500 else 1000

/-- R411: the voltage in units of 10^-13 V at a temperature: R0 (0.1 Ω) × (10^6 + α T) × I (µA). -/
def rtdVolt (g : Nat → Nat) (t : Nat) (temp : Int) : Int :=
  (tileR0 g t : Int) * (1000000 + (tileAlpha g t : Int) * temp) * (excUA (tileExc g t) : Int)

/-- R45, check 9: the thermometer of a used tile within the input range of R411 (10 to 500 mV from −20 °C to 130 °C). -/
def check9 (g : Nat → Nat) : CheckRes :=
  firstBad 5 96 (fun t => tileUsed g t && !decide (1000 ≤ tileAlpha g t ∧ tileAlpha g t ≤ 6000 ∧ tileExc g t ≤ 3 ∧
    100000000000 ≤ rtdVolt g t (-20) ∧ rtdVolt g t 130 ≤ 5000000000000))

/-- R45, check 10: the entries that a victim names, with its neighbours, then every entry of the table; a victim's range that leaves the
table fails, and an NADJ above 4 reads as 4 (notes/assumptions/86). -/
def check10 (g : Nat → Nat) : CheckRes :=
  let victimBad (i : Nat) : Option Nat :=
    let f := cellCplFirst g i
    ((List.range (cellCplN g i)).reverse.find? (fun j =>
      let e := f + j
      let ag := g16 g (cplAt g e)
      decide (g32 g 0x1C ≤ e) || decide (12288 ≤ ag) || !cellPresent g (ag / 2) || decide (ag / 2 = i) ||
      !(decide (ag / 128 = i / 64) || (tileAdj g (i / 64)).contains (ag / 128)) ||
      (decide (0 < j) && decide (ag ≤ g16 g (cplAt g (e - 1)))))).map (fun j => f + j)
  orElseAll [
    (if g32 g 0x1C ≤ 49152 then none else failNone),
    firstBad 1 6144 (fun i => cellPresent g i && decide (8 < cellCplN g i)),
    ((List.range 6144).findSome? (fun i => if cellPresent g i then victimBad i else none)).map (fun e => (2, e)),
    firstBad 2 (g32 g 0x1C) (fun e => decide (12288 ≤ cplAggr g e) || !cellPresent g (cplAggr g e / 2)),
    firstBad 5 96 (fun t => (tileAdj g t).any (fun u => decide (96 ≤ u) || !(tileAdj g u).contains t))]

/-- R45, check 11: one port table. -/
def check11Side (g : Nat → Nat) (east : Bool) : CheckRes :=
  let n := mapPorts g
  let tab := if east then 4 else 3
  let stage := if east then mapStages g - 1 else 0
  let lant := if east then g 0x12 else g 0x11
  let okPlace (p : Nat) : Bool :=
    let c := portCell g east p
    decide (c < 6144) && cellPresent g c && decide (portSide g east p < 2) &&
    (if mapTopo g = 3 then
      let a := cellRow g c + (cellStage g c + 1 - n)
      let b := cellStage g c - a
      (if east then decide (a = b ∧ portSide g east p = 1) else decide (b = (a + 1) % n ∧ portSide g east p = 0))
     else decide (cellStage g c = stage) && (decide (mapTopo g ≠ 2) || decide (portSide g east p = 0)))
  orElseAll [
    firstBad tab 512 (fun p => decide (portPresent g east p ≠ decide (p < n))),
    lastBad tab n (fun p => !okPlace p || (List.range p).any (fun q => decide (portCell g east q = portCell g east p ∧
      portSide g east q = portSide g east p))),
    (if lant ≤ 16 ∧ lant = ((List.range 512).filter (fun p => portPresent g east p && portLantern g east p)).length
     then none else failNone)]

/-- R45, check 11. -/
def check11 (g : Nat → Nat) : CheckRes := orElseAll [check11Side g false, check11Side g true]

/-- R45, check 12: a nominal code gives a current within I_max = min(24 mA, VHTR_MAX / RES); full scale is 24 mA in HI and
12 mA in LO (R115). -/
def check12 (g : Nat → Nat) : CheckRes :=
  firstBad 1 6144 (fun i => cellPresent g i && (decide (cellNom g i 0 ≠ 0 ∧ cellNom g i 1 ≠ 0) ||
    (List.range 2).any (fun a => decide (10 * mapVhtr g * 65536 < cellNom g i a * (if cellNomHi g i then 24 else 12) * cellRes g i a))))

/-- R45: the checks in order with their codes. -/
def mapCheck (g : Nat → Nat) : Option (Nat × Nat × Nat) :=
  let go (c : Nat) (r : CheckRes) (k : Option (Nat × Nat × Nat)) : Option (Nat × Nat × Nat) :=
    match r with
    | some (t, i) => some (c, t, i)
    | none => k
  go 1 (check1 g) (go 2 (check2 g) (go 3 (check3 g) (go 4 (check4 g) (go 5 (check5 g) (go 6 (check6 g)
    (go 7 (check7 g) (go 8 (check8 g) (go 9 (check9 g) (go 10 (check10 g) (go 11 (check11 g) (go 12 (check12 g) none)))))))))))

/-! The seating chart (R47). -/

/-- R47: the entry of a west port. -/
def chartEntry (ch : BitVec 8192) (w : Nat) : Nat := bits ch.toNat (16 * w) 16

/-- R47: the east port of a west port, if connected. -/
def chartEast (ch : BitVec 8192) (w : Nat) : Option Nat :=
  if bit (chartEntry ch w) 15 then some (bits (chartEntry ch w) 0 9) else none

/-- R48: an entry that breaks a rule by itself or names an east port that a lower entry names (notes/assumptions/103). -/
def chartBadAt (g : Nat → Nat) (ch : BitVec 8192) (w : Nat) : Bool :=
  let e := chartEntry ch w
  decide (bits e 9 6 ≠ 0) ||
  (match chartEast ch w with
    | none => decide (bits e 0 9 ≠ 0)
    | some x => !portPresent g false w || portLantern g false w || !portPresent g true x || portLantern g true x ||
        (List.range w).any (fun v => decide (chartEast ch v = some x)))

/-- R48, R111: the first failing west port of a chart. -/
def chartBad (g : Nat → Nat) (ch : BitVec 8192) : Option Nat := (List.range 512).find? (chartBadAt g ch)

end Sys2Proof.Machine
end

