-- ==== Sys2Proof/Machine/Solver.lean ====
section
/-! DEFINITION. The route solver (R93 to R104): a chart, a fault set and the fabric map give one state code per cell. A
solve is a function of those three alone (R93). -/

namespace Sys2Proof.Machine

/-- An element of an array, 0 outside it. -/
def ag (a : Array Nat) (i : Nat) : Nat := a.getD i 0

/-- An array with an element replaced. -/
def aset (a : Array Nat) (i x : Nat) : Array Nat := a.setIfInBounds i x

/-- An array of `n` values of a function. -/
def amk (n : Nat) (f : Nat → Nat) : Array Nat := ((List.range n).map f).toArray

/-- The mark of an empty place. -/
def none16 : Nat := 65536

/-- The key of a position: stage and row. -/
def posKey (s r : Nat) : Nat := 512 * s + r

/-- The cell at each position. -/
def posTab (g : Nat → Nat) : Array Nat :=
  (List.range 6144).foldl (fun t i => if cellPresent g i then aset t (posKey (cellStage g i) (cellRow g i)) i else t)
    (Array.replicate (512 * 128) none16)

/-- R94: the row of the cell that joins line `x` to its partner in a stage of dimension `d`. -/
def lineRow (d x : Nat) : Nat := x % 2 ^ d + 2 ^ d * (x / 2 ^ (d + 1))

/-- R94: the dimension of stage `s` of a Beneš network of `2^n` lines. -/
def benesDim (n s : Nat) : Nat := if s + 1 ≤ n then n - 1 - s else s + 1 - n

/-- R94, R95: the dimension of a stage of topologies 0 and 1 and of a plane stage of topology 2. -/
def stageDim (topo n s : Nat) : Nat := if topo = 0 then benesDim n s else if s = 0 then 0 else benesDim n (s - 1)

/-- R94: the partner of a line in dimension `d`. -/
def flip (x d : Nat) : Nat := x ^^^ (2 ^ d)

/-- A line with bit `d` set to `v`. -/
def setBit (x d v : Nat) : Nat := putBit x d (decide (v % 2 = 1))

/-- A solve's input: the topology, the size, position table and losses, the fault test, and the signals: for each input
line the output line (`none16` where there is none) and whether the signal is a circuit (1) or a filler (0). -/
structure SolveIn where
  topo : Nat
  n : Nat
  ports : Nat
  pos : Array Nat
  il : Array Nat
  retired : Array Nat
  deriving DecidableEq, Repr

/-- The loss of the cell at a position. -/
def ilAt (c : SolveIn) (s r : Nat) : Nat := ag c.il (ag c.pos (posKey s r))

/-- The inverse of a signal map. -/
def invMap (ports : Nat) (pi : Array Nat) : Array Nat :=
  (List.range ports).foldl (fun t x => if ag pi x < ports then aset t (ag pi x) x else t) (Array.replicate ports none16)

/-- R98: the lines of one loop in order of assignment, each with its sub-network relative to the loop's setting. -/
def loopWalk (pi pinv : Array Nat) (d : Nat) : Nat → Nat → List Nat → List (Nat × Nat)
  | 0, _, _ => []
  | f + 1, x, seen =>
    if seen.contains x then [] else
    (x, 0) :: (flip x d, 1) :: loopWalk pi pinv d f (ag pinv (flip (ag pi (flip x d)) d)) (x :: seen)

/-- R101: the line of the other signal at the next stage's cell (dimension `d − 1`): of the two candidates the one in use. -/
def planePartner (m : Array Nat) (x d : Nat) : Nat :=
  let y := flip x (d - 1)
  if ag m y = none16 then flip y d else y

/-- R101: the chain of a plane level from a signal. -/
def chainWalk (pi pinv : Array Nat) (d : Nat) : Nat → Nat → List Nat → List (Nat × Nat)
  | 0, _, _ => []
  | f + 1, x, seen =>
    if seen.contains x then [] else
    let p := planePartner pi x d
    (x, 0) :: (p, 1) :: chainWalk pi pinv d f (ag pinv (planePartner pinv (ag pi p) d)) (x :: seen)

/-- R99: the cost of a loop setting at a level of dimension `d ≥ 1`: the losses of the sub-network's first-stage cell that
each circuit enters and last-stage cell that it leaves. `si`, `so` are the level's input and output stages; `off` shifts
plane rows (R95). -/
def loopCost (c : SolveIn) (pi circ : Array Nat) (d si so off v : Nat) (l : List (Nat × Nat)) : Nat :=
  l.foldl (fun acc e =>
    if ag circ e.1 = 0 then acc else
    acc + ilAt c (si + 1) (off + lineRow (d - 1) (setBit e.1 d (e.2 + v))) +
      ilAt c (so - 1) (off + lineRow (d - 1) (setBit (ag pi e.1) d (e.2 + v)))) 0

/-- R98, R99: the sub-network of every line at one level. `inv` inverts the level's loops (R103); `plane` walks the chains
of R101 instead. -/
def subsAt (c : SolveIn) (pi pinv circ : Array Nat) (d si so off : Nat) (inv plane : Bool) : Array Nat :=
  (List.range c.ports).foldl (fun sub a =>
    if ag sub a ≠ none16 ∨ ag pi a = none16 ∨ (plane = false ∧ bit a d) then sub else
    let l := if plane then chainWalk pi pinv d c.ports a [] else loopWalk pi pinv d c.ports a []
    let v0 := if loopCost c pi circ d si so off 1 l < loopCost c pi circ d si so off 0 l then 1 else 0
    let v := if inv then 1 - v0 else v0
    l.foldl (fun t e => aset t e.1 ((e.2 + v) % 2)) sub) (Array.replicate c.ports none16)

/-- What a level leaves: the signal map and the circuit marks on the lines of the next level, and the states (1 cross) set
so far, keyed by position. -/
structure LevelRes where
  pi : Array Nat
  circ : Array Nat
  st : Array Nat
  deriving DecidableEq, Repr

/-- R98: one level of dimension `d`: set the input- and output-stage cells and pass the signals on. -/
def solveLevel (c : SolveIn) (d si so off : Nat) (inv plane : Bool) (r : LevelRes) : LevelRes :=
  if d = 0 then
    { r with st := (List.range c.ports).foldl (fun st x =>
        if ag r.pi x = none16 then st else
        if bit x 0 ≠ bit (ag r.pi x) 0 then aset st (posKey si (off + lineRow 0 x)) 1 else st) r.st }
  else
    let sub := subsAt c r.pi (invMap c.ports r.pi) r.circ d si so off inv plane
    (List.range c.ports).foldl (fun q x =>
      if ag r.pi x = none16 then q else
      let y := ag r.pi x
      let v := ag sub x
      let st1 := if v ≠ b2n (bit x d) then aset q.st (posKey si (off + lineRow d x)) 1 else q.st
      let st2 := if v ≠ b2n (bit y d) then aset st1 (posKey so (off + lineRow d y)) 1 else st1
      { pi := aset q.pi (setBit x d v) (setBit y d v), circ := aset q.circ (setBit x d v) (ag r.circ x), st := st2 })
      { pi := Array.replicate c.ports none16, circ := Array.replicate c.ports 0, st := r.st }

/-- R98: the levels from dimension `d` down to 0, with input stage `si` and output stage `so`. -/
def solveLevels (c : SolveIn) (off : Nat) (plane : Bool) : Nat → Nat → Nat → Bool → LevelRes → LevelRes
  | 0, si, so, inv, r => solveLevel c 0 si so off inv plane r
  | d + 1, si, so, inv, r => solveLevels c off plane d (si + 1) (so - 1) false (solveLevel c (d + 1) si so off inv plane r)

/-- The state array before anything is set: all BAR. -/
def noStates : Array Nat := Array.replicate (512 * 128) 0

/-- R98: topologies 0 and 1 with the toggled extra-stage rows and the top-level inversion of a pass (R103). -/
def solveBenes (c : SolveIn) (pi circ : Array Nat) (tog : List Nat) (inv : Bool) : Array Nat :=
  if c.topo = 0 then
    (solveLevels c 0 false (c.n - 1) 0 (2 * c.n - 2) inv { pi := pi, circ := circ, st := noStates }).st
  else
    let st := tog.foldl (fun s r => aset s (posKey 0 r) 1) noStates
    let mv (x : Nat) : Nat := if tog.contains (lineRow 0 x) then flip x 0 else x
    let pi1 := amk c.ports (fun x => ag pi (mv x))
    let ci1 := amk c.ports (fun x => ag circ (mv x))
    (solveLevels c 0 false (c.n - 1) 1 (2 * c.n - 1) inv { pi := pi1, circ := ci1, st := st }).st

/-- R101: the plane of every signal, each chain's swap given by its lowest line; the chain of a signal is named by it. -/
def planeChains (c : SolveIn) (pi : Array Nat) : List (List (Nat × Nat)) :=
  let pinv := invMap c.ports pi
  ((List.range c.ports).foldl (fun (acc : List (List (Nat × Nat)) × Array Nat) a =>
    if ag acc.2 a ≠ 0 then acc else
    let l := loopWalk pi pinv (c.n - 1) c.ports a []
    (l :: acc.1, l.foldl (fun t e => aset t e.1 1) acc.2)) ([], Array.replicate c.ports 0)).1.reverse

/-- R101: topology 2. `swap` holds the lowest lines of the swapped chains (R103). -/
def solveDilated (c : SolveIn) (pi circ : Array Nat) (swap : List Nat) : Array Nat :=
  let plane := (planeChains c pi).foldl (fun t l =>
    let v := if swap.contains (l.headD (0, 0)).1 then 1 else 0
    l.foldl (fun t e => aset t e.1 ((e.2 + v) % 2)) t) (Array.replicate c.ports 0)
  let st0 := (List.range c.ports).foldl (fun st x =>
    if ag plane x = 0 then st else aset (aset st (posKey 0 x) 1) (posKey (2 * c.n) (ag pi x)) 1) noStates
  let run (p : Nat) (st : Array Nat) : Array Nat :=
    let keep (x : Nat) : Bool := decide (ag plane x = p)
    (solveLevels c (p * (c.ports / 2)) true (c.n - 1) 1 (2 * c.n - 1) false
      { pi := amk c.ports (fun x => if keep x then ag pi x else none16),
        circ := amk c.ports (fun x => if keep x then ag circ x else 0), st := st }).st
  run 1 (run 0 st0)

/-- R102: topology 3: crosspoints of circuits in CROSS. -/
def solveCross (c : SolveIn) (pi circ : Array Nat) : Array Nat :=
  (List.range c.ports).foldl (fun st a =>
    let b := ag pi a
    if ag circ a = 0 ∨ c.ports ≤ b then st else aset st (posKey (a + b) (a - (a + b + 1 - c.ports))) 1) noStates

/-- One crossing of a cell: position key, side entered, side left. -/
abbrev Hop := Nat × Nat × Nat

/-- R94: the crossings of a signal through stages `s ..` of a Beneš stack; `k` stages. -/
def traceBenes (topo n off : Nat) (st : Array Nat) : Nat → Nat → Nat → List Hop × Nat
  | 0, _, x => ([], x)
  | k + 1, s, x =>
    let d := stageDim topo n s
    let key := posKey s (off + lineRow d x)
    let y := if ag st key % 2 = 1 then flip x d else x
    let r := traceBenes topo n off st k (s + 1) y
    ((key, b2n (bit x d), b2n (bit y d)) :: r.1, r.2)

/-- R96: the crossings of a signal in the crossbar from cell (a, b), entered on `side`; ends at the east port of an exit
cell, or at a terminated output (`none16`). -/
def traceCross (ports : Nat) (st : Array Nat) : Nat → Nat → Nat → Nat → List Hop × Nat
  | 0, _, _, _ => ([], none16)
  | f + 1, a, b, side =>
    let key := posKey (a + b) (a - (a + b + 1 - ports))
    let o := if ag st key % 2 = 1 then 1 - side else side
    if o = 0 then
      if a = b then ([(key, side, 0)], none16)
      else let r := traceCross ports st f a ((b + 1) % ports) 0
           ((key, side, 0) :: r.1, r.2)
    else
      if a = b then ([(key, side, 1)], b)
      else let r := traceCross ports st f ((a + ports - 1) % ports) b 1
           ((key, side, 1) :: r.1, r.2)

/-- R94 to R96: the crossings of the signal on west line `x`, and the east line it reaches. -/
def traceLine (topo n ports : Nat) (st : Array Nat) (x : Nat) : List Hop × Nat :=
  if topo = 0 then traceBenes 0 n 0 st (2 * n - 1) 0 x
  else if topo = 1 then traceBenes 1 n 0 st (2 * n) 0 x
  else if topo = 2 then
    let p := ag st (posKey 0 x) % 2
    let r := traceBenes 2 n (p * (ports / 2)) st (2 * n - 1) 1 x
    let key := posKey (2 * n) r.2
    let q := ag st key % 2
    ((posKey 0 x, 0, p) :: r.1 ++ [(key, p, if p = q then 0 else 1)], if p = q then r.2 else none16)
  else traceCross ports st (2 * ports) x ((x + 1) % ports) 0

/-- R94, R95, R96: the line of a port. -/
def portLine (g : Nat → Nat) (east : Bool) (p : Nat) : Nat :=
  let c := portCell g east p
  let topo := mapTopo g
  let n := mapPorts g
  if topo = 0 ∨ topo = 1 then
    let d := stageDim topo (log2n n) (cellStage g c)
    let r := cellRow g c
    setBit (r % 2 ^ d + 2 ^ (d + 1) * (r / 2 ^ d)) d (portSide g east p)
  else if topo = 2 then cellRow g c
  else if east then cellStage g c - (cellRow g c + (cellStage g c + 1 - n)) else cellRow g c + (cellStage g c + 1 - n)

/-- R97: the filler pairs: unconnected lanterns first, then the remaining unconnected ports, ascending. -/
def fillers (g : Nat → Nat) (ch : BitVec 8192) : List (Nat × Nat) :=
  let ps := List.range (mapPorts g)
  let taken := ps.filterMap (chartEast ch)
  let w := ps.filter (fun p => portPresent g false p && (chartEast ch p).isNone)
  let e := ps.filter (fun p => portPresent g true p && !taken.contains p)
  let first := (w.filter (portLantern g false)).zip (e.filter (portLantern g true))
  first ++ (w.filter (fun p => !(first.map (·.1)).contains p)).zip (e.filter (fun p => !(first.map (·.2)).contains p))

/-- R93 to R104: the result of a solve. -/
structure Solution where
  st : BitVec 12288
  unroute : List Nat
  pass : Nat
  deriving DecidableEq, Repr

/-- The state code of a cell in a vector. -/
def stateOf (v : BitVec 12288) (i : Nat) : Nat := bits v.toNat (2 * i) 2

/-- One pass: its configuration (toggled rows or swapped chains, inversion), raw states, and the lines of blocked circuits. -/
structure PassRes where
  cfg : List Nat
  inv : Bool
  raw : Array Nat
  blocked : List Nat
  deriving DecidableEq, Repr

/-- The solve's input from the map and a fault test. -/
def solveIn (g : Nat → Nat) (fault : Nat → Bool) : SolveIn :=
  { topo := mapTopo g, n := log2n (mapPorts g), ports := mapPorts g, pos := posTab g,
    il := amk 6144 (cellIL g), retired := amk 6144 (fun i => b2n (fault i)) }

/-- A crossing of a retired cell. -/
def hopRetired (c : SolveIn) (h : Hop) : Bool := decide (ag c.retired (ag c.pos h.1) = 1)

/-- R103: run a pass of a configuration. -/
def runPass (c : SolveIn) (pi circ : Array Nat) (cfg : List Nat) (inv : Bool) : PassRes :=
  let raw := if c.topo = 0 ∨ c.topo = 1 then solveBenes c pi circ cfg inv
    else if c.topo = 2 then solveDilated c pi circ cfg else solveCross c pi circ
  { cfg := cfg, inv := inv, raw := raw,
    blocked := (List.range c.ports).filter (fun x => decide (ag circ x = 1) &&
      (traceLine c.topo c.n c.ports raw x).1.any (hopRetired c)) }

/-- R103: the configuration of the pass that follows a pass that blocked circuits. -/
def nextCfg (c : SolveIn) (pi : Array Nat) (p : PassRes) : List Nat × Bool :=
  if c.topo = 0 then (p.cfg, !p.inv)
  else if c.topo = 1 then
    let add := ((p.blocked.map (lineRow 0)).eraseDups).filter (fun r => !p.cfg.contains r)
    if add.isEmpty then (p.cfg, !p.inv) else (p.cfg ++ add, p.inv)
  else if c.topo = 2 then
    let add := ((planeChains c pi).filter (fun l => l.any (fun e => p.blocked.contains e.1))).map (fun l => (l.headD (0, 0)).1)
    (p.cfg ++ add.filter (fun a => !p.cfg.contains a), p.inv)
  else (p.cfg, p.inv)

/-- R103: the passes made, in order; a pass that would make no change or reproduce an earlier one does not run. -/
def passes (c : SolveIn) (pi circ : Array Nat) : Nat → List PassRes → PassRes → List PassRes
  | 0, acc, p => acc ++ [p]
  | k + 1, acc, p =>
    if p.blocked.isEmpty then acc ++ [p] else
    let nx := nextCfg c pi p
    if (acc ++ [p]).any (fun q => decide (q.inv = nx.2) && q.cfg.all nx.1.contains && nx.1.all q.cfg.contains) then acc ++ [p]
    else passes c pi circ k (acc ++ [p]) (runPass c pi circ nx.1 nx.2)

/-- R104: the pass with the fewest blocked circuits, the earlier on a tie, with its number from 1. -/
def choosePass : List PassRes → Nat → Option (PassRes × Nat)
  | [], _ => none
  | p :: r, k => match choosePass r (k + 1) with
    | none => some (p, k)
    | some (q, j) => if q.blocked.length < p.blocked.length then some (q, j) else some (p, k)

/-- R51, R100, R103: the state codes from a pass: circuits, then fillers, then IDLE_BAR; a retired cell is IDLE_BAR, and a filler's path
ends at it (notes/assumptions/83). -/
def stateCodes (g : Nat → Nat) (c : SolveIn) (pi circ : Array Nat) (raw : Array Nat) : BitVec 12288 :=
  let mark (m : Array Nat) (x v : Nat) : Array Nat :=
    let path := (traceLine c.topo c.n c.ports raw x).1
    (if v = 1 then path.takeWhile (fun h => !hopRetired c h) else path).foldl (fun m h => aset m h.1 (max v (ag m h.1))) m
  let m := (List.range c.ports).foldl (fun m x =>
    if ag circ x = 1 then mark m x 2 else if c.topo = 3 ∨ ag pi x = none16 then m else mark m x 1) (Array.replicate (512 * 128) 0)
  let code (i : Nat) : Nat :=
    let k := posKey (cellStage g i) (cellRow g i)
    if !cellPresent g i || decide (ag c.retired i = 1) then 2
    else if ag m k = 2 then ag raw k else if ag m k = 1 then 2 + ag raw k else 2
  BitVec.ofNat 12288 ((List.range 6144).foldr (fun i acc => code i + 4 * acc) 0)

/-- R93: the solve of a chart with a fault set. -/
def solve (g : Nat → Nat) (fault : Nat → Bool) (ch : BitVec 8192) : Solution :=
  let c := solveIn g fault
  let ps := List.range c.ports
  let circuits := ps.filterMap (fun w => (chartEast ch w).map (fun e => (w, e)))
  let put (t : Array Nat) (l : List (Nat × Nat)) (f : Nat × Nat → Nat) : Array Nat :=
    l.foldl (fun t p => aset t (portLine g false p.1) (f p)) t
  let pi := put (put (Array.replicate c.ports none16) circuits (fun p => portLine g true p.2))
    (if c.topo = 3 then [] else fillers g ch) (fun p => portLine g true p.2)
  let circ := put (Array.replicate c.ports 0) circuits (fun _ => 1)
  match choosePass (passes c pi circ 3 [] (runPass c pi circ [] false)) 1 with
  | none => { st := 0, unroute := [], pass := 1 }
  | some (p, k) =>
    { st := stateCodes g c pi circ p.raw,
      unroute := (circuits.map (·.1)).filter (fun w => p.blocked.contains (portLine g false w)),
      pass := k }

/-! Paths in a state vector. -/

/-- The raw states by position of a state vector. -/
def rawOf (g : Nat → Nat) (v : BitVec 12288) : Array Nat :=
  (List.range 6144).foldl (fun t i => if cellPresent g i then aset t (posKey (cellStage g i) (cellRow g i)) (stateOf v i % 2) else t) noStates

/-- R24, R32: the crossings of a west port's light under a state vector: cell, side entered, side left. -/
def pathOf (g : Nat → Nat) (raw pos : Array Nat) (w : Nat) : List Hop × Nat :=
  let n := mapPorts g
  let r := traceLine (mapTopo g) (log2n n) n raw (portLine g false w)
  (r.1.map (fun h => (ag pos h.1, h.2.1, h.2.2)), r.2)

end Sys2Proof.Machine
end

