-- ==== Sys2Proof/Machine/State.lean ====
section
/-! DEFINITION. The state of the device: plain data. Registers live in one file by device address (an unlisted register
holds its reset value), SRAM windows in one byte memory by device address; what has no address has a field here. Times of
day are device TAI in units of 2^-40 ns; `up` times are elapsed nanoseconds since power-on. -/

namespace Sys2Proof.Machine

/-- What the device sends to the outside, in the order sent (notes/assumptions/5). -/
inductive Output where
  /-- A completion record written to entry `tail` of the completion ring of port `p`, ring `r` (R312, R319). -/
  | record (p r tail : Nat) (rec : BitVec 256)
  /-- An MSI-X message of port `p` for a vector (R329). -/
  | msix (p vec : Nat)
  /-- A descriptor read request: ring, first entry, count (R322). -/
  | fetch (p r first count : Nat)
  /-- A chart image read request (R109). -/
  | imageRead (p : Nat) (addr : BitVec 64)
  /-- A status block write (R315). -/
  | statusBlock (p : Nat) (bytes : List Nat)
  /-- A telemetry record written to a host buffer at an offset (R328). -/
  | stream (p i ofs : Nat) (bytes : List Nat)
  /-- A notice or telemetry frame (R296): port, destination MAC, tag (PCP and VID, R291), transport (0 Ethertype, 1 UDP/IPv4,
  2 UDP/IPv6), destination IP address, UDP ports (source, destination), payload bytes in wire order. -/
  | frame (e dst : Nat) (tag : Option (Nat × Nat)) (transport ip : Nat) (ports : Nat × Nat) (payload : List Nat)
  /-- The telemetry frame in progress on a port ends with an inverted FCS (R291). -/
  | abort (e : Nat)
  /-- A PTP message sent from a port (R293): message type, sequence, its timestamp and correction in 2^-16 ns. -/
  | ptp (e typ seq : Nat) (ts corr : Int)
  /-- What firmware sends on a port (R279, R290, R293): 0 ARP reply, 1 neighbour advertisement, 2 ESMC, 3 Management response,
  4 Announce; what it carries. -/
  | firmware (e kind data : Nat)
  /-- Data returned to a register read (R404, R406). -/
  | data (m : Master) (w : BitVec 32)
  /-- An access fault returned to the supervisor (R404): store or load. -/
  | supFault (wr : Bool)
  /-- Bytes returned on the forerunner SPI port (R330). -/
  | spi (bytes : List Nat)
  /-- A configuration request's answer: retry status, or a data word (R305). -/
  | config (p : Nat) (retry : Bool) (w : BitVec 32)
  /-- An edge of a bell output: level of the pin and its device time in 2^-40 ns (R286). -/
  | bellOut (n : Nat) (high : Bool) (t : Nat)
  /-- An edge of PPS_OUT (R287), likewise. -/
  | ppsOut (high : Bool) (t : Nat)
  /-- A maintenance status byte (R406). -/
  | mntStatus (b : Nat)
  /-- What the test port shifts out (R419). -/
  | tdo (w : BitVec 64)
  deriving DecidableEq, Repr

/-! ## Fault collector -/

/-- R354, R356: an open fault slot. -/
structure Slot where
  kind : Nat
  addr : Nat
  info : Nat
  at_ : Nat
  lost : Nat
  lastKind : Nat
  forced : Bool
  deriving DecidableEq, Repr

/-- FLT: open slots by source, the source served last (R356), and force bits waiting for the next drive tick (R359). -/
structure Flt where
  slots : Tab Slot
  last : Nat
  deriving DecidableEq, Repr

/-! ## Host interface -/

/-- One ring pair (32 is the SPI port's queue as a source): doorbell tail, the doorbells not yet fetched with their arrival
times, the fetch in flight, the scheduler's tag and meter, and interrupt moderation (R311, R321 to R326, R329). -/
structure Ring where
  tail : Nat
  doors : List (Nat × Nat)
  flight : Option (Nat × Nat)
  tag : Nat
  bc : Nat
  bp : Nat
  met : Nat
  irqN : Nat
  irqAt : Nat
  deriving DecidableEq, Repr

def Ring.init : Ring := ⟨0, [], none, 0, 0, 0, 0, 0, 0⟩

/-- R327: one telemetry stream: its settings word for word, SEQ, next offset, next period, and records waiting. -/
structure Stream where
  on : Bool
  kind : Nat
  content : Nat
  dest : Nat
  period : Nat
  addr : BitVec 64
  len : Nat
  ip6 : BitVec 128
  src : Nat
  words : Nat
  udpSrc : Nat
  seq : Nat
  ofs : Nat
  next : Nat
  queue : List (List Nat)
  deriving DecidableEq, Repr

def Stream.init : Stream := ⟨false, 0, 0, 0, 0, 0, 0, 0, 0, 0, 0, 0, 0, 0, []⟩

/-- A host port: PCIe state outside the register file (R302 to R306), status block (R315), shaper bucket (R328), event
interrupt pacing (R358), configuration space writes. -/
structure Port where
  msixEn : Bool
  msixMask : Bool
  noSoftReset : Bool
  cfg : Tab (BitVec 32)
  sblkDirty : Option Nat
  sblkSeq : Nat
  bucket : Nat
  bucketAt : Nat
  faultWait : Bool
  faultLast : Option Nat
  streams : Tab Stream
  deriving DecidableEq, Repr

def Port.init : Port := ⟨false, false, false, [], none, 0, 65536000, 0, false, none, []⟩

/-- A completion record not yet written: destination source number, the record without PHASE, owed, and whether it takes a
reserved entry of ring 0 (R313). -/
structure Rec where
  dst : Nat
  order : Nat
  status : Nat
  typ : Nat
  kind : Nat
  sqIndex : Nat
  aux : Nat
  sec : Nat
  ns : Nat
  detail : Nat
  owed : Bool
  reserved : Bool
  deriving DecidableEq, Repr

/-- A fetched descriptor on its way to admission (R19, R337, R340): `tIn` is set when it enters admission; `lanesIn`, `solvedIn` and `runIn`
are the healthy lanes, the solved bells (by order number) and the ns that remain to RUN at that instant (R64, R392). -/
structure Entry where
  raw : BitVec 512
  fmt1 : Bool
  src : Nat
  port : Nat
  idx : Nat
  tIssue : Nat
  tFetch : Nat
  door : Nat
  order : Nat
  img : Option (BitVec 8192)
  imgErr : Bool
  imgWait : Bool
  hold : Nat
  holdEnd : Option Nat
  tIn : Option Nat
  seq : Nat
  lanesIn : Nat
  solvedIn : List Nat
  runIn : Nat
  deriving DecidableEq, Repr

/-- HIF and ISC: ports, rings, descriptors between fetch and admission, records waiting for a link (R306), the URGENT ring
served last (R322), format 1 counts (R318), whether intake is stopped by a restart or a shut-down (R307, R377), and doorbells
latched meanwhile. -/
structure Hif where
  pa : Port
  pb : Port
  rings : Tab Ring
  fetched : List Entry
  waiting : List Rec
  lastUrgent : Nat
  f1Count : Tab Nat
  entrySeq : Nat
  paused : Bool
  notices : Tab (List (List Nat))
  frameSeq : Tab Nat
  deriving DecidableEq, Repr

/-! ## Two hosts -/

/-- R334 to R349 beyond the registers: lease, ARM, the lease that ended last, the challenges. -/
structure Dual where
  holder : Option Nat
  epoch : Nat
  expiry : Nat
  arm : Option (Nat × Nat)
  oldHolder : Option Nat
  oldEnd : Nat
  overlapOpen : Bool
  obsA : Bool
  obsB : Bool
  divA : Nat
  divB : Nat
  chalA : Option (Nat × Nat)
  chalB : Option (Nat × Nat)
  lastChalA : Nat
  lastChalB : Nat
  nextChal : Nat
  npBaseA : Nat
  npBaseB : Nat
  divWait : List (Nat × Nat)
  twinWait : List (Nat × Nat × Bool)
  deriving DecidableEq, Repr

/-! ## Forerunner SPI port and maintenance port -/

/-- R330, R331: completion records waiting, records owed, submissions waiting, QFULL. -/
structure Spi where
  cpls : List (BitVec 256)
  owed : Nat
  queue : List Entry
  qfull : Bool
  deriving DecidableEq, Repr

/-- R406: the word address and the status bits ERR, PEC_ERR, REFUSED; R417: the port's address from the straps. -/
structure Mnt where
  addr : Nat
  err : Bool
  pec : Bool
  refused : Bool
  smbAddr : Nat
  deriving DecidableEq, Repr

/-! ## Bell pipeline -/

/-- R86: a recess span: offset and length in ns; `mask` is its group's mask from its begin on (R92). -/
structure Span where
  group : Nat
  mask : BitVec 512
  ofs : Nat
  len : Nat
  begun : Bool
  ended : Bool
  deriving DecidableEq, Repr

/-- An entry of a plan: heater channel, MODE, wave, range, final code, 32 codes (absolute, also of a counter-kick), and the outgoing power
and the larger of outgoing and final power in 2^-16 mW (R69). -/
structure PEntry where
  h : Nat
  mode : Nat
  wave : Nat
  rng : Nat
  fin : Nat
  smp : List Nat
  outP : Nat
  base : Nat
  deriving DecidableEq, Repr

/-- The plan of a bell (R68 to R71): waves, planned peak and energy, changing cells with their wave, the tiles and entries. `kick` says
that some entry selects the KICK rail (R253); `drives` are the drive phases that the changing cells are planned to end at (R181). -/
structure Plan where
  waves : Nat
  peak : Nat
  energy : Nat
  cells : List (Nat × Nat)
  tiles : List Nat
  scaled : Bool
  kick : Bool
  entries : List PEntry
  drives : List (Nat × Int)
  deriving DecidableEq, Repr

/-- R66: what a bell's solve and plan take, kept from the bell's cut-off where an event fell after it and before them: the fault set, the
active tables, PWR_STATUS and the targets of the hold rails. -/
structure Inputs where
  fault : Tab Byte
  cal : Tab Byte
  status : BitVec 32
  targets : List (BitVec 32)
  deriving DecidableEq, Repr

/-- What verify has found for a bell (R77 to R81); `failed` are the cells that failed their landing check, `rTiles` and `rEnergy` the tiles
and the energy of the retry. -/
structure Verify where
  failed : List Nat
  rTiles : List Nat
  rEnergy : Nat
  judged : List Nat
  retry : List Nat
  beyond : List Nat
  landed : List Nat
  retired : List Nat
  nRetry : Nat
  nExcur : Nat
  landLast : Nat
  dark : BitVec 512
  changed : BitVec 512
  passOn : List Nat
  stage : Nat
  deriving DecidableEq, Repr

def Verify.init : Verify := ⟨[], [], 0, [], [], [], [], [], 0, 0, 0, 0, 0, [], 0⟩

/-- An accepted bell, or a repair fire (index 4,096 and above). `t` is the instant in ns of TAI; `st` is STATE of R91; `pCell` and `eCell`
are the kick limits that its plans use (R92). -/
structure Bell where
  idx : Nat
  order : Nat
  t : Nat
  slot : Nat
  gen : Nat
  st : Nat
  now : Bool
  quiet : Bool
  outmask : Nat
  spans : List Span
  twoWave : Bool
  src : Nat
  tag : Nat
  tIn : Nat
  nInval : Nat
  sol : Option Solution
  plan : Option Plan
  stagedTiles : List Nat
  ver : Verify
  twins : List Nat
  repair : Bool
  covers : List Nat
  inval : Bool
  pCell : Nat
  eCell : Nat
  held : Option Inputs
  deriving DecidableEq, Repr

/-- A lane's solve: 0 a bell or repair (by index), 1 a route check, 2 a cross-check duplicate; started at `at_`. -/
structure Lane where
  kind : Nat
  bell : Nat
  at_ : Nat
  fault : BitVec 6144
  slot : Nat
  chart : BitVec 8192
  deriving DecidableEq, Repr

/-- R112: a route check waiting or running. -/
structure Check where
  slot : Nat
  order : Nat
  tIn : Nat
  src : Nat
  idx : Nat
  typ : Nat
  deadline : Nat
  deriving DecidableEq, Repr

/-- BEL and RTS beyond the registers. `inForce` is the chart in force with its solution; `retireQ` are retirement requests
(R360): cell, kind and the instant (ns of TAI) from which it is served; bells up to `skipTo` lie in a restart window (R90); `cutOff` are the bells whose
verify a restart cut off; `reroutes` the retirements whose re-route waits for the pipeline (R80); `openSpans` the spans of fired bells; `forceSrc` the ring source of
the bell whose chart is in force, and `lost` the circuits that a fault interrupted, with the owning port (2 where no bell has fired), until
a report names them (R31); `played` the instant and entries of the last fire (R68). -/
structure Bel where
  bells : List Bell
  repairIdx : Nat
  laneA : Option Lane
  laneB : Option Lane
  checks : List Check
  solveCount : Nat
  xcheckDue : Bool
  forceChart : BitVec 8192
  forceSlot : Option Nat
  sol : Option Solution
  retireQ : List (Nat × Nat × Nat)
  lastFire : Option Nat
  skipTo : Nat
  cutOff : List Nat
  reroutes : List Nat
  openSpans : List (Nat × Span)
  forceSrc : Option Nat
  lost : List (Nat × Nat)
  played : Option (Nat × List PEntry)
  deriving DecidableEq, Repr

/-! ## Temperature -/

/-- THM beyond the registers (R372 to R377): since when (up time, ns) a sensor deviates, is trustworthy again, and whether it
was at SHUT on the last publication; the release dwells (of the present
level, and of level 1 while the level is 2), the grace deadline, the next publication. Sensors 0 to 63 are die
sensors, 64 + t PIC tile t. -/
structure Thm where
  devSince : Tab Nat
  okSince : Tab Nat
  shutOnce : List Nat
  relSince : Option Nat
  relOne : Option Nat
  grace : Option Nat
  nextPub : Nat
  deriving DecidableEq, Repr

/-! ## Boot, resets and power states -/

/-- R386: one half of the image store: whether its CRC holds, the customer code and the parameter blocks it carries. -/
structure StoreHalf where
  ok : Bool
  code : Tab Byte
  param : Tab Byte
  deriving DecidableEq, Repr

/-- A warm restart asked for or in progress (R385 to R388): cause (GLB_RST_CAUSE.LAST), start of the window in `up` time and
TAI, whether RST_N is low, whether the command side was reset and the pipeline runs again. -/
structure Restart where
  asked : Option (Nat × Bool)
  upAt : Nat
  taiAt : Nat
  rstLow : Bool
  inWindow : Bool
  deriving DecidableEq, Repr

/-- GLB and BOOT beyond the registers: the boot flash (an unlisted byte reads 0xFF, erased), the image store halves, the
booted slot, the watchdog's last kick, the power-state request's deadline, flash operations and journal write-backs in
progress, whether supplies are valid, and the cells that were retired when a supply was lost (R53). -/
structure Boot where
  flash : Tab Byte
  flashSize : Nat
  h0 : StoreHalf
  h1 : StoreHalf
  dogAt : Nat
  dogRun : Bool
  pstAt : Option Nat
  pstWake : Option Nat
  opAt : Option (Nat × Nat)
  jBusy : Bool
  jWant : Bool
  jLast : Option Nat
  jSeq : Nat
  released : Option Nat
  auxValid : Bool
  powered : Bool
  wasRetired : List Nat
  deriving DecidableEq, Repr

/-- Outputs held at a level: SMB_ALERT_N asserted (R358, R377), LEG_IRQ_N asserted (R330), PWM outputs driven low (R421),
the sink clamp on every heater output (R421, R419), EXTEST in force (R419). -/
structure Pins where
  alert : Bool
  legIrq : Bool
  pwmLow : Bool
  clamp : Bool
  extest : Bool
  deriving DecidableEq, Repr

/-! ## Power -/

/-- R265, R270: a granted pass at its table entry: peaks in 10 mW, energies in 10 nJ, times in ns of TAI. -/
structure GPass where
  entry : Nat
  id : Nat
  kind : Nat
  waves : Nat
  tile : Nat
  peak : Nat
  energy : Nat
  start : Nat
  len : Nat
  trimmed : Bool
  played : Bool
  deriving DecidableEq, Repr

/-- R250 to R254: a rail's reference as a ramp in nV from `v0` at up time `t0` to `v1` with `slope` nV per ns; since when it is
out of regulation; when a lowered target's reference starts to fall; its trip input; whether its trip limit is reached. -/
structure Rail where
  v0 : Nat
  v1 : Nat
  t0 : Nat
  slope : Nat
  outAt : Option Nat
  fallAt : Option Nat
  tripIn : Bool
  tripDue : Bool
  deriving DecidableEq, Repr

def Rail.init : Rail := ⟨0, 0, 0, 0, none, none, false, false⟩

/-- R255 to R262: a PWM channel: the start of its period in half ns of up time, writes that wait for a boundary, writes held for
COMMIT, whether the period is tripped and cut, its trip input, EN, RAIL and dead times in force, and the earliest tick of
PWMn_L after an immediate cut. -/
structure Pwm where
  start : Nat
  perW : Option Nat
  cmpW : Option Nat
  perH : Option Nat
  cmpH : Option Nat
  tripped : Bool
  cut : Bool
  fIn : Bool
  en : Bool
  rail : Nat
  dtR : Nat
  dtF : Nat
  lMin : Nat
  deriving DecidableEq, Repr

def Pwm.init : Pwm := ⟨0, none, none, none, none, false, false, false, false, 7, 8, 8, 0⟩

/-- PWR beyond the registers: granted passes, the last pass number, the energy charged to each 10 µs bin (R265),
rails and PWM channels, open KICK windows (bell index and closing instant, R253), the shut-down ramp (R254), and the watch
token bucket in thousandths (R264). -/
structure Pwr where
  passes : List GPass
  lastId : Nat
  bins : Tab Nat
  rails : Tab Rail
  pwms : Tab Pwm
  wins : List (Nat × Nat)
  shutAt : Option Nat
  railsOff : Bool
  tok : Nat
  tokAt : Nat
  deriving DecidableEq, Repr

/-! ## Drive array -/

/-- R128: a profile that plays on a channel: the entry's mode, its range, T or the FINAL code, its samples, the wave offset in
ticks, the strobe instant in ns of TAI, whether it is a retry, whether CODE_VMAX limits its final code, and whether tick `o` has come. -/
structure Play where
  mode : Nat
  rng : Nat
  fin : Nat
  samples : List Nat
  o : Nat
  t0 : Nat
  retry : Bool
  vlim : Bool
  begun : Bool
  deriving DecidableEq, Repr

/-- A heater channel beyond its registers: pending register written since the last load (R123), slew target and the instant of
the next step (R130), the last eight resistances (R118), DOWN thresholds (R119), a mismatch seen once (R139), the profile that
plays, the fault value in force (R140), ownership that ends with a REL entry's last tick (R125), and the kind of the fault condition
detected last (R141). -/
structure Chan where
  written : Bool
  target : Nat
  stepAt : Nat
  meas : List Nat
  down : List Nat
  mis : Bool
  play : Option Play
  atFault : Bool
  ownRel : Bool
  cond : Nat
  deriving DecidableEq, Repr

def Chan.init : Chan := ⟨false, 0, 0, [], [0, 0, 0, 0], false, none, false, false, 0⟩

/-- R142: a self-test running: the channel, how many of its 126 codes have been reached, the code to return to, and the start (up time). -/
structure SelfTest where
  ch : Nat
  step : Nat
  prior : Nat
  start : Nat
  deriving DecidableEq, Repr

/-- DRV beyond the registers: channels by heater channel number, the self-test of each tile (R142), and each tile's housekeeping
converter: the channel measured next and the up time at which that measurement falls due (R118). -/
structure Drv where
  chans : Tab Chan
  tests : Tab (Option SelfTest)
  house : Tab (Nat × Nat)
  deriving DecidableEq, Repr
/-! ## Monitor array -/

/-- A photodiode input beyond its registers: the block's sum, samples, N and SHIFT; whether no block has completed since the
restart; the block's GAP, FLAG and OVER (R155); tracked DARK_ref and T_ref (R147); the end of a window hold and of blanking
(R145, R150); disagreeing samples in a row (R164); a gain change that waits for a burst; an exit whose filter time has not passed (R149);
the DARK in effect (R147); gain, N and SHIFT of the published average (R155); the gain and the code of the newest measurement (R175). -/
structure Inp where
  sum : Nat
  m : Nat
  n : Nat
  sh : Nat
  first : Bool
  gap : Bool
  flag : Bool
  ov : Bool
  ref : Option (Nat × Int)
  holdEnd : Option Nat
  blankEnd : Nat
  bad : Nat
  gainWait : Option Nat
  exitWait : Bool
  darkOn : Nat
  pubG : Nat
  pubN : Nat
  pubSh : Nat
  lastG : Nat
  lastV : Nat
  deriving DecidableEq, Repr

def Inp.init : Inp := ⟨0, 0, 16, 4, true, false, false, false, none, none, 0, 0, none, false, 0, 0, 16, 4, 0, 0⟩

/-- A watch request (R156, R157, R217): input, burst record and tag, whether it serves a bell, and whether a TAU fit (R238). -/
structure Req where
  input : Nat
  rcd : Nat
  tag : Nat
  bell : Bool
  cal : Bool
  deriving DecidableEq, Repr

/-- A pair: queued requests and the burst in progress with its start and its number of samples (R156, R157). -/
structure Pair where
  queue : List Req
  burst : Option (Req × Nat × Nat)
  deriving DecidableEq, Repr

def Pair.init : Pair := ⟨[], none⟩

/-- MON beyond the registers: inputs and ADC scan positions, runs of disagreeing inputs per ADC (R164), pairs, the
self-calibration in progress (all, or one ADC, R163), the temperature and DARK reference of each tile (R147), the photodiode bias of
each tile in mV with the up time of its enable (R146), the six capacitor-weight corrections of each ADC (R163), and the inputs whose
exit raised no wake (R151). -/
structure Mon where
  inps : Tab Inp
  slots : Tab Nat
  runs : Tab (List Nat)
  pairs : Tab Pair
  calRun : Option (Option Nat)
  tileT : Tab Int
  lastT : Tab Int
  bias : Tab (Nat × Nat)
  caps : Tab (List Nat)
  masked : List Nat
  deriving DecidableEq, Repr

/-! ## Taruk cores -/

/-- A write that has not reached its place (R205): the instructions it still has to wait, and 0 a register, 1 the flags, 2 the
data memory. -/
structure Late where
  n : Nat
  kind : Nat
  key : Nat
  len : Nat
  val : Nat
  deriving DecidableEq, Repr

/-- What happens after a delay slot (R205). -/
inductive Ctl where
  | jump (a : Nat)
  | ret
  | reth
  | sleep
  | wait (c : WaitCond)
  deriving DecidableEq, Repr

/-- A correction of the hold law (R178) between its computation and its LOAD: the cell, the measurement (strong output, P_s, P_w, |e|), the
sign of e, Δu, and the weak output's current at the wake. -/
structure Corr where
  cell : Nat
  out : Nat
  ps : Nat
  pw : Nat
  err : Nat
  sg : Int
  du : Int
  weak : Nat
  deriving DecidableEq, Repr

/-- R221: what the stock kernel does when the hook that it called ends: the correction of WAKE_POST, or nothing after IDLE and TELEM. -/
inductive HookWork where
  | post (c : Corr)
  | idle
  | telem
  deriving DecidableEq, Repr

/-- A Taruk core (R198 to R218): the register file by bank × 64 + index, pc, level, flags and sticky bits of CST, late writes,
the delay slot's control transfer, return addresses, preempted levels, the WAIT condition, pending levels, timer compares
(armed values plus 1), the neighbour FIFO, since when each level runs (its entry at 16 + level), the hook that each level runs
(return address, cycles, budget), cycles, the staging copy in progress (slot + 1, tag, start), by level what the kernel does after a
hook that it called, with whether the level was entered for it, and after a hook fault 1 until HOOK_EN is written 0, then 2 until it
is written 1 (R222). -/
structure Core where
  rf : Tab Nat
  pc : Nat
  level : Nat
  cmode : Bool
  flags : Nat
  modout : Bool
  aov : Bool
  sat : Bool
  modreg : Nat
  cause : Nat
  late : List Late
  ctl : Option Ctl
  calls : List Nat
  stack : List Nat
  waitOn : Option WaitCond
  pend : Nat
  tcmp : Tab Nat
  fifo : List (Nat × Nat)
  since : Tab Nat
  hooks : Tab (Nat × Nat × Nat)
  cyc : Nat
  stage : Option (Nat × Nat × Nat)
  work : Tab (HookWork × Bool)
  hookStop : Nat
  deriving DecidableEq, Repr

def Core.init : Core := ⟨[], 0, 0, false, 0, false, false, false, 0, 0, [], none, [], [], none, 0, [], [], [], [], 0, none, [], 0⟩

/-- A neighbour message on its way (R189, R218): sent at, sender tile, victim tile, victim cell, Δu. -/
structure Msg where
  at_ : Nat
  src : Nat
  tile : Nat
  cell : Nat
  du : Nat
  deriving DecidableEq, Repr

/-- TRK: cores, their memories (core × 2^16 + address), the tiles' context stores (tile × 2^14 + offset), messages, tiles
that wait for migration with the failed core, the migration in progress (tile, spare, start), the cores that failed their last
self-test, and the words that POST reported to BEL. Core 100 of `imem` is the loaded image's customer code. -/
structure Trk where
  cores : Tab Core
  dmem : Tab Byte
  imem : Tab Byte
  ctx : Tab Byte
  msgs : List Msg
  migrate : List (Nat × Nat)
  moving : Option (Nat × Nat × Nat)
  unfitCores : List Nat
  posts : List (Nat × Nat)
  deriving DecidableEq, Repr
/-! ## Hold loops and calibration -/

/-- What the stock kernel keeps for a cell beyond its record (R173 to R191, R244): the settle deadline; the sign check (deadline,
weak current before, Δu); the probe (deadline, weak current before, |e|); the recovery test (deadline, |e_0|); the arrival (start,
next measurement, consecutive results); consecutive dark results; the next ramp step; the neighbour sum in 2^-16 turns16; the
temperature at the last correction; the efficiencies in use until the next fire; the net carries of ACC under clamp (R190); the RAMP_N
that the ramp counts from; the drive phase that a wrap in progress goes through. Times are `up` times. -/
structure HCell where
  settleAt : Option Nat
  signAt : Option (Nat × Nat × Int)
  probeAt : Option (Nat × Nat × Nat)
  recAt : Option (Nat × Nat)
  arrFrom : Option Nat
  arrAt : Nat
  hiN : Nat
  loN : Nat
  rampAt : Option Nat
  nb : Int
  tLast : Int
  held : Option (Nat × Nat)
  carry : Int
  rampN : Nat
  wrapAt : Option Int
  deriving DecidableEq, Repr

def HCell.init : HCell := ⟨none, none, none, none, none, 0, 0, 0, none, 0, 0, none, 0, 0, none⟩

/-- The hold path beyond records and summaries: cells, the tiles' parameter snapshots (tile × 64 + offset, R194), the temperature
of each tile's last TEMP wake, the largest |e| since the last refresh with its cell, and the last refresh of each summary (`up` time). -/
structure Hold where
  cells : Tab HCell
  param : Tab Byte
  tempAt : Tab Int
  eMax : Tab (Nat × Nat)
  sumAt : Tab Nat
  deriving DecidableEq, Repr

/-- R232, R240: a sweep or steer: the arm swept first (1 south), the output that the target lights, the point reached (0 to 19), the points measured (|u| and |e|),
the end of the present dwell, the hall pass entry, the return codes (heater channel, code, range), the lantern port + 1 with the
path cells, the span's bell, the smallest x so far (2^-96), the TAU fit (the first point's load in `up` time, bursts taken, a burst asked for, delays in ns and mean codes),
and for each victim of the last step (8 × cell + coupling entry)
its error less its drive phase before the step and the power step in 2^-16 mW (R233). -/
structure Sweep where
  arm : Nat
  side : Nat
  point : Nat
  pts : List (Nat × Nat)
  due : Nat
  pass : Option Nat
  back : List (Nat × Nat × Nat)
  port : Nat
  path : List Nat
  span : Option Nat
  ext : Nat
  tauAt : Nat
  tauN : Nat
  tauOpen : Bool
  tauPts : List (Nat × Nat)
  vict : List (Nat × Int × Int)
  deriving DecidableEq, Repr

/-- CAL beyond its registers and tables: rounds (tile: start, temperature), sweeps by cell, cells whose pass request waits for a
repetition (R268), sweeps accepted since the swap by tile, ready tiles, consecutive rejections by cell, cells asked for by a
descriptor, the last swap, a restart's rounds, the cells that a repair fire stopped and lands (R239). -/
structure Cal where
  rounds : Tab (Nat × Int)
  sweeps : Tab Sweep
  waits : Tab Nat
  accs : Tab Nat
  ready : List Nat
  rejs : Tab Nat
  asked : List Nat
  lastSwap : Option Nat
  firstRel : List Nat
  stopped : List Nat
  deriving DecidableEq, Repr

/-! ## Time unit and network ports -/

/-- TMU beyond its registers (R272 to R288). Offsets and timestamps are in 2^-16 ns. Captures by requester (4 × requester + k); a SET
or step that waits for its drive tick edge (edge on the old scale and new time, in 2^-40 ns); the newest offsets of the selected
source; computed samples that the servo has not taken (source, offset, up time); the last sample taken; samples in a row within and
beyond the lock limits; valid samples or edges in a row and since when (up time) each source is qualified; the integrator in units of
2^-26 × 10^-15; the applied rate's history (from up time, rate), newest first; the present or last holdover (entry, offset at entry,
lost source); the reference edge and seconds of each PPS input, whether TMU_PPSm_SEC was written since, windows missed; SyncE's last
usable ESMC PDU and whether its frequency lies inside the limit; the next scheduled roll call (instant in ns, whether a repeat) and
RC_NOW's tick; the roll call whose header waits (instant in ns, cause); pulses started (bell, output) and asserted outputs with their
ends; the end of the PPS_OUT pulse and the last second pulsed. -/
structure Tmu where
  caps : Tab Nat
  setDue : Option (Nat × Nat)
  smps : List Int
  waiting : List (Nat × Int × Nat)
  lastAt : Option Nat
  inN : Nat
  outN : Nat
  qualN : Tab Nat
  qualAt : Tab Nat
  integ : Int
  hist : List (Nat × Int)
  hoAt : Nat
  hoX : Nat
  hoSrc : Nat
  ppsAt : Tab Nat
  ppsSec : Tab Nat
  ppsSecW : List Nat
  ppsMiss : Tab Nat
  esmcAt : Option Nat
  synceIn : Bool
  rcAt : Option (Nat × Bool)
  rcNow : Option Nat
  rcHdr : Option (Nat × Nat)
  pulses : List (Nat × Nat)
  bellEnd : Tab Nat
  ppsEnd : Option Nat
  ppsLast : Nat
  deriving DecidableEq, Repr

def Tmu.init : Tmu := ⟨[], none, [], [], none, 0, 0, [], [], 0, [], 0, 0, 7, [], [], [], [], none, true, none, none, none, [], [], none, 0⟩

/-- An Ethernet port beyond its registers (R289 to R298): the last Announce and Sync (up times), a two-step Sync that waits for its
Follow_Up, t2 - t1, the Delay_Req sent, the peer delay and the Pdelay_Req sent with t2 and t4, sequence numbers by message type, the
next due instants of Sync, delay request and Announce, the parent data set, the telemetry bucket in 1/8,000 bytes, whether the frame
that waits was counted, ETH_PTP_CFG and ETH_PTP_GLB in force (R301), and the up time at which the telemetry frame in progress ends
(R291). -/
structure EPort where
  annAt : Option Nat
  syncAt : Option Nat
  syncRx : Option (Nat × Int)
  t21 : Option Int
  dreq : Option (Nat × Int)
  mean : Option Int
  pdreq : Option (Nat × Int)
  pdresp : Option (Int × Int)
  seqs : Tab Nat
  nextSync : Nat
  nextDelay : Nat
  nextAnn : Nat
  parent : Option AnnMsg
  tok : Nat
  tokAt : Nat
  telWait : Bool
  cfg : BitVec 32
  glb : BitVec 32
  telEnd : Nat
  deriving DecidableEq, Repr

def EPort.init : EPort :=
  ⟨none, none, none, none, none, none, none, none, [], 0, 0, 0, none, 24576000, 0, false, 0x80FCFC00, 0xF8808000, 0⟩

/-- The whole device. -/
structure State where
  /-- The commands that wait, first in first out. -/
  pending : List Instr
  /-- Registers by device address; an unlisted register holds its reset value. -/
  regs : Tab (BitVec 32)
  /-- The SRAM windows (R403) by device address; an unlisted byte is 0. -/
  mem : Tab Byte
  /-- R127: the shadow drive memory: byte (9 t + slot) × 8,768 + offset. -/
  slotMem : Tab Byte
  /-- Device TAI in 2^-40 ns (R272), its rate offset per ns in 2^-40 ns, and elapsed ns since power-on. -/
  now : Nat
  rho : Int
  up : Nat
  /-- How many free values have been drawn. -/
  draws : Nat
  out : List Output
  pins : Pins
  flt : Flt
  hif : Hif
  dual : Dual
  spi : Spi
  mnt : Mnt
  bel : Bel
  thm : Thm
  boot : Boot
  restart : Restart
  pwr : Pwr
  drv : Drv
  mon : Mon
  trk : Trk
  hold : Hold
  cal : Cal
  tmu : Tmu
  eth : Tab EPort
  deriving DecidableEq, Repr

/-- The stops of this model: none ends in a fault. -/
inductive Fault where
  deriving DecidableEq, Repr

/-- A refusal: a command whose meaning is not written yet (safe). -/
inductive Refusal where
  /-- Raised by an arm of exec that has no meaning yet; safe: the machine stops. -/
  | notModelled (mnemonic : String)
  deriving DecidableEq, Repr

/-- The machine right after reset: no supply has become valid yet, every register at its P value (R15), memories empty
(notes/assumptions/1). -/
def State.reset : State where
  pending := []
  regs := []
  mem := []
  slotMem := []
  now := 0
  rho := 0
  up := 0
  draws := 0
  out := []
  pins := ⟨false, false, false, true, false⟩
  flt := ⟨[], 351⟩
  hif := ⟨Port.init, Port.init, [], [], [], 1, [], 0, false, [], []⟩
  dual := ⟨none, 0, 0, none, none, 0, false, false, false, 0, 0, none, none, 0, 0, 0, 0, 0, [], []⟩
  spi := ⟨[], 0, [], false⟩
  mnt := ⟨0, false, false, false, 0x58⟩
  bel := ⟨[], 4096, none, none, [], 0, false, 0, none, none, [], none, 0, [], [], [], none, [], none⟩
  thm := ⟨[], [], [], none, none, none, 0⟩
  boot := ⟨[], 0x2000000, ⟨false, [], []⟩, ⟨false, [], []⟩, 0, false, none, none, none, false, false, none, 0, none, false, false, []⟩
  restart := ⟨none, 0, 0, false, false⟩
  pwr := ⟨[], 0, [], [], [], [], none, false, 384000, 0⟩
  drv := ⟨[], [], []⟩
  mon := ⟨[], [], [], [], none, [], [], [], [], []⟩
  trk := ⟨[], [], [], [], [], [], none, [], []⟩
  hold := ⟨[], [], [], [], []⟩
  cal := ⟨[], [], [], [], [], [], [], none, [], []⟩
  tmu := Tmu.init
  eth := []

end Sys2Proof.Machine
end

