-- ==== Sys2Proof/Machine/Ops.lean ====
section
/-! DEFINITION. The operations that every block shares: registers and counters, SRAM windows, time, free values, fault
reports and the collector, completion records and interrupts, and what every command ends with (`done`). -/

namespace Sys2Proof.Machine

/-! ## Registers -/

/-- The value a register holds. -/
def rget (s : State) (a : Nat) : BitVec 32 := (tfind s.regs a).getD (resetWord a)

/-- A register given a value by hardware. -/
def rset (s : State) (a : Nat) (w : BitVec 32) : State := { s with regs := tset s.regs (resetWord a) a w }

/-- A field of a register. -/
def fget (s : State) (a : Nat) (f : Fld) : Nat := getF (rget s a) f

/-- A field given a value by hardware. -/
def fset (s : State) (a : Nat) (f : Fld) (v : Nat) : State := rset s a (setF (rget s a) f v)

/-- One bit of a register. -/
def rbit (s : State) (a i : Nat) : Bool := bit (rget s a).toNat i

/-- One bit of a register set or cleared by hardware. -/
def rput (s : State) (a i : Nat) (b : Bool) : State := rset s a (BitVec.ofNat 32 (putBit (rget s a).toNat i b))

/-- A saturating 32-bit counter advanced by `n` (R366). -/
def bumpN (s : State) (a n : Nat) : State := rset s a (BitVec.ofNat 32 (min ((rget s a).toNat + n) 0xFFFFFFFF))

/-- A saturating 32-bit counter advanced by one. -/
def bump (s : State) (a : Nat) : State := bumpN s a 1

/-- A saturating field counter advanced by one. -/
def fbump (s : State) (a : Nat) (f : Fld) : State := fset s a f (min (fget s a f + 1) (2 ^ (f.hi + 1 - f.lo) - 1))

/-- Registers from `a` on, `n` of them, cleared to 0. -/
def clearRegs (s : State) (a : Nat) : Nat → State
  | 0 => s
  | n + 1 => clearRegs (rset s a 0) (a + 4) n

/-! ## SRAM windows -/

/-- A byte of a window. -/
def mbyte (s : State) (a : Nat) : Nat := rb s.mem a

/-- `n` bytes of a window, little-endian. -/
def mget (s : State) (a n : Nat) : Nat := rd s.mem a n

/-- `n` bytes of a window written by the unit that owns it. -/
def mset (s : State) (a n v : Nat) : State := { s with mem := wr s.mem a n v }

/-- The fabric map in its window (R44). -/
def fm (s : State) : Nat → Nat := fun o => rb s.mem (0xE00000 + o)

/-- R361: the fault set bit of a cell. -/
def isRetired (s : State) (i : Nat) : Bool := bit (mbyte s (0x934800 + i / 8)) (i % 8)

/-- R361: the fault set bit and the retirement kind of a cell written. -/
def setRetired (s : State) (i : Nat) (b : Bool) (kind : Nat) : State :=
  mset (mset s (0x934800 + i / 8) 1 (putBit (mbyte s (0x934800 + i / 8)) (i % 8) b)) (0x938000 + i) 1 kind

/-- R37, R51: a cell in service: present and not retired. -/
def cellUsable (s : State) (i : Nat) : Bool := cellPresent (fm s) i && !isRetired s i

/-- R53: the fault set as one bit per cell. -/
def faultSet (s : State) : BitVec 6144 := BitVec.ofNat 6144 (rd s.mem 0x934800 768)

/-! ## Time -/

/-- The unit of device TAI: 2^40 to the ns. -/
def q40 : Nat := 2 ^ 40

/-- Device TAI in whole ns. -/
def nowNs (s : State) : Nat := s.now / q40

/-- R3: seconds, nanoseconds and fraction of a device time. -/
def secOf (t : Nat) : Nat := t / q40 / 1000000000
def nsOf (t : Nat) : Nat := t / q40 % 1000000000
def fracOf (t : Nat) : Nat := t / 2 ^ 24 % 65536

/-- R20: the first drive tick edge at or after a time, in ns. -/
def gridUp (ns : Nat) : Nat := (ns + 19) / 20 * 20

/-- The first grid edge at or after a device time in 2^-40 ns. -/
def gridAfter (q : Nat) : Nat := gridUp ((q + q40 - 1) / q40)

/-! ## Free values and outputs -/

/-- The number of the next free value, and the state after the draw. -/
def draw (s : State) : Nat × State := (s.draws, { s with draws := s.draws + 1 })

/-- Something sent to the outside. -/
def emit (s : State) (o : Output) : State := { s with out := s.out ++ [o] }

/-! ## Fault collector (R353 to R358) -/

/-- R353: source numbers. -/
def srcDrv (t : Nat) : Nat := t
def srcMon (t : Nat) : Nat := 96 + t
def srcCore (k : Nat) : Nat := 192 + k
def srcHif (p : Nat) : Nat := 292 + p
def srcDual : Nat := 294
def srcIsc : Nat := 295
def srcLeg : Nat := 296
def srcTmu : Nat := 297
def srcEth (e : Nat) : Nat := 298 + e
def srcBel : Nat := 302
def srcRts (l : Nat) : Nat := 303 + l
def srcCharts : Nat := 305
def srcBroker : Nat := 306
def srcRail (k : Nat) : Nat := 307 + k
def srcPwm (n : Nat) : Nat := 312 + n
def srcThmDie : Nat := 336
def srcThmPic : Nat := 337
def srcCal : Nat := 338
def srcBoot : Nat := 339
def srcXbr : Nat := 340
def srcGlb : Nat := 341
def srcClk : Nat := 342
def srcSup : Nat := 343
def srcWdog : Nat := 344
def srcMnt : Nat := 345
def srcTap : Nat := 346
def srcSram : Nat := 347
def srcFmap : Nat := 348
def srcRcall : Nat := 349
def srcFlt : Nat := 350
def srcRepair : Nat := 351

/-- R355: the requester code of a record's INFO. -/
def requester (m : Master) : Nat :=
  match m with
  | .hostA => 0
  | .hostB => 1
  | .sup => 2
  | .mnt => 3
  | .leg => 4

/-- R396: the crossbar ID of a master. -/
def masterId (m : Master) : Nat :=
  match m with
  | .sup => 0
  | .hostA => 1
  | .hostB => 2
  | .mnt => 3
  | .leg => 4

/-- R403, R404: whether an address lies in a target range of the crossbar. -/
def inTarget (a : Nat) : Bool :=
  decide (a ≤ 0x0DFFFF) || decide (0x100000 ≤ a ∧ a ≤ 0x15FFFF) || decide (0x200000 ≤ a ∧ a ≤ 0x25FFFF) ||
  decide (0x300000 ≤ a ∧ a ≤ 0x48FFFF) || decide (0x800000 ≤ a ∧ a ≤ 0xA67FFF) || decide (0xB00000 ≤ a ∧ a ≤ 0xC63FFF) ||
  decide (0xD00000 ≤ a ∧ a ≤ 0xD3FFFF) || decide (0xE00000 ≤ a ∧ a ≤ 0xEFFFFF)

/-- R425: the source that owns a device address. -/
def owner (a : Nat) : Nat :=
  if !inTarget a then srcXbr
  else if a < 0x010000 then srcGlb
  else if a < 0x014000 then srcHif 0
  else if a < 0x018000 then srcHif 1
  else if a < 0x019000 then srcIsc
  else if a < 0x01A000 then srcDual
  else if a < 0x030000 then srcIsc
  else if a < 0x040000 then srcTmu
  else if a < 0x044000 then srcEth ((a - 0x040000) / 0x1000)
  else if a < 0x050000 then srcEth 0
  else if a < 0x060000 then srcBel
  else if a < 0x070000 then srcRts 0
  else if a < 0x080000 then
    let o := a - 0x070000
    if 0x40 ≤ o ∧ o < 0x90 then srcRail ((o - 0x40) / 0x10)
    else if 0x100 ≤ o ∧ o < 0x400 then srcPwm ((o - 0x100) / 0x20)
    else srcBroker
  else if a < 0x090000 then
    let o := a - 0x080000
    if o / 4 = 3 ∨ (0x200 ≤ o ∧ o < 0x380) then srcThmPic else srcThmDie
  else if a < 0x0A0000 then srcFlt
  else if a < 0x0B0000 then srcCal
  else if a < 0x0C0000 then srcXbr
  else if a < 0x0D0000 then srcBoot
  else if a < 0x0E0000 then srcLeg
  else if a < 0x160000 then srcDrv ((a - 0x100000) / 0x1000)
  else if a < 0x260000 then srcMon ((a - 0x200000) / 0x1000)
  else if a < 0x490000 then srcCore ((a - 0x300000) / 0x4000)
  else if a < 0x900000 then srcCharts
  else if 0xE00000 ≤ a then srcFmap
  else srcSram

/-- R356, R359: a report merged into its source's open slot; of the reports on one drive tick the one with the lowest ADDR makes the
record, a real one before a forced one. -/
def mergeSlot (sl : Slot) (kind addr info now : Nat) (forced : Bool) : Slot :=
  let l := min (sl.lost + 1) 255
  if sl.at_ / q40 / 20 = now / q40 / 20 ∧ ((sl.forced ∧ !forced) ∨ (sl.forced = forced ∧ addr < sl.addr)) then
    { kind := kind, addr := addr, info := info, at_ := sl.at_, lost := l, lastKind := sl.kind, forced := forced }
  else { sl with lost := l, lastKind := kind }

/-- R31, R356: a source reports: a new open slot, or a merge into the open one. -/
def reportF (s : State) (src kind addr info : Nat) (forced : Bool) : State :=
  match tfind s.flt.slots src with
  | none => { s with flt := { s.flt with slots := tins s.flt.slots src (Slot.mk kind addr info s.now 0 0 forced) } }
  | some sl =>
    let s1 := { s with flt := { s.flt with slots := tins s.flt.slots src (mergeSlot sl kind addr info s.now forced) } }
    bump (rput s1 (Reg.FLT_LOST (src / 32)) (src % 32) true) (Reg.FLT_CNT 1)

/-- A report that is not forced. -/
def report (s : State) (src kind addr info : Nat) : State := reportF s src kind addr info false

/-- R403: the addresses of the SRAM windows that hold a structure (R404: the fabric map up to its LENGTH). -/
def sramHas (s : State) (a : Nat) : Bool :=
  [(0x800000, 0x920000), (0x920000, 0x930600), (0x930800, 0x930850), (0x931000, 0x931800), (0x932000, 0x933800), (0x934000, 0x934640),
   (0x934800, 0x934B00), (0x936000, 0x937800), (0x938000, 0x939800), (0x940000, 0xA24000), (0xA40000, 0xA68000), (0xB00000, 0xC64000),
   (0xD00000, 0xD40000), (0xE00000, 0xE00000 + mapLength (fm s))].any (fun r => decide (r.1 ≤ a ∧ a < r.2))

/-- R227, R403: whether an address has content: a register, a core's memory, a structure in SRAM. -/
def hasContent (s : State) (a : Nat) : Bool :=
  if 0x800000 ≤ a then sramHas s a
  else (findReg a).isSome || decide (0x300000 ≤ a ∧ a < 0x490000 ∧ 0x1000 ≤ a % 0x4000)

/-- R10, R425: a write that is discarded and recorded: WRITE_REFUSED under the owner of the address. Where the address has content,
a protection rule discards it: XBR_CNT3 counts (R407) and the maintenance port notes it (R406). -/
def refuseWrite (s : State) (m : Master) (a : Nat) : State :=
  let s1 := report s (owner a) 0x02 a (requester m)
  if !hasContent s1 a then s1
  else
    let s2 := bump s1 (Reg.XBR_CNT 3)
    if m = .mnt then { s2 with mnt := { s2.mnt with refused := true } } else s2

/-- R12: a full-word write to a register's fields by their access types. -/
def plainWrite (s : State) (a v : Nat) : State :=
  match findReg a with
  | some row => rset s a (writeRow row (rget s a) (BitVec.ofNat 32 v))
  | none => s

/-! ## Interrupts and completion records (R306, R312, R313, R319, R329) -/

/-- The host port of a number (0 A, 1 B). -/
def portOf (s : State) (p : Nat) : Port := if p = 0 then s.hif.pa else s.hif.pb

/-- A host port replaced. -/
def setPort (s : State) (p : Nat) (x : Port) : State :=
  if p = 0 then { s with hif := { s.hif with pa := x } } else { s with hif := { s.hif with pb := x } }

/-- A ring pair by source number. -/
def ringOf (s : State) (i : Nat) : Ring := tget s.hif.rings Ring.init i

/-- A ring pair replaced. -/
def setRing (s : State) (i : Nat) (x : Ring) : State :=
  { s with hif := { s.hif with rings := tset s.hif.rings Ring.init i x } }

/-- R306: the port can be written to: link up, in D0, no function-level reset running. -/
def portUp (s : State) (p : Nat) : Bool :=
  decide (fget s (Reg.HIF_PSTATUS p) Reg.HIF_PSTATUS_LINK = 1) && decide (fget s (Reg.HIF_PSTATUS p) Reg.HIF_PSTATUS_D3 = 0) &&
  decide (fget s (Reg.HIF_PSTATUS p) Reg.HIF_PSTATUS_FLR_BUSY = 0)

/-- R329, R308: an MSI-X message of a vector, or its pending bit while masked; nothing while MSI-X is not enabled. -/
def msix (s : State) (p vec : Nat) : State :=
  let pt := portOf s p
  if !pt.msixEn then s
  else if pt.msixMask || decide (fget s (Reg.HIF_MSIX_CTRL p vec) Reg.HIF_MSIX_CTRL_MASK = 1) || !portUp s p then
    rput s (Reg.HIF_MSIX_PBA p (vec / 32)) (vec % 32) true
  else emit s (.msix p vec)

/-- R329: the DUAL vector of both ports. -/
def raiseDual (s : State) : State :=
  let one (s : State) (p : Nat) : State :=
    if fget s (Reg.HIF_EVVEC p) Reg.HIF_EVVEC_DUAL_EN = 1 then msix s p (fget s (Reg.HIF_EVVEC p) Reg.HIF_EVVEC_DUAL) else s
  one (one s 0) 1

/-- R329, R375: the THERM vector of both ports. -/
def raiseTherm (s : State) : State :=
  let one (s : State) (p : Nat) : State :=
    if fget s (Reg.HIF_EVVEC p) Reg.HIF_EVVEC_THERM_EN = 1 then msix s p (fget s (Reg.HIF_EVVEC p) Reg.HIF_EVVEC_THERM) else s
  one (one s 0) 1

/-- R315: a change that the status block shows. -/
def sblkTouch (s : State) (p : Nat) : State :=
  let pt := portOf s p
  if fget s (Reg.HIF_SBLK_LO p) Reg.HIF_SBLK_LO_EN = 1 ∧ pt.sblkDirty = none then
    setPort s p { pt with sblkDirty := some s.up } else s

/-- R332: the sizes of a ring pair as powers of two, held to 4 to 12. -/
def sizeClamp (n : Nat) : Nat := if n < 4 then 4 else if 12 < n then 12 else n
def sqSize (s : State) (i : Nat) : Nat := 2 ^ sizeClamp (fget s (Reg.HIF_RING_CFG (i / 16) (i % 16)) Reg.HIF_RING_CFG_SQ_SIZE)
def cqSize (s : State) (i : Nat) : Nat := 2 ^ sizeClamp (fget s (Reg.HIF_RING_CFG (i / 16) (i % 16)) Reg.HIF_RING_CFG_CQ_SIZE)

/-- R313: the free entries of a completion ring, the 8 reserved ones of ring 0 included. -/
def cqFreeAll (s : State) (i : Nat) : Nat :=
  let c := Reg.HIF_RING_CQT (i / 16) (i % 16)
  (fget s c Reg.HIF_RING_CQT_HEAD + 2 * cqSize s i - fget s c Reg.HIF_RING_CQT_TAIL - 1) % cqSize s i

/-- R313: the free entries for owed records. -/
def cqFree (s : State) (i : Nat) : Nat := cqFreeAll s i - (if i % 16 = 0 then 8 else 0)

/-- R313: records owed to a ring. -/
def owed (s : State) (i : Nat) : Nat :=
  if i = 32 then s.spi.owed else fget s (Reg.HIF_RING_STAT (i / 16) (i % 16)) Reg.HIF_RING_STAT_OWED

/-- R313: the owed count of a ring changed. -/
def setOwed (s : State) (i n : Nat) : State :=
  if i = 32 then { s with spi := { s.spi with owed := n } }
  else fset s (Reg.HIF_RING_STAT (i / 16) (i % 16)) Reg.HIF_RING_STAT_OWED (min n 8191)

/-! ## Roles and report cards (R335, R349) -/

/-- R335: the dual-host mode; 3 acts as 0. -/
def dualMode (s : State) : Nat :=
  let m := fget s Reg.HIF_DUAL_CTRL Reg.HIF_DUAL_CTRL_MODE
  if m = 3 then 0 else m

/-- The precedence host. -/
def precedence (s : State) : Nat := fget s Reg.HIF_PRECEDENCE Reg.HIF_PRECEDENCE_HOST

/-- R335: a host's role: 0 ACTIVE, 1 STANDBY, 2 OBSERVER. -/
def role (s : State) (p : Nat) : Nat :=
  let m := dualMode s
  if m = 1 then (if p ≠ precedence s ∧ (if p = 0 then s.dual.obsA else s.dual.obsB) then 2 else 0)
  else if m = 2 then (if s.dual.holder = some p then 0 else 1)
  else 0

/-- R349: the sums of N_WARN and N_CLAMP over the hold summaries (R195). -/
def holdSums (s : State) : Nat × Nat :=
  (List.range 96).foldl (fun a t => (a.1 + mbyte s (0x93200B + 0x40 * t), a.2 + mbyte s (0x93200A + 0x40 * t))) (0, 0)

/-- A ring of the port with ERR ≠ 0. -/
def ringErr (s : State) (p : Nat) : Bool :=
  (List.range 16).any (fun r => decide (fget s (Reg.HIF_RING_STAT p r) Reg.HIF_RING_STAT_ERR ≠ 0))

/-- R349: the grade of a port. -/
def gradeOf (s : State) (p : Nat) : Nat :=
  let c := Reg.HIF_RCARD p
  let w := holdSums s
  if fget s (Reg.HIF_PSTATUS p) Reg.HIF_PSTATUS_LINK = 0 ∨ fget s (c 0) Reg.HIF_RCARD_UNFIT = 1 ∨ role s p = 2 then 3
  else if ringErr s p ∨ 1 ≤ fget s (c 0) Reg.HIF_RCARD_FW_RUN ∨ 1 ≤ fget s (c 1) Reg.HIF_RCARD_DIV ∨ 0 < w.2 then 2
  else if 0 < w.1 ∨ (if p = 0 then s.dual.npBaseA else s.dual.npBaseB) < (rget s (Reg.HIF_PCNT p 4)).toNat ∨
    fget s (c 4) Reg.HIF_RCARD_LMARGIN < 1000 then 1
  else 0

/-- R349: the card of a port recomputed, every 1 ms and where something that it grades has changed; a change of grade raises the DUAL
vectors. -/
def regrade (s : State) (p : Nat) : State :=
  let c := Reg.HIF_RCARD p
  let w := holdSums s
  let g := gradeOf s p
  let old := fget s (c 0) Reg.HIF_RCARD_GRADE
  let s1 := fset (fset (fset (fset s (c 0) Reg.HIF_RCARD_GRADE g) (c 0) Reg.HIF_RCARD_ROLE (role s p)) (c 0) Reg.HIF_RCARD_LINK
    (fget s (Reg.HIF_PSTATUS p) Reg.HIF_PSTATUS_LINK)) (c 0) Reg.HIF_RCARD_RING_ERR (b2n (ringErr s p))
  let s2 := fset (fset s1 (c 3) Reg.HIF_RCARD_WARN (min w.1 65535)) (c 3) Reg.HIF_RCARD_CLAMP (min w.2 65535)
  if g = old then s2 else raiseDual s2

/-- Both cards. -/
def regradeAll (s : State) : State := regrade (regrade s 0) 1

/-! ## Completion records -/

/-- R319: the 32 bytes of a completion record with its PHASE. -/
def recBits (r : Rec) (phase : Nat) : BitVec 256 :=
  BitVec.ofNat 256 (r.order % 2 ^ 64 + r.status % 65536 * 2 ^ 64 + r.typ % 256 * 2 ^ 80 + (phase + 2 * r.kind) % 256 * 2 ^ 88 +
    r.sqIndex % 65536 * 2 ^ 96 + (if r.dst = 32 then 32 else r.dst % 32) * 2 ^ 112 + r.aux % 256 * 2 ^ 120 +
    r.sec % 2 ^ 64 * 2 ^ 128 + r.ns % 2 ^ 32 * 2 ^ 192 + r.detail % 2 ^ 32 * 2 ^ 224)

/-- R312, R329: a record written to its completion ring at the tail, with the phase, the counters and the moderation. -/
def writeRec (s : State) (r : Rec) : State :=
  let i := r.dst
  let p := i / 16
  let c := Reg.HIF_RING_CQT p (i % 16)
  let tail := fget s c Reg.HIF_RING_CQT_TAIL
  let ph := fget s c Reg.HIF_RING_CQT_PHASE
  let s1 := emit s (.record p (i % 16) tail (recBits r ph))
  let s2 := if tail + 1 < cqSize s i then fset s1 c Reg.HIF_RING_CQT_TAIL (tail + 1)
    else fset (fset s1 c Reg.HIF_RING_CQT_TAIL 0) c Reg.HIF_RING_CQT_PHASE (1 - ph)
  let s3 := bump s2 (Reg.HIF_PCNT p 3)
  let s4 := if r.owed then setOwed s3 i (owed s3 i - 1) else s3
  let g := ringOf s4 i
  setRing s4 i { g with irqN := g.irqN + 1, irqAt := if g.irqN = 0 then s4.up else g.irqAt }

/-- R313: whether a record that is not owed finds room: an entry that no owed record needs; on ring 0 a reserved record may
take a reserved entry, another may not. -/
def roomFor (s : State) (r : Rec) : Bool :=
  if r.reserved then decide (owed s r.dst < cqFreeAll s r.dst) else decide (owed s r.dst < cqFree s r.dst)

/-- R306, R313, R331: a record falls due: to the SPI queue, to its ring, onto the list that waits for the link, or dropped. A
destination of 64 or more is a ring that a host-domain reset has discarded. -/
def pushRec (s : State) (r : Rec) : State :=
  if 64 ≤ r.dst then s
  else if r.dst = 32 then
    if r.owed ∨ s.spi.cpls.length + s.spi.owed < 16 then
      let s1 := { s with spi := { s.spi with cpls := s.spi.cpls ++ [recBits r 0], owed := if r.owed then s.spi.owed - 1 else s.spi.owed } }
      fset s1 Reg.LEG_STATUS Reg.LEG_STATUS_CPLS s1.spi.cpls.length
    else s
  else
    let p := r.dst / 16
    if r.owed then
      if portUp s p ∧ !(s.hif.waiting.any (fun q => decide (q.dst = r.dst))) then writeRec s r
      else { s with hif := { s.hif with waiting := s.hif.waiting ++ [r] } }
    else if fget s (Reg.HIF_PSTATUS p) Reg.HIF_PSTATUS_LINK = 1 ∧ portUp s p ∧
        fget s (Reg.HIF_RING_CFG p (r.dst % 16)) Reg.HIF_RING_CFG_EN = 1 ∧ roomFor s r then writeRec s r
    else regradeAll (bump s (Reg.HIF_PCNT p 4))

/-- R306: the owed records of a port that waited for its link are written, in order. -/
def flushPort (s : State) (p : Nat) : State :=
  let mine := s.hif.waiting.filter (fun r => decide (r.dst / 16 = p))
  let s1 := { s with hif := { s.hif with waiting := s.hif.waiting.filter (fun r => !decide (r.dst / 16 = p)) } }
  mine.foldl writeRec s1

/-! ## What every command ends with -/

/-- R358, R377: whether SMB_ALERT_N is asserted: a notified source has the ALERT action, or a shut-down is in force. -/
def alertNow (s : State) : Bool :=
  (List.range 11).any (fun k =>
    let w := (rget s (Reg.FLT_ACTIVE k)).toNat
    decide (w ≠ 0) && (List.range 32).any (fun b => bit w b && decide (fget s (Reg.FLT_ACT (32 * k + b)) Reg.FLT_ACT_ALERT = 1))) ||
  decide (fget s Reg.THM_STATUS Reg.THM_STATUS_DIE_SHUT = 1) || decide (fget s Reg.THM_STATUS Reg.THM_STATUS_PIC_SHUT = 1)

/-- R330, R358: the level outputs follow the state, and a command leaves the queue to the step. -/
def settleOuts (s t : State) : State :=
  { t with pending := s.pending, pins := { t.pins with alert := alertNow t, legIrq := !t.spi.cpls.isEmpty } }

/-- The outcome of a command whose effect takes `s` to `t`. -/
def done (s t : State) : Host.Outcome State Fault Refusal := .next (settleOuts s t)

end Sys2Proof.Machine
end

