-- ==== Sys2Proof/Machine/Broker.lean ====
section
/-! DEFINITION. The power broker (R263 to R270): passes, the peak pool, the energy bins and the pass table. Peaks are in units
of 10 mW, energies in units of 10 nJ. -/

namespace Sys2Proof.Machine

/-- R37: the used tiles. -/
def usedTiles (s : State) : Nat := ((List.range 96).filter (tileUsed (fm s))).length

/-- R263: the pool for dynamic passes. -/
def dynPool (s : State) : Nat :=
  10 * fget s Reg.PWR_POOL Reg.PWR_POOL_PEAK_MAX -
    (10 * fget s Reg.PWR_POOL Reg.PWR_POOL_REPAIR + fget s Reg.PWR_STAND Reg.PWR_STAND_TILE * usedTiles s)

/-- R265: the energy limit of ten bins: 15/16 of E_WIN. -/
def energyLimit (s : State) : Nat := fget s Reg.PWR_ENERGY Reg.PWR_ENERGY_E_WIN * 1000 * 15 / 16

/-- R265: the peak granted at an instant. -/
def peakAt (s : State) (t : Nat) : Nat :=
  (s.pwr.passes.filter (fun p => decide (p.start ≤ t ∧ t < p.start + p.len))).foldl (fun a p => a + p.peak) 0

/-- R265, condition 2: the largest granted peak over a span: it changes upwards only where a pass starts. -/
def peakOver (s : State) (start len : Nat) : Nat :=
  ((start :: (s.pwr.passes.map (·.start)).filter (fun t => decide (start ≤ t ∧ t < start + len))).map (peakAt s)).foldl max 0

/-- R265: the energy bin of an instant. -/
def binOf (t : Nat) : Nat := t / 10000

/-- The energy charged to a bin. -/
def binGet (s : State) (b : Nat) : Nat := tget s.pwr.bins 0 b

/-- A bin's energy changed by a signed amount. -/
def binAdd (s : State) (b : Nat) (d : Int) : State :=
  { s with pwr := { s.pwr with bins := tset s.pwr.bins 0 b ((binGet s b : Int) + d).toNat } }

/-- R265, condition 3: the largest energy of ten consecutive bins that include a bin. -/
def runMax (s : State) (b : Nat) : Nat :=
  ((List.range 10).map (fun k => ((List.range 10).map (fun j => if b + j < k then 0 else binGet s (b + j - k))).foldl (· + ·) 0)).foldl max 0

/-- R269: the peak granted at some instant exceeds the pool by this much. -/
def peakExcess (s : State) : Nat := ((s.pwr.passes.map (fun p => peakAt s p.start)).foldl max 0) - dynPool s

/-- R269: some run of ten bins that has not passed exceeds the energy limit (notes/assumptions/111). -/
def energyOver (s : State) : Bool :=
  let now := binOf (nowNs s)
  s.pwr.bins.any (fun e => (List.range 10).any (fun k => decide (now ≤ e.1 + 9 - k) && decide (energyLimit s <
    ((List.range 10).map (fun j => if e.1 + j < k then 0 else binGet s (e.1 + j - k))).foldl (· + ·) 0)))

/-- R265: a request's first failed condition: 1 LIMIT, 2 PEAK, 3 ENERGY, 4 KICK; 0 where all hold. -/
def brokerTest (s : State) (bell : Bool) (peak energy start len : Nat) : Nat :=
  if bell ∧ 10 * fget s Reg.PWR_HP Reg.PWR_HP_PEAK < peak then 1
  else if 0 < peakExcess s ∨ dynPool s < peakOver s start len + peak then 2
  else if energyOver s ∨ energyLimit s < runMax s (binOf start) + energy then 3
  else if bit (fget s Reg.PWR_STATUS Reg.PWR_STATUS_FAIL) 4 ∨ fget s Reg.PWR_STATUS Reg.PWR_STATUS_SHUTDOWN = 1 then 4
  else 0

/-- R270: the table entry of a pass. -/
def passWrite (s : State) (p : GPass) : State :=
  let a := 0xA00000 + 32 * p.entry
  let s1 := mset (mset (mset s a 4 p.id) (a + 4) 4 (p.kind + 256 * (if p.trimmed then 2 else 1) + 65536 * p.waves + 2 ^ 24 * p.tile))
    (a + 8) 4 p.peak
  mset (mset (mset (mset s1 (a + 0xC) 4 p.energy) (a + 0x10) 8 (p.start / 1000000000)) (a + 0x18) 4 (p.start % 1000000000)) (a + 0x1C) 4 p.len

/-- R270: the entry of a pass that is free again. -/
def passClear (s : State) (entry : Nat) : State := { s with mem := cut s.mem (0xA00000 + 32 * entry) 32 }

/-- The pass at a table entry. -/
def passAt (s : State) (entry : Nat) : Option GPass := s.pwr.passes.find? (fun p => decide (p.entry = entry))

/-- A pass replaced at its entry. -/
def passPut (s : State) (p : GPass) : State :=
  passWrite { s with pwr := { s.pwr with passes := s.pwr.passes.map (fun q => if q.entry = p.entry then p else q) } } p

/-- R265, R270: a pass is granted at an entry; its energy is charged to its bin. -/
def brokerGrant (s : State) (entry kind waves tile peak energy start len : Nat) : State :=
  let id := if s.pwr.lastId + 1 = 2 ^ 32 then 1 else s.pwr.lastId + 1
  let p := GPass.mk entry id kind waves tile peak energy start len false false
  let s1 := { s with pwr := { s.pwr with passes := s.pwr.passes.filter (fun q => !decide (q.entry = entry)) ++ [p], lastId := id } }
  bump (passWrite (binAdd s1 (binOf start) energy) p) (Reg.PWR_CNT 0)

/-- R265: a request: the state and the first failed condition, counted. -/
def brokerAsk (s : State) (entry kind waves tile peak energy start len : Nat) : State × Nat :=
  let r := brokerTest s (decide (kind = 0)) peak energy start len
  if r = 0 then (brokerGrant s entry kind waves tile peak energy start len, 0) else (bump s (Reg.PWR_CNT r), r)

/-- R266: a pass is released; one that never played returns its energy to its bin. -/
def passRelease (s : State) (entry : Nat) : State :=
  match passAt s entry with
  | none => s
  | some p =>
    let s1 := { s with pwr := { s.pwr with passes := s.pwr.passes.filter (fun q => !decide (q.entry = entry)) } }
    let s2 := if p.played then s1 else binAdd s1 (binOf p.start) (-(p.energy : Int))
    passClear s2 entry

/-- R266: a pass is trimmed to the planned peak and energy. -/
def passTrim (s : State) (entry peak energy : Nat) : State :=
  match passAt s entry with
  | none => s
  | some p => passPut (binAdd s (binOf p.start) ((energy : Int) - p.energy)) { p with peak := peak, energy := energy, trimmed := true }

/-- R266: a pass's bell fires: what it draws stays charged. -/
def passPlay (s : State) (entry : Nat) : State :=
  match passAt s entry with
  | none => s
  | some p => passPut s { p with played := true }

/-- R266: the energy of a retry is added without a test. -/
def passAdd (s : State) (entry energy : Nat) : State :=
  match passAt s entry with
  | none => s
  | some p => passPut (binAdd s (binOf p.start) energy) { p with energy := p.energy + energy }

/-- R269: a limit was written: one POOL_OVER record where the granted sums now exceed the limits. -/
def poolCheck (s : State) : State :=
  if 0 < peakExcess s ∨ energyOver s then report s srcBroker 0x52 0 (peakExcess s) else s

end Sys2Proof.Machine
end

