-- ==== Sys2Proof/Machine/Desc.lean ====
section
/-! DEFINITION. Descriptors: their fields in both formats (R316, R318), the format 2 type a format 1 descriptor maps to, and
the checks of R317. -/

namespace Sys2Proof.Machine

/-- A field of a descriptor: `n` bytes at offset `o`, little-endian. -/
def dB (d : BitVec 512) (o n : Nat) : Nat := bits d.toNat (8 * o) (8 * n)

/-- The format 2 type codes of R316. -/
def tyBell : Nat := 1
def tyNow : Nat := 2
def tyChart : Nat := 3
def tyAmend : Nat := 4
def tyCancel : Nat := 5
def tyFence : Nat := 6
def tyCal : Nat := 7
def tyQuery : Nat := 8
def tyMaint : Nat := 9
def tyTelem : Nat := 10
def tyEcho : Nat := 11

/-- R318: the format 2 type of a format 1 type code; 0 where it is not defined. -/
def mapType1 (t : Nat) : Nat :=
  if t ≤ 3 then t else if t = 4 then tyCancel else if t = 5 then tyFence else if t = 6 then tyQuery else if t = 7 then tyEcho else 0

/-- R316, R318: an entry's type as a format 2 code; 0 where it is not defined. -/
def eType (e : Entry) : Nat :=
  let t := dB e.raw 0 1
  if e.fmt1 then mapType1 t else if t ≤ 11 then t else 0

/-- R318: TAG of a format 1 descriptor. -/
def eTag (e : Entry) : Nat := dB e.raw 4 4

/-- R316: the digest; a format 1 descriptor has none. -/
def eDigest (e : Entry) : Nat := if e.fmt1 then 0 else dB e.raw 4 4

/-- R316: the digest that the descriptor's bytes give. -/
def digestOf (d : BitVec 512) : Nat := crc32c (leBytes (d.toNat - dB d 4 4 * 2 ^ 32) 64)

/-- The nanoseconds field of an instant. -/
def eNs (e : Entry) : Nat := if e.fmt1 then dB e.raw 0x10 4 else dB e.raw 0x18 4

/-- R4, R318: the instant in ns of TAI. -/
def eInstant (s : State) (e : Entry) : Nat :=
  if e.fmt1 then (secOf s.now / 2 ^ 48 * 2 ^ 48 + dB e.raw 8 6) * 1000000000 + eNs e
  else dB e.raw 0x10 8 * 1000000000 + eNs e

/-- The chart slot that a BELL, NOW, AMEND, CHART or route-check QUERY names. -/
def eSlot (e : Entry) : Nat :=
  if e.fmt1 then dB e.raw 2 2
  else if eType e = tyChart then dB e.raw 0x10 2
  else if eType e = tyQuery then dB e.raw 0x12 2
  else dB e.raw 0x1E 2

/-- R316: BFLAGS.QUIET, OUTMASK and the spans of a bell. -/
def eQuiet (e : Entry) : Bool := !e.fmt1 && bit (dB e.raw 0x20 1) 0
def eOutmask (e : Entry) : Nat := if e.fmt1 then 0 else dB e.raw 0x21 1
def eSpan (e : Entry) (k : Nat) : Nat := if e.fmt1 then 0 else dB e.raw (0x24 + 8 * k) 8

/-- R316: the spans that are valid. -/
def eSpans (e : Entry) : List Span :=
  ([eSpan e 0, eSpan e 1].filter (fun w => bit w 7)).map (fun w =>
    { group := bits w 0 3, mask := 0, ofs := 20 * bits w 32 32, len := 1000 * bits w 16 16, begun := false, ended := false })

/-- R316: TARGET. -/
def eTarget (e : Entry) : Nat := dB e.raw 0x34 8

/-- R316, R318: CFLAGS.CLEAR, CFLAGS.CRC_EN, the image address and IMG_CRC of a CHART. -/
def eClear (e : Entry) : Bool := !e.fmt1 && bit (dB e.raw 0x12 1) 0
def eCrcEn (e : Entry) : Bool := !e.fmt1 && bit (dB e.raw 0x12 1) 1
def eAddr (e : Entry) : Nat := dB e.raw 0x18 8
def eImgCrc (e : Entry) : Nat := dB e.raw 0x20 4

/-- R316: KIND of a CAL, QUERY, MAINT or FENCE, N and the cells or tiles listed. -/
def eKind (e : Entry) : Nat := if e.fmt1 then 0 else dB e.raw 0x10 1
def eN (e : Entry) : Nat := dB e.raw 0x11 1
def eCells (e : Entry) : List Nat := (List.range (eN e)).map (fun j => dB e.raw (0x14 + 2 * j) 2)
def eTiles (e : Entry) : List Nat := (List.range 96).filter (fun t => bit (dB e.raw 0x14 12) t)
def eMaintCell (e : Entry) : Nat := dB e.raw 0x12 2

/-- R316, R318: TERM and EPOCH of a FENCE; the challenge of an ECHO. -/
def eTerm (e : Entry) : Nat := dB e.raw 0x14 4
def eEpoch (e : Entry) : Nat := dB e.raw 0x18 8
def eChallenge (e : Entry) : Nat := dB e.raw 0x10 8

/-- The bytes of a body outside a list of ranges (offset, width) are 0. -/
def zeroBut (d : BitVec 512) (size : Nat) (keep : List (Nat × Nat)) : Bool :=
  (List.range size).all (fun o => keep.any (fun r => decide (r.1 ≤ o ∧ o < r.1 + r.2)) || decide (dB d o 1 = 0))

/-- R317, check 4: reserved bytes and bits are 0, and fields that the type requires to be 0. -/
def reservedOk (e : Entry) : Bool :=
  let d := e.raw
  if e.fmt1 then
    let t := dB d 0 1
    let usesChart := decide (t = 1 ∨ t = 2 ∨ t = 3 ∨ t = 6)
    zeroBut d 32 ([(0, 1), (4, 4)] ++ (if usesChart then [(2, 2)] else []) ++ (if t = 1 then [(8, 6), (0x10, 4)] else []) ++
      (if t = 4 ∨ t = 5 then [(0x14, 4)] else []) ++ (if t = 3 then [(0x18, 8)] else []))
  else
    let hd := [(0, 2), (4, 12)]
    match dB d 0 1 with
    | 1 => zeroBut d 64 (hd ++ [(0x10, 18), (0x24, 16)]) && decide (dB d 0x20 1 < 2)
    | 2 => zeroBut d 64 (hd ++ [(0x1E, 4), (0x24, 16)]) && decide (dB d 0x20 1 < 2)
    | 3 => zeroBut d 64 (hd ++ [(0x10, 3), (0x20, 4)] ++ (if bit (dB d 0x12 1) 0 then [] else [(0x18, 8)])) && decide (dB d 0x12 1 < 4)
    | 4 => zeroBut d 64 (hd ++ [(0x10, 18), (0x24, 24)]) && decide (dB d 0x20 1 < 2)
    | 5 => zeroBut d 64 (hd ++ [(0x34, 8)])
    | 6 => zeroBut d 64 (hd ++ [(0x10, 1), (0x14, 12)])
    | 7 => zeroBut d 64 (hd ++ [(0x10, 2)] ++ (if dB d 0x10 1 = 0 then [(0x14, 12)] else [(0x14, 2 * min 22 (dB d 0x11 1))]))
    | 8 => zeroBut d 64 (hd ++ [(0x10, 1)] ++ (if dB d 0x10 1 = 0 then [(0x12, 2)] else [(0x34, 8)]))
    | 9 => zeroBut d 64 (hd ++ [(0x10, 1)] ++ (if dB d 0x10 1 = 0 then [(0x12, 2)] else []))
    | 10 => zeroBut d 64 (hd ++ [(0x10, 44)]) && decide (dB d 0x13 1 < 16) && decide (dB d 0x34 4 / 2 ^ 24 = 0)
    | 11 => zeroBut d 64 (hd ++ [(0x10, 8)])
    | _ => true

/-- R86: a recess group's mask is not empty. -/
def groupSet (s : State) (g : Nat) : Bool := (List.range 16).any (fun w => decide (rget s (Reg.BEL_RGRP_MASK g w) ≠ 0))

/-- R316, R317, check 8: a span word. -/
def spanOk (s : State) (w : Nat) : Bool :=
  if bit w 7 then decide (bits w 3 4 = 0 ∧ bits w 8 8 = 0 ∧ 1 ≤ bits w 16 16 ∧ 100 ≤ bits w 32 32) && groupSet s (bits w 0 3)
  else decide (w = 0)

/-- R317, check 9: arguments in range. -/
def argsOk (e : Entry) : Bool :=
  let t := eType e
  let slotOk := decide (eSlot e < 1024)
  if t = tyBell ∨ t = tyNow ∨ t = tyAmend then slotOk
  else if t = tyChart then slotOk && (eClear e || decide (eAddr e % 64 = 0))
  else if t = tyFence then decide (eKind e ≤ 4) &&
    (let term := eTerm e; decide (100 ≤ term ∧ term ≤ 10000000))
  else if t = tyCal then decide (eKind e ≤ 3) && decide (eN e ≤ 22) &&
    (decide (eKind e = 0) || (eCells e).all (fun c => decide (c < 6144)))
  else if t = tyQuery then decide (eKind e ≤ 1) && (decide (eKind e = 1) || slotOk)
  else if t = tyMaint then decide (eKind e ≤ 1) && (decide (eKind e = 1) || decide (eMaintCell e < 6144))
  else if t = tyTelem then
    let d := e.raw
    decide (dB d 0x10 1 < 16 ∧ dB d 0x11 1 ≤ 2 ∧ dB d 0x12 1 ≤ 4) &&
    (decide (dB d 0x11 1 = 0) ||
      ((decide (dB d 0x11 1 = 2) || decide (dB d 0x18 8 % 4096 = 0 ∧ dB d 0x20 4 % 4096 = 0 ∧ 4096 ≤ dB d 0x20 4 ∧ dB d 0x20 4 ≤ 2 ^ 24)) &&
       (decide (dB d 0x11 1 = 1) || decide (bits (dB d 0x13 1) 2 2 < 3)) &&
       (decide (dB d 0x12 1 ≠ 4) || decide (dB d 0x34 4 % 4 = 0 ∧ 1 ≤ dB d 0x38 2 ∧ dB d 0x38 2 ≤ 256))))
  else true

/-- R310, R332: the class of a source's ring: 0 BULK, 1 TELEM, 2 URGENT; the SPI port is 3. -/
def ringClass (s : State) (i : Nat) : Nat :=
  if i = 32 then 3 else if 64 ≤ i ∨ i % 16 = 0 then 2
  else if fget s (Reg.HIF_RING_CFG (i / 16) (i % 16)) Reg.HIF_RING_CFG_CLASS = 1 then 1 else 0

/-- R317: the first check that fails, except the image checks 10 and 11; 0 where all pass. The types allowed on an URGENT or
BULK ring are all; a TELEM ring takes TELEM and QUERY (R310); the SPI port takes no CHART sent by SUBMIT (R331). -/
def illFormed (s : State) (e : Entry) : Nat :=
  let t := eType e
  if t = 0 ∨ (e.fmt1 = false ∧ dB e.raw 1 1 ≠ 2) then 1
  else if (ringClass s e.src = 1 ∧ t ≠ tyTelem ∧ t ≠ tyQuery) ∨ (e.src = 32 ∧ t = tyChart ∧ e.img = none) then 2
  else if e.fmt1 = false ∧ digestOf e.raw ≠ dB e.raw 4 4 then 3
  else if !reservedOk e then 4
  else if e.fmt1 = false ∧ (dB e.raw 8 8 = 0 ∨ 2 ^ 63 ≤ dB e.raw 8 8) then 5
  else if (t = tyBell ∨ t = tyAmend) ∧ (eNs e % 20 ≠ 0 ∨ (e.fmt1 = false ∧ dB e.raw 0x1C 2 ≠ 0)) then 6
  else if (t = tyBell ∨ t = tyAmend) ∧ 999999999 < eNs e then 7
  else if (t = tyBell ∨ t = tyNow ∨ t = tyAmend) ∧ !(spanOk s (eSpan e 0) && spanOk s (eSpan e 1)) then 8
  else if !argsOk e then 9
  else 0

/-- R317: the first check that fails, the image checks included. -/
def malformed (s : State) (e : Entry) : Nat :=
  let r := illFormed s e
  if r ≠ 0 then r
  else if e.imgErr then 10
  else match e.img with
    | some im => if eType e = tyChart ∧ eCrcEn e ∧ crc32c (leBytes im.toNat 1024) ≠ eImgCrc e then 11 else 0
    | none => 0

/-- R337: the shared types. -/
def shared (e : Entry) : Bool :=
  let t := eType e
  decide (1 ≤ t ∧ t ≤ 5) || decide (t = tyCal) || (decide (t = tyMaint) && decide (eKind e = 0))

end Sys2Proof.Machine
end

