-- ==== Sys2Proof/Machine/Intake.lean ====
section
/-! DEFINITION. Doorbells, the intake scheduler, descriptor fetches and the way from fetch to admission (R309 to R314, R321 to
R326, R337 to R340, R345, R346), and the roles of the two hosts (R335). -/

namespace Sys2Proof.Machine

/-! ## Journal (R339) -/

/-- R339: the journal index of an order number among the accepted descriptors, newest first. -/
def journalFind (s : State) (order : Nat) : Option Nat :=
  let head := (rget s Reg.HIF_JRNL_HEAD).toNat
  let n := min 4096 (rget s Reg.HIF_JRNL_SEQ).toNat
  ((List.range n).map (fun j => (head + 4096 - j) % 4096)).find? (fun i => decide (mget s (0xA40000 + 32 * i) 8 = order))

/-- R339: the source byte of R319 for a source number. -/
def sourceByte (src : Nat) : Nat := if src = 32 then 32 else src % 32

/-- R339: an accepted shared-type descriptor enters the journal. -/
def journalPut (s : State) (order digest typ src tIn : Nat) : State :=
  let i := ((rget s Reg.HIF_JRNL_HEAD).toNat + 1) % 4096
  let q := (rget s Reg.HIF_JRNL_SEQ).toNat + 1
  let q := if q = 2 ^ 32 then 1 else q
  let a := 0xA40000 + 32 * i
  let s1 := mset (mset (mset (mset s a 8 order) (a + 8) 4 digest) (a + 0xC) 4 (typ + 256 * sourceByte src)) (a + 0x10) 8 (secOf tIn)
  rset (rset (mset (mset s1 (a + 0x18) 4 (nsOf tIn)) (a + 0x1C) 4 q) Reg.HIF_JRNL_HEAD (BitVec.ofNat 32 i)) Reg.HIF_JRNL_SEQ (BitVec.ofNat 32 q)

/-- R339: TWIN of a journal entry. -/
def journalTwin (s : State) (i : Nat) (diverged : Bool) : State := mset s (0xA40000 + 32 * i + 0xE) 1 (if diverged then 2 else 1)

/-! ## Meters (R324) -/

/-- R324: one descriptor in bucket units. -/
def mtrOne : Nat := 1000000

/-- The meter registers of a source: CIR, PIR, CBS, PBS. -/
def mtrRate (s : State) (i : Nat) : Nat × Nat :=
  (fget s (Reg.ISC_MTR_RATE i) Reg.ISC_MTR_RATE_CIR, fget s (Reg.ISC_MTR_RATE i) Reg.ISC_MTR_RATE_PIR)
def mtrBurst (s : State) (i : Nat) : Nat × Nat :=
  (max 1 (fget s (Reg.ISC_MTR_BURST i) Reg.ISC_MTR_BURST_CBS), max 1 (fget s (Reg.ISC_MTR_BURST i) Reg.ISC_MTR_BURST_PBS))

/-- R324: the buckets of a source filled up to now. -/
def mtrFill (s : State) (i : Nat) : Ring :=
  let g := ringOf s i
  let dt := s.up - g.met
  { g with bc := min (g.bc + (mtrRate s i).1 * dt) ((mtrBurst s i).1 * mtrOne),
           bp := min (g.bp + (mtrRate s i).2 * dt) ((mtrBurst s i).2 * mtrOne), met := s.up }

/-- R324: a source's colour: 0 green, 1 yellow, 2 red; ring 0 and a meter that is off are green. -/
def colour (s : State) (i : Nat) : Nat :=
  if (i % 16 = 0 ∧ i ≠ 32) ∨ (mtrRate s i).2 = 0 then 0
  else let g := mtrFill s i
    if g.bp < mtrOne then 2 else if g.bc < mtrOne then 1 else 0

/-- R324: a chosen descriptor's charge and count. -/
def mtrCharge (s : State) (i : Nat) : State :=
  if i % 16 = 0 ∧ i ≠ 32 then s else
  let c := colour s i
  let s1 := bump s (Reg.ISC_MTR_G i (if c = 0 then 0 else 1))
  if (mtrRate s i).2 = 0 then s1 else
  let g := mtrFill s i
  setRing s1 i { g with bp := g.bp - mtrOne, bc := if c = 0 then g.bc - mtrOne else g.bc }

/-! ## Eligibility and choice (R321 to R323) -/

/-- R325: HALT in force. -/
def halted (s : State) : Bool := decide (fget s Reg.HIF_HALT Reg.HIF_HALT_HALT = 1)

/-- R313: descriptors between HEAD and the tail of a ring; for the SPI port its queue. -/
def waitingIn (s : State) (i : Nat) : Nat :=
  if i = 32 then s.spi.queue.length
  else (ringOf s i).tail + sqSize s i - fget s (Reg.HIF_RING_STAT (i / 16) (i % 16)) Reg.HIF_RING_STAT_HEAD

/-- The number that wait, within the ring. -/
def depthOf (s : State) (i : Nat) : Nat := if i = 32 then s.spi.queue.length else waitingIn s i % sqSize s i

/-- R303: the largest read request of a port: Max Read Request Size, bits 14:12 of Device Control, at most 1,024 bytes. The offset 0x78 of
that register and its 512 bytes after reset are presumed (notes/assumptions/14). -/
def maxRead (s : State) (p : Nat) : Nat :=
  match tfind (portOf s p).cfg 0x78 with
  | some w => min 1024 (128 * 2 ^ bits w.toNat 12 3)
  | none => 512

/-- R303, R323: the read requests of a chart image; the read slots 0 to 30 of a port in use: fetches of rings 1 to 15, chart images
(notes/assumptions/108). -/
def imageReqs (s : State) (p : Nat) : Nat := 1024 / maxRead s p
def usedSlots (s : State) (p : Nat) : Nat :=
  ((List.range 15).filter (fun r => (ringOf s (16 * p + r + 1)).flight.isSome)).length +
  imageReqs s p * (s.hif.fetched.filter (fun e => e.imgWait && decide (e.src / 16 = p))).length

/-- R321: every condition of eligibility but the meter, with `k` descriptors of the fetch already chosen. -/
def ready (s : State) (i k : Nat) : Bool :=
  if s.hif.paused then false
  else if i = 32 then !s.spi.queue.isEmpty && decide (k = 0) && !halted s
  else
    let p := i / 16
    let r := i % 16
    decide (fget s (Reg.HIF_RING_CFG p r) Reg.HIF_RING_CFG_EN = 1) && decide (fget s (Reg.HIF_RING_STAT p r) Reg.HIF_RING_STAT_ERR = 0) &&
    decide (k < depthOf s i) && decide (owed s i + 2 * (k + 1) ≤ cqFree s i) && portUp s p && (!halted s || decide (r = 0)) &&
    (decide (k ≠ 0) || ((ringOf s i).flight.isNone && (decide (r = 0) || decide (usedSlots s p < 31))))

/-- R323: a tag difference read as signed 32 bits. -/
def tagDiff (a b : Nat) : Int := sext ((a + 2 ^ 32 - b % 2 ^ 32) % 2 ^ 32) 32

/-- R323: the weight of a source; 0 acts as 1. -/
def weight (s : State) (i : Nat) : Nat :=
  max 1 (if i = 32 then fget s Reg.LEG_CTRL Reg.LEG_CTRL_WEIGHT else fget s (Reg.HIF_RING_CFG (i / 16) (i % 16)) Reg.HIF_RING_CFG_WEIGHT)

/-- R323: of two candidate sources the one with the smaller tag, the lower number on a tie. -/
def bestTag (s : State) : List Nat → Option Nat
  | [] => none
  | i :: r => match bestTag s r with
    | none => some i
    | some j => if tagDiff (ringOf s i).tag (ringOf s j).tag ≤ 0 then some i else some j

/-- R322: the source chosen, where source `cur` already has `k` descriptors in the fetch (`k = 0`: none). -/
def choose (s : State) (cur k : Nat) : Option Nat :=
  let can (i : Nat) : Bool := ready s i (if i = cur then k else 0)
  let urgent := [0, 16].filter can
  match urgent with
  | [i] => some i
  | [i, j] => some (if s.hif.lastUrgent = 0 then j else i)
  | _ =>
    let rest := (List.range 33).filter (fun i => decide (i ≠ 0 ∧ i ≠ 16) && can i)
    match bestTag s (rest.filter (fun i => decide (colour s i = 0))) with
    | some i => some i
    | none => bestTag s (rest.filter (fun i => decide (colour s i = 1)))

/-- R323: the cost of a source's head descriptor. -/
def costOf (s : State) (i : Nat) : Nat :=
  if i = 32 then (match s.spi.queue.head? with
    | some e => if eType e = tyChart then 33 else 1
    | none => 1)
  else if fget s (Reg.HIF_RING_CFG (i / 16) (i % 16)) Reg.HIF_RING_CFG_FMT = 1 then 1 else 2

/-- R322 to R324: a descriptor of a source is chosen: the virtual time, the tag, the meter. -/
def charge (s : State) (i : Nat) : State :=
  if i = 0 ∨ i = 16 then { s with hif := { s.hif with lastUrgent := i / 16 } } else
  let g := ringOf s i
  let v := (rget s Reg.ISC_VTIME).toNat
  let s1 := rset s Reg.ISC_VTIME (BitVec.ofNat 32 (if 0 < tagDiff g.tag v then g.tag else v))
  let s2 := mtrCharge s1 i
  let g2 := ringOf s2 i
  setRing s2 i { g2 with tag := (g2.tag + costOf s i * 65536 / weight s i) % 2 ^ 32 }

/-- R324: every source passed over as red at a selection counts. -/
def countRed (s : State) : State :=
  (List.range 33).foldl (fun s i => if i % 16 = 0 ∧ i ≠ 32 then s
    else if ready s i 0 ∧ colour s i = 2 then bump s (Reg.ISC_MTR_G i 2) else s) s

/-- R322: how many more descriptors of a source join its fetch. -/
def batchMore (i lim : Nat) : Nat → Nat → State → Nat × State
  | 0, k, s => (k, s)
  | f + 1, k, s => if k < lim ∧ choose s i k = some i then batchMore i lim f (k + 1) (charge s i) else (k, s)

/-! ## Doorbells (R309, R311, R312) -/

/-- R326: the depth fields follow the pointers. -/
def depthNote (s : State) (i : Nat) : State :=
  let a := Reg.HIF_RING_DEPTH (i / 16) (i % 16)
  let d := depthOf s i
  let s1 := fset s a Reg.HIF_RING_DEPTH_NOW d
  if fget s1 a Reg.HIF_RING_DEPTH_MAX < d then fset s1 a Reg.HIF_RING_DEPTH_MAX d else s1

/-- R309, R311: a write to page `g` of BAR 2 at `ofs` that is not the completion doorbell's. -/
def sqTailWrite (s : State) (p g ofs v be : Nat) : State :=
  if be ≠ 15 ∨ ofs ≠ 0 then bump s (Reg.HIF_PCNT p 2) else
  let s0 := bump s (Reg.HIF_PCNT p 1)
  let i := 16 * p + g
  let t := bits v 0 12
  if sqSize s i ≤ t then regradeAll (fset s0 (Reg.HIF_RING_STAT p g) Reg.HIF_RING_STAT_ERR 1)
  else
    let old := depthOf s0 i
    let r := ringOf s0 i
    let s1 := setRing s0 i { r with tail := t, tag := if old = 0 then (rget s0 Reg.ISC_VTIME).toNat else r.tag }
    let new := depthOf s1 i
    let r1 := ringOf s1 i
    let s2 := if old < new then setRing s1 i { r1 with doors := r1.doors ++ [(new - old, s1.up)] } else s1
    depthNote s2 i

/-- R309, R312: the completion doorbell. -/
def cqHeadWrite (s : State) (p g ofs v be : Nat) : State :=
  if be ≠ 15 ∨ ofs ≠ 4 then bump s (Reg.HIF_PCNT p 2)
  else fset (bump s (Reg.HIF_PCNT p 1)) (Reg.HIF_RING_CQT p g) Reg.HIF_RING_CQT_HEAD (bits v 0 12)

/-- R309: a write to a doorbell page: the doorbell at its offset, or a discarded write. -/
def doorbell (s : State) (p g ofs v be : Nat) : State :=
  if ofs = 4 then cqHeadWrite s p g ofs v be else sqTailWrite s p g ofs v be

/-! ## From fetch to admission (R337 to R340, R345) -/

/-- R318: the order number that a format 1 descriptor is given, from its source and a per-source count. -/
def order1 (src count tag : Nat) : Nat :=
  2 ^ 63 + (if src = 32 then 2 else src / 16) * 2 ^ 61 + count % 2 ^ 29 * 2 ^ 32 + tag

/-- The bell that an order number names, among accepted and unfired bells. -/
def bellOf (s : State) (order : Nat) : Option Bell :=
  s.bel.bells.find? (fun b => !b.repair && decide (b.order = order) && decide (b.st < 6))

/-- R318: the pending bell with a TAG of the source that a format 1 order number names, the earliest if several. -/
def bellOfTag (s : State) (order tag : Nat) : Option Bell :=
  minBy (fun b => (b.t : Int)) (s.bel.bells.filter (fun b => !b.repair && decide (b.st < 6 ∧ b.tag = tag ∧ b.order / 2 ^ 61 = order / 2 ^ 61)))

/-- R58, R59, R318: the bell that an AMEND or CANCEL names. -/
def targetOf (s : State) (e : Entry) : Option Bell :=
  if e.fmt1 then bellOfTag s e.order (dB e.raw 0x14 4) else bellOf s (eTarget e)

/-- R340: the lead instant t_L of a descriptor in ns, if it has one. -/
def leadInstant (s : State) (e : Entry) : Option Nat :=
  let t := eType e
  if t = tyBell then some (eInstant s e)
  else if t = tyAmend then (match targetOf s e with
    | some b => some (min b.t (eInstant s e))
    | none => some (eInstant s e))
  else if t = tyCancel then (targetOf s e).map (·.t)
  else none

/-- R345: a descriptor of the host whose lease ended last, inside the overlap. -/
def inOverlap (s : State) (e : Entry) : Bool :=
  decide (s.dual.oldHolder = some e.port) && decide (e.tIssue < s.dual.oldEnd) && decide (e.tFetch ≤ s.dual.oldEnd + 40000 * q40) &&
  decide (s.now ≤ s.dual.oldEnd + 40000 * q40)

/-- R344, R345: whether a host's shared-type descriptor is admitted now in active-standby. -/
def leaseOk (s : State) (e : Entry) : Bool := (decide (s.dual.holder = some e.port) && decide (s.now < s.dual.expiry)) || inOverlap s e

/-- R340: the end of the pair hold of a descriptor of the non-precedence host, if it is held. -/
def pairHoldEnd (s : State) (e : Entry) : Option Nat :=
  let w := fget s Reg.HIF_DUAL_CTRL Reg.HIF_DUAL_CTRL_PAIR_WAIT
  if dualMode s ≠ 1 ∨ e.port = precedence s ∨ !shared e ∨ e.fmt1 ∨ w = 0 ∨ role s e.port = 2 ∨ (journalFind s e.order).isSome then none else
  let a := e.tFetch + w * 1000 * q40
  match leadInstant s e with
  | none => if e.tFetch < a then some a else none
  | some t => if t * q40 ≤ e.tFetch + 20000 * q40 then none else some (min a (t * q40 - 20000 * q40))

/-- Device time lies before a deadline, if there is one. -/
def before (s : State) (t : Option Nat) : Bool :=
  match t with
  | some t => decide (s.now < t)
  | none => false

/-- R109: a CHART whose image has not been asked for; LOAD_CHART brings its own. -/
def wantsImage (s : State) (e : Entry) : Bool :=
  decide (eType e = tyChart) && !eClear e && e.img.isNone && !e.imgErr && !e.imgWait && decide (illFormed s e = 0) && decide (e.src ≠ 32)

/-- What the entry at the head of its ring does: 0 enters admission, 1 waits for the lease, 2 waits for its pair, 3 waits for
its chart image. -/
def gate (s : State) (e : Entry) : Nat :=
  if illFormed s e ≠ 0 then 0
  else if dualMode s = 2 ∧ shared e ∧ (e.src % 16 ≠ 0 ∨ e.src = 32) ∧ e.hold ≠ 4 ∧ !leaseOk s e then 1
  else if e.hold = 2 ∧ before s e.holdEnd then 2
  else if e.imgWait || wantsImage s e then 3
  else 0

/-- R109, R323: a CHART at the head of its ring asks for its image; the 32 is charged then. -/
def imageIssue (s : State) (e : Entry) : State :=
  let s1 := emit s (.imageRead e.port (BitVec.ofNat 64 (eAddr e)))
  if e.src = 0 ∨ e.src = 16 ∨ e.src = 32 ∨ depthOf s e.src = 0 then s1 else
  let g := ringOf s1 e.src
  setRing s1 e.src { g with tag := (g.tag + 32 * 65536 / weight s e.src) % 2 ^ 32 }

/-- An entry replaced, found by its sequence number. -/
def putEntry (s : State) (e : Entry) : State :=
  { s with hif := { s.hif with fetched := s.hif.fetched.map (fun x => if x.seq = e.seq then e else x) } }

/-- An entry taken out. -/
def dropEntry (s : State) (e : Entry) : State :=
  { s with hif := { s.hif with fetched := s.hif.fetched.filter (fun x => !decide (x.seq = e.seq)) } }

/-- R323, R340: an entry meets the head of its ring for the first time: whether it is held for its pair; and its image request, once there
are read slots for it. -/
def arriveHead (s : State) (e : Entry) : State × Entry :=
  let e1 := if e.hold = 0 ∧ illFormed s e = 0 then (match pairHoldEnd s e with
    | some t => { e with hold := 2, holdEnd := some t }
    | none => { e with hold := 3 }) else e
  if wantsImage s e1 && decide (usedSlots s (e1.src / 16) + imageReqs s (e1.src / 16) ≤ 31) then
    (imageIssue s e1, { e1 with imgWait := true })
  else (s, e1)

/-- R392: the ns that remain until RUN would be reached from DOZE or NAP: 4 µs, or less where a return is under way. -/
def toRun (s : State) : Nat :=
  if fget s Reg.GLB_PSTATE Reg.GLB_PSTATE_STATE < 2 then 0 else
  match s.boot.pstWake with
  | some w => min 4000 (w - s.up)
  | none => 4000

/-- R311, R338, R340: the entries of a source, in ring order, enter admission until one has to wait. -/
def advanceGo (src : Nat) : Nat → State → State
  | 0, s => s
  | f + 1, s =>
    match s.hif.fetched.find? (fun e => decide (e.src = src) && e.tIn.isNone) with
    | none => s
    | some e =>
      let r := arriveHead s e
      if gate r.1 r.2 = 0 then
        let g := r.2
        let solved := (s.bel.bells.filter (fun b => b.sol.isSome)).map (·.order)
        let s1 := putEntry r.1 { g with tIn := some s.now, hold := if leaseOk s g then 4 else g.hold,
                                        lanesIn := fget s Reg.BEL_STATUS Reg.BEL_STATUS_LANES, solvedIn := solved, runIn := toRun s }
        let a := Reg.HIF_RING_DLY (src / 16) (src % 16)
        let s2 := if src = 32 then s1 else
          let d := min 65535 ((s.up - g.door) / 20)
          let s3 := fset s1 a Reg.HIF_RING_DLY_LAST d
          if fget s3 a Reg.HIF_RING_DLY_MAX < d then fset s3 a Reg.HIF_RING_DLY_MAX d else s3
        advanceGo src f s2
      else putEntry r.1 r.2

/-- The entries of one source advance. -/
def advance (s : State) (src : Nat) : State := advanceGo src (s.hif.fetched.length + 1) s

/-- The entries of every source advance: a hold, a role or the read slots have changed. -/
def advanceAll (s : State) : State := (List.range 33).foldl advance s

/-- R323: read slots of a port are free again: images that waited for them are asked for. -/
def slotsNote (s : State) : State := if s.hif.fetched.any (fun e => e.tIn.isNone && wantsImage s e) then advanceAll s else s

/-- The entry that admission takes next (R60): the one in admission with the earliest intake timestamp. -/
def nextEntry (s : State) : Option Entry :=
  minBy (fun e => ((e.tIn.getD 0 * 2 ^ 32 + e.seq : Nat) : Int)) (s.hif.fetched.filter (fun e => e.tIn.isSome))

/-- The intake timestamp of an entry. -/
def eIn (s : State) (e : Entry) : Nat := e.tIn.getD s.now

/-! ## Records of descriptors -/

/-- R319: the intake record of a descriptor; the destination is its own ring. -/
def intakeRec (e : Entry) (status aux sec ns detail : Nat) : Rec :=
  { dst := e.src, order := e.order, status := status, typ := eType e, kind := 0, sqIndex := e.idx, aux := aux,
    sec := sec, ns := ns, detail := detail, owed := true, reserved := false }

/-- R319: an intake record that carries the intake timestamp. -/
def answer (s : State) (e : Entry) (status aux detail : Nat) : State :=
  pushRec s (intakeRec e status aux (secOf (eIn s e)) (nsOf (eIn s e)) detail)

/-- R92: the refusal counter of a status, if it has one. -/
def refuseIdx (status : Nat) : Option Nat :=
  if status = 0x101 then some 0 else if status = 0x102 then some 1 else if status = 0x103 then some 2 else if status = 0x104 then some 3
  else if status = 0x201 then some 4 else if status = 0x202 then some 5 else if status = 0x203 then some 6 else if status = 0x204 then some 7
  else if status = 0x205 then some 8 else if status = 0x206 then some 9 else none

/-- R92, R352: a refusal counted by status, and a NOT_PERMITTED on the host's report card. -/
def countRefuse (s : State) (e : Entry) (status : Nat) : State :=
  let s1 := match refuseIdx status with
    | some k => bump s (Reg.BEL_REFUSE k)
    | none => s
  if status = 0x202 then fbump s1 (Reg.HIF_RCARD e.port 4) Reg.HIF_RCARD_NP else s1

/-- A refusal whose record carries the intake timestamp. -/
def refuse (s : State) (e : Entry) (status aux detail : Nat) : State := answer (countRefuse s e status) e status aux detail

/-- R341: an order diverged between the hosts in mode 1: the count, and the demotion at the limit. -/
def addDivergence (s : State) : State :=
  if dualMode s ≠ 1 then s else
  let p := 1 - precedence s
  let n := (if p = 0 then s.dual.divA else s.dual.divB) + 1
  let s1 := if p = 0 then { s with dual := { s.dual with divA := n } } else { s with dual := { s.dual with divB := n } }
  let s2 := fset s1 (Reg.HIF_RCARD p 1) Reg.HIF_RCARD_DIV (min n 65535)
  if n < max 1 (fget s Reg.HIF_DUAL_CTRL Reg.HIF_DUAL_CTRL_DIV_LIMIT) ∨ role s p = 2 then regradeAll s2 else
  let s3 := if p = 0 then { s2 with dual := { s2.dual with obsA := true } } else { s2 with dual := { s2.dual with obsB := true } }
  let s4 := raiseDual (report s3 srcDual 0x41 p n)
  let heldOnes := s4.hif.fetched.filter (fun e => decide (e.port = p ∧ e.hold = 2) && e.tIn.isNone)
  advanceAll (regradeAll (heldOnes.foldl (fun s e => dropEntry (refuse s e 0x202 0 0) e) s4))

/-- R340: a held copy meets the precedence host's copy: DUPLICATE or DIVERGED at that moment. -/
def pairMeet (s : State) (p : Entry) (h : Entry) : State :=
  let dvg := decide (eDigest p ≠ eDigest h)
  let s1 := pushRec s (intakeRec h (if dvg then 0x502 else 0x501) (sourceByte p.src) (secOf (eIn s p)) (nsOf (eIn s p)) (eDigest p))
  let s2 := dropEntry s1 h
  let s3 := { s2 with dual := { s2.dual with twinWait := s2.dual.twinWait ++ [(h.order, h.src, dvg)] } }
  let s4 := if dvg then addDivergence { s3 with dual := { s3.dual with divWait := s3.dual.divWait ++ [(h.order, eDigest h)] } }
    else fbump s3 (Reg.HIF_RCARD h.port 1) Reg.HIF_RCARD_DUP
  advance s4 h.src

/-- R340: the precedence host's copies that completed their fetch meet the held copies of the same order. -/
def pairAll (s : State) (new : List Entry) : State :=
  new.foldl (fun s p =>
    if dualMode s = 1 ∧ p.port = precedence s ∧ shared p ∧ !p.fmt1 ∧ illFormed s p = 0 then
      (s.hif.fetched.filter (fun h => decide (h.port ≠ p.port ∧ h.hold = 2 ∧ h.order = p.order) && h.tIn.isNone)).foldl
        (fun s h => pairMeet s p h) s
    else s) s

/-- R340: once the precedence copy's admission is over, the DIVERGE records of its held copies; `idx` is the journal index it
took, 0x1000 where it was refused. -/
def reportHeldDiverge (s : State) (order idx : Nat) : State :=
  let mine := s.dual.divWait.filter (fun d => decide (d.1 = order))
  let s1 := { s with dual := { s.dual with divWait := s.dual.divWait.filter (fun d => !decide (d.1 = order)) } }
  mine.foldl (fun s d => report s srcDual 0x40 idx d.2) s1

/-- R340, R342: the twins of an order number seen before its copy was accepted, and TWIN of the journal entry. -/
def takeTwins (s : State) (order idx : Nat) : State × List Nat :=
  let mine := s.dual.twinWait.filter (fun d => decide (d.1 = order))
  let s1 := { s with dual := { s.dual with twinWait := s.dual.twinWait.filter (fun d => !decide (d.1 = order)) } }
  (mine.foldl (fun s d => if idx < 4096 then journalTwin s idx d.2.2 else s) s1, mine.map (·.2.1))

end Sys2Proof.Machine
end

