-- ==== Sys2Proof/Machine/Dual.lean ====
section
/-! DEFINITION. Two hosts: leases (R344 to R346), firewatch and report cards (R347 to R349), modes and promotion (R335, R341),
and the commands of these. -/

namespace Sys2Proof.Machine

/-! ## Report cards (R349) -/

/-- R349: REPORT_CARD_GRADE. -/
def execReportCardGrade (s : State) : Host.Outcome State Fault Refusal := done s (regradeAll s)

/-! ## Leases (R344 to R346) -/

/-- R346: the lease is granted to a host for TERM µs from now. -/
def grant (s : State) (p term from_ : Nat) : State :=
  let s1 := { s with dual := { s.dual with holder := some p, epoch := (s.dual.epoch + 1) % 2 ^ 64, expiry := from_ + term * 1000 * q40 } }
  advanceAll (raiseDual s1)

/-- R345: the holder's lease ends at the instant `t`. -/
def leaseEnd (s : State) (t : Nat) : State :=
  match s.dual.holder with
  | none => s
  | some h => raiseDual { s with dual := { s.dual with holder := none, oldHolder := some h, oldEnd := t, overlapOpen := true } }

/-- R344, R345: a lease ends at an instant and passes to the pending ARM, if there is one. -/
def leasePass (s : State) (t : Nat) : State :=
  let s1 := leaseEnd s t
  match s1.dual.arm with
  | some (p, term) => grant { s1 with dual := { s1.dual with arm := none } } p term t
  | none => advanceAll s1

/-- R345: LEASE_EXPIRY: acts once the expiry instant is reached (R350 moves it past a restart window). -/
def leaseExpire (s : State) : State :=
  if s.dual.holder.isSome ∧ s.dual.expiry ≤ s.now ∧ !s.restart.inWindow then leasePass s s.dual.expiry else s

/-- R345: LEASE_EXPIRY. -/
def execLeaseExpiry (s : State) : Host.Outcome State Fault Refusal := done s (leaseExpire s)

/-- R345: OVERLAP_END: 40 µs after a lease ended. -/
def overlapClose (s : State) : State :=
  if s.dual.overlapOpen ∧ s.dual.oldEnd + 40000 * q40 ≤ s.now then
    advanceAll { s with dual := { s.dual with overlapOpen := false, oldHolder := none } } else s

/-- R345: OVERLAP_END. -/
def execOverlapEnd (s : State) : Host.Outcome State Fault Refusal := done s (overlapClose s)

/-- R348: the port is UNFIT. -/
def unfit (s : State) (p : Nat) : Bool := decide (fget s (Reg.HIF_RCARD p 0) Reg.HIF_RCARD_UNFIT = 1)

/-- R344: the AUX code of the holder. -/
def holderCode (s : State) : Nat := s.dual.holder.getD 3

/-- R344: the record of a FENCE: the holder after the action, TERM and the epoch. -/
def fenceRec (s : State) (e : Entry) (status : Nat) : State :=
  pushRec (if status = 0 then s else countRefuse s e status)
    (intakeRec e status (holderCode s) s.dual.epoch (nsOf (eIn s e)) (eTerm e))

/-- R344: the KIND in effect: a format 1 FENCE renews for the holder and acquires otherwise. -/
def fenceKind (s : State) (e : Entry) : Nat :=
  if e.fmt1 then (if s.dual.holder = some e.port then 1 else 0) else eKind e

/-- R344: the epoch check, which a format 1 FENCE does not make. -/
def epochOk (s : State) (e : Entry) : Bool := e.fmt1 || decide (eEpoch e = s.dual.epoch)

/-- R344: ACQUIRE; a format 1 FENCE is refused LEASE_HELD wherever the lease is not free. -/
def fenceAcquire (s : State) (e : Entry) : State :=
  if !epochOk s e then fenceRec s e 0x702
  else if e.fmt1 ∧ s.dual.holder.isSome then fenceRec s e 0x701
  else if unfit s e.port then fenceRec s e 0x704
  else if s.dual.holder.isSome then fenceRec s e 0x701
  else let s1 := grant s e.port (eTerm e) (eIn s e)
    fenceRec s1 e 0

/-- R344, R352: RENEW, and the least margin at a RENEW. -/
def fenceRenew (s : State) (e : Entry) : State :=
  if s.dual.holder ≠ some e.port then fenceRec s e 0x703
  else if !epochOk s e then fenceRec s e 0x702
  else
    let left := min 65535 ((s.dual.expiry - eIn s e) / (1000 * q40))
    let a := Reg.HIF_RCARD e.port 4
    let s1 := if left < fget s a Reg.HIF_RCARD_LMARGIN then fset s a Reg.HIF_RCARD_LMARGIN left else s
    regradeAll (fenceRec { s1 with dual := { s1.dual with expiry := eIn s e + eTerm e * 1000 * q40 } } e 0)

/-- R344: RELEASE. -/
def fenceRelease (s : State) (e : Entry) : State :=
  if s.dual.holder = some e.port then let s1 := leasePass s (eIn s e)
    fenceRec s1 e 0
  else if s.dual.arm.map (·.1) = some e.port then fenceRec { s with dual := { s.dual with arm := none } } e 0
  else fenceRec s e 0x703

/-- R344: ARM; with no lease in force it takes effect at once (notes/assumptions/22). -/
def fenceArm (s : State) (e : Entry) : State :=
  if !epochOk s e then fenceRec s e 0x702
  else if unfit s e.port then fenceRec s e 0x704
  else if s.dual.holder = some e.port then fenceRec s e 0x703
  else if s.dual.holder.isNone then let s1 := grant s e.port (eTerm e) (eIn s e)
    fenceRec s1 e 0
  else fenceRec { s with dual := { s.dual with arm := some (e.port, eTerm e) } } e 0

/-- R344: SEIZE: the device itself sees the holder's port down or in reset. -/
def fenceSeize (s : State) (e : Entry) : State :=
  let down (h : Nat) : Bool := decide (fget s (Reg.HIF_PSTATUS h) Reg.HIF_PSTATUS_LINK = 0) ||
    decide (fget s (Reg.HIF_PSTATUS h) Reg.HIF_PSTATUS_FLR_BUSY = 1)
  let ok := match s.dual.holder with
    | some h => down h
    | none => true
  if !epochOk s e then fenceRec s e 0x702
  else if unfit s e.port then fenceRec s e 0x704
  else if !ok then fenceRec s e 0x701
  else
    let s1 := leaseEnd s (eIn s e)
    let s2 := if s1.dual.arm.map (·.1) = some e.port then { s1 with dual := { s1.dual with arm := none } } else s1
    let s3 := grant s2 e.port (eTerm e) (eIn s e)
    fenceRec s3 e 0

/-- R345: an expiry that has been reached ends the lease before a descriptor is handled. -/
def leaseNow (s : State) : State := leaseExpire s

/-- Take the next descriptor in admission if it passes a test, and handle it; the handled entry leaves the intake. -/
def admitIf (s : State) (p : State → Entry → Bool) (act : State → Entry → State) : State :=
  match nextEntry s with
  | none => s
  | some e => if p s e then act (dropEntry (leaseNow s) e) e else s

/-- R61, R337: a FENCE or ECHO: well formed, and only in mode 2. -/
def fenceGate (act : State → Entry → State) (s : State) (e : Entry) : State :=
  if malformed s e ≠ 0 then refuse s e 0x201 (malformed s e) 0
  else if dualMode s ≠ 2 then refuse s e 0x706 0 0
  else act s e

/-- The next descriptor is a FENCE of a kind. -/
def isFence (k : Nat) (s : State) (e : Entry) : Bool := decide (eType e = tyFence ∧ fenceKind s e = k)

/-- R344: ACQUIRE; a FENCE whose KIND is not defined is refused here. -/
def execAcquire (s : State) : Host.Outcome State Fault Refusal :=
  done s (admitIf s (fun s e => isFence 0 s e || decide (eType e = tyFence ∧ 4 < fenceKind s e)) (fenceGate fenceAcquire))

/-- R344: RENEW. -/
def execRenew (s : State) : Host.Outcome State Fault Refusal := done s (admitIf s (isFence 1) (fenceGate fenceRenew))

/-- R344: RELEASE. -/
def execRelease (s : State) : Host.Outcome State Fault Refusal := done s (admitIf s (isFence 2) (fenceGate fenceRelease))

/-- R344: ARM. -/
def execArmLease (s : State) : Host.Outcome State Fault Refusal := done s (admitIf s (isFence 3) (fenceGate fenceArm))

/-- R344: SEIZE. -/
def execSeize (s : State) : Host.Outcome State Fault Refusal := done s (admitIf s (isFence 4) (fenceGate fenceSeize))

/-! ## Firewatch (R347, R348) -/

/-- The outstanding challenge of a port: its value and issue time. -/
def chalOf (s : State) (p : Nat) : Option (Nat × Nat) := if p = 0 then s.dual.chalA else s.dual.chalB

/-- The outstanding challenge replaced. -/
def setChal (s : State) (p : Nat) (c : Option (Nat × Nat)) : State :=
  if p = 0 then { s with dual := { s.dual with chalA := c } } else { s with dual := { s.dual with chalB := c } }

/-- R347, R348: a miss: recorded, DUAL raised, and UNFIT at the limit, which cancels the port's ARM. -/
def fwMiss (s : State) (p : Nat) : State :=
  let a := Reg.HIF_RCARD p 0
  let n := min 15 (fget s a Reg.HIF_RCARD_FW_RUN + 1)
  let s1 := raiseDual (report (fset s a Reg.HIF_RCARD_FW_RUN n) srcDual 0x42 p n)
  let s2 := if max 1 (fget s Reg.HIF_DUAL_CTRL Reg.HIF_DUAL_CTRL_FW_LIMIT) ≤ n then
      let s3 := fset s1 a Reg.HIF_RCARD_UNFIT 1
      if s3.dual.arm.map (·.1) = some p then { s3 with dual := { s3.dual with arm := none } } else s3
    else s1
  regradeAll s2

/-- R347: the value of a new challenge: free, nonzero and not the port's previous one. -/
def newChallenge (s : State) (last : Nat) : Nat × State :=
  let d := draw s
  let v := (Config.challenge d.1).toNat
  (if v ≠ 0 ∧ v ≠ last then v else if last = 1 then 2 else 1, d.2)

/-- R347: one port's challenge: the previous one unanswered is a miss; a record on ring 0 or on the SPI port. -/
def challengePort (s : State) (p : Nat) : State :=
  let s1 := if (chalOf s p).isSome then fwMiss s p else s
  let c := newChallenge s1 (if p = 0 then s.dual.lastChalA else s.dual.lastChalB)
  let s2 := if p = 0 then { c.2 with dual := { c.2.dual with lastChalA := c.1 } } else { c.2 with dual := { c.2.dual with lastChalB := c.1 } }
  let spi := decide (fget s2 Reg.LEG_CTRL Reg.LEG_CTRL_EN = 1 ∧ fget s2 Reg.LEG_CTRL Reg.LEG_CTRL_AS = p)
  let r := Rec.mk (if spi then 32 else 16 * p) c.1 0 tyEcho 3 0xFFFF 0 (secOf s2.now) (nsOf s2.now) 10000 false true
  let room := if spi then decide (s2.spi.cpls.length + s2.spi.owed < 16)
    else decide (fget s2 (Reg.HIF_RING_CFG p 0) Reg.HIF_RING_CFG_EN = 1) && roomFor s2 r
  if room then setChal (pushRec s2 r) p (some (c.1, s2.now)) else fwMiss (setChal s2 p none) p

/-- R347, R350: the challenges of a period: every port that is not the holder and has its link up. -/
def challengeAll (s : State) : State :=
  if dualMode s ≠ 2 ∨ s.up < s.dual.nextChal ∨ s.restart.inWindow then s else
  let one (s : State) (p : Nat) : State :=
    if s.dual.holder ≠ some p ∧ fget s (Reg.HIF_PSTATUS p) Reg.HIF_PSTATUS_LINK = 1 then challengePort s p else setChal s p none
  one (one { s with dual := { s.dual with nextChal := s.up + 10000000 } } 0) 1

/-- R347: FIREWATCH_CHALLENGE. -/
def execFirewatchChallenge (s : State) : Host.Outcome State Fault Refusal := done s (challengeAll s)

/-- R347, R348: an answer: a matching one is accepted with its latency and clears UNFIT; a HEARTBEAT has no value. -/
def echoAnswer (s : State) (e : Entry) : State :=
  match chalOf s e.port with
  | none => refuse s e 0x705 0 0
  | some (v, at_) =>
    if e.fmt1 ∨ eChallenge e = v then
      let lat := (eIn s e - at_) / (1000 * q40)
      let a := Reg.HIF_RCARD e.port
      let s1 := fset (fbump (setChal s e.port none) (a 2) Reg.HIF_RCARD_FW_OK) (a 2) Reg.HIF_RCARD_FW_LAT (min lat 65535)
      let s2 := fset (fset s1 (a 0) Reg.HIF_RCARD_FW_RUN 0) (a 0) Reg.HIF_RCARD_UNFIT 0
      regradeAll (answer s2 e 0 0 lat)
    else refuse s e 0x705 0 0

/-- R347: ECHO, format 2. -/
def execEcho (s : State) : Host.Outcome State Fault Refusal :=
  done s (admitIf s (fun _ e => decide (eType e = tyEcho) && !e.fmt1) (fenceGate echoAnswer))

/-- R347: HEARTBEAT, format 1. -/
def execHeartbeat (s : State) : Host.Outcome State Fault Refusal :=
  done s (admitIf s (fun _ e => decide (eType e = tyEcho) && e.fmt1) (fenceGate echoAnswer))

/-! ## Holds, modes and promotion -/

/-- R340: PAIR_HOLD_EXPIRY: holds whose end has come let their entries into admission. -/
def execPairHoldExpiry (s : State) : Host.Outcome State Fault Refusal := done s (advanceAll s)

/-- R341: a host returns to ACTIVE with count 0. -/
def promoteHost (s : State) (p : Nat) : State :=
  let d := s.dual
  let s1 := { s with dual := if p = 0 then { d with obsA := false, divA := 0 } else { d with obsB := false, divB := 0 } }
  regradeAll (fset s1 (Reg.HIF_RCARD p 1) Reg.HIF_RCARD_DIV 0)

/-- R335: what a change of mode does: every hold ends, roles and divergence counts start anew, the first challenge is due (notes/assumptions/113). -/
def modeChanged (s : State) : State :=
  let d := s.dual
  let s1 := { s with
    dual := { d with obsA := false, obsB := false, divA := 0, divB := 0, nextChal := s.up, chalA := none, chalB := none },
    hif := { s.hif with fetched := s.hif.fetched.map (fun e => if e.hold = 2 then { e with hold := 4 } else e) } }
  regradeAll (advanceAll (fset (fset s1 (Reg.HIF_RCARD 0 1) Reg.HIF_RCARD_DIV 0) (Reg.HIF_RCARD 1 1) Reg.HIF_RCARD_DIV 0))

/-- R341: MAINT of kind 1: only in mode 1 and only from the precedence host (notes/assumptions/114). -/
def maintPromote (s : State) (e : Entry) : State :=
  if malformed s e ≠ 0 then refuse s e 0x201 (malformed s e) 0
  else if dualMode s ≠ 1 then refuse s e 0x706 0 0
  else if e.port ≠ precedence s then refuse s e 0x202 0 0
  else answer (promoteHost s (1 - e.port)) e 0 0 0

/-- R341: PROMOTE_OTHER_HOST. -/
def execPromoteOtherHost (s : State) : Host.Outcome State Fault Refusal :=
  done s (admitIf s (fun _ e => decide (eType e = tyMaint ∧ eKind e = 1)) maintPromote)

/-- R352: HIF_DUAL_CMD.CLR: DUP, FW_OK, NP and LMARGIN of a card; the base of the dropped records that R349 compares. -/
def clearCard (s : State) (p : Nat) : State :=
  let a := Reg.HIF_RCARD p
  let s1 := fset (fset (fset s (a 1) Reg.HIF_RCARD_DUP 0) (a 2) Reg.HIF_RCARD_FW_OK 0) (a 4) Reg.HIF_RCARD_NP 0
  let s2 := fset s1 (a 4) Reg.HIF_RCARD_LMARGIN 0xFFFF
  let n := (rget s2 (Reg.HIF_PCNT p 4)).toNat
  regradeAll (if p = 0 then { s2 with dual := { s2.dual with npBaseA := n } } else { s2 with dual := { s2.dual with npBaseB := n } })

/-- R352: a write of HIF_DUAL_CMD. -/
def dualCmd (s : State) (v : Nat) : State :=
  let s1 := if bit v 0 then promoteHost s 0 else s
  let s2 := if bit v 1 then promoteHost s1 1 else s1
  let s3 := if bit v 2 then clearCard s2 0 else s2
  if bit v 3 then clearCard s3 1 else s3

end Sys2Proof.Machine
end

