-- ==== Sys2Proof/Machine/Timetable.lean ====
section
/-! DEFINITION. The timetable (R91), generations (R74), invalidation (R82 to R85), the admission tests (R62 to R65), bell
notices (R297), chart slots and locks (R108, R110). -/

namespace Sys2Proof.Machine

/-! ## The timetable -/

/-- R62: accepted, unfired bells (repair fires are not bells). -/
def timetable (s : State) : List Bell := s.bel.bells.filter (fun b => !b.repair && decide (b.st < 6))

/-- R64, R92: healthy lanes. -/
def lanes (s : State) : Nat := fget s Reg.BEL_STATUS Reg.BEL_STATUS_LANES

/-- R92: PENDING. -/
def pendingBells (s : State) : Nat := (timetable s).length

/-- Bells and repair fires in order of their instants. -/
def fireOrder (s : State) : List Bell := sortBy (fun b => (b.t : Int)) (s.bel.bells.filter (fun b => decide (b.st < 6)))

/-- R91: the entry of a bell written to the timetable window. -/
def entryWrite (s : State) (b : Bell) : State :=
  if b.repair ∨ 4096 ≤ b.idx then s else
  let a := 0x900000 + 32 * b.idx
  let s1 := mset (mset (mset s a 8 (b.t / 1000000000)) (a + 8) 4 (b.t % 1000000000)) (a + 0xC) 4 b.slot
  mset (mset (mset s1 (a + 0x10) 8 b.order) (a + 0x18) 4 b.gen) (a + 0x1C) 4
    (b.st + 256 * (b2n b.now + 2 * b2n b.twoWave + 4 * b.spans.length))

/-- A bell changed, found by its index. -/
def putBell (s : State) (b : Bell) : State :=
  entryWrite { s with bel := { s.bel with bells := s.bel.bells.map (fun x => if x.idx = b.idx then b else x) } } b

/-- A bell added. -/
def addBell (s : State) (b : Bell) : State := entryWrite { s with bel := { s.bel with bells := s.bel.bells ++ [b] } } b

/-- A bell gone: its entry is FREE. -/
def dropBell (s : State) (idx : Nat) : State :=
  let s1 := { s with bel := { s.bel with bells := s.bel.bells.filter (fun x => !decide (x.idx = idx)) } }
  if idx < 4096 then { s1 with mem := cut s1.mem (0x900000 + 32 * idx) 32 } else s1

/-- The bell at an index. -/
def bellAt (s : State) (idx : Nat) : Option Bell := s.bel.bells.find? (fun b => decide (b.idx = idx))

/-- The lowest free timetable entry. -/
def freeIdx (s : State) : Option Nat := (List.range 4096).find? (fun i => !(s.bel.bells.any (fun b => decide (b.idx = i))) && !(s.pwr.passes.any (fun p => decide (p.entry = i))))

/-- R61: with fewer than 4,096 bells pending a new bell always finds an entry: one of a fired bell, or of a pass that runs out, moves out
of the table's way (notes/assumptions/87). The state with the entry free, and the entry. -/
def takeIdx (s : State) : State × Nat :=
  match freeIdx s with
  | some i => (s, i)
  | none =>
    let i := ((List.range 4096).find? (fun i => !((timetable s).any (fun b => decide (b.idx = i))))).getD 0
    let n := 2 ^ 20 + s.bel.repairIdx
    ({ s with
        bel := { s.bel with repairIdx := s.bel.repairIdx + 1, bells := s.bel.bells.map (fun b => if b.idx = i then { b with idx := n } else b),
                            cutOff := s.bel.cutOff.map (fun j => if j = i then n else j) },
        pwr := { s.pwr with passes := s.pwr.passes.map (fun p => if p.entry = i then { p with entry := n } else p),
                            wins := s.pwr.wins.map (fun w => if w.1 = i then (n, w.2) else w) },
        mem := cut (cut s.mem (0x900000 + 32 * i) 32) (0xA00000 + 32 * i) 32 }, i)

/-! ## Staging slots and generations -/

/-- R127: the base of a rank's slot in the shadow drive memory. -/
def slotBase (t k : Nat) : Nat := (9 * t + k) * 8768

/-- R127: GEN and VALID of a slot. -/
def slotGen (s : State) (t k : Nat) : Nat := rd s.slotMem (slotBase t k) 4
def slotValid (s : State) (t k : Nat) : Bool := bit (rb s.slotMem (slotBase t k + 4)) 0

/-- R73: a slot freed: VALID clears; its data may stay (R85). -/
def slotFree (s : State) (t k : Nat) : State :=
  { s with slotMem := wr s.slotMem (slotBase t k + 4) 1 (putBit (rb s.slotMem (slotBase t k + 4)) 0 false) }

/-- R73, R82: the slots that carry a generation are freed in every rank. -/
def slotsFree (s : State) (gen : Nat) : State :=
  (List.range 96).foldl (fun s t => (List.range 9).foldl (fun s k =>
    if slotValid s t k ∧ slotGen s t k = gen then slotFree s t k else s) s) s

/-- R74: a value that a live object carries: a bell, a valid slot, an arm register or the state image. -/
def genLive (s : State) (g : Nat) : Bool :=
  s.bel.bells.any (fun b => decide (b.gen = g)) || decide ((rget s Reg.RTS_IMG_GEN).toNat = g) ||
  (List.range 96).any (fun t => decide ((rget s (Reg.DRV_ARM_GEN t)).toNat = g) || decide ((rget s (Reg.DRV_RETRY_GEN t)).toNat = g) ||
    (List.range 9).any (fun k => slotValid s t k && decide (slotGen s t k = g)))

/-- R74: the next generation value: never 0, wrapping to 1, passing over live values. -/
def nextGen (s : State) : Nat → Nat → Nat
  | 0, g => g
  | f + 1, g =>
    let n := if g + 1 = 2 ^ 32 then 1 else g + 1
    if genLive s n then nextGen s f n else n

/-- R74: a generation is assigned. At most 5,200 values are live at once. -/
def newGen (s : State) : Nat × State :=
  let g := nextGen s 6000 (rget s Reg.BEL_GEN).toNat
  (g, rset s Reg.BEL_GEN (BitVec.ofNat 32 g))

/-! ## Invalidation (R82, R83) -/

/-- R66: the event at the present moment is taken into a bell: it does not lie after the bell's cut-off. -/
def beforeCutoff (s : State) (b : Bell) : Bool := decide (s.now + 12000 * q40 ≤ b.t * q40)

/-- R66: what a bell takes where its work falls after its cut-off: the state as it was at the cut-off. -/
def inputsOf (s : State) (b : Bell) : State :=
  match b.held with
  | none => s
  | some p =>
    let m := fun (m : Tab Byte) (src : Tab Byte) (a n : Nat) => copyRange src a n m a
    let s1 := { s with mem := m (m s.mem p.fault 0x934800 768) p.cal 0x940000 0x60000 }
    let s2 := rset s1 Reg.PWR_STATUS p.status
    (List.range 4).foldl (fun x k => rset x (Reg.PWR_RAIL_TGT k) (p.targets.getD k 0)) s2

/-- R66: an event is about to change what plans take: a bell past its cut-off that is not yet planned keeps its inputs. -/
def keepInputs (s : State) : State :=
  let p := Inputs.mk (slice s.mem 0x934800 768) (slice s.mem 0x940000 0x60000) (rget s Reg.PWR_STATUS)
    ((List.range 4).map (fun k => rget s (Reg.PWR_RAIL_TGT k)))
  { s with bel := { s.bel with bells := s.bel.bells.map (fun b =>
    if !beforeCutoff s b ∧ b.st < 3 ∧ b.held.isNone then { b with held := some p } else b) } }

/-- R106: the lanes that solve a bell abandon it. -/
def abandonSolve (s : State) (idx : Nat) : State :=
  let f (l : Option Lane) : Option Lane := match l with
    | some x => if x.kind = 0 ∧ x.bell = idx then none else some x
    | none => none
  { s with bel := { s.bel with laneA := f s.bel.laneA, laneB := f s.bel.laneB } }

/-- R82: a bell's work is discarded from its solve or from its plan on, under a new generation; `keep` leaves the plan itself, whose
stages are made again (R67). -/
def discardWork (s : State) (b : Bell) (solveToo keep : Bool) : State :=
  let s1 := slotsFree s b.gen
  let s2 := if solveToo then abandonSolve s1 b.idx else s1
  let g := newGen s2
  putBell g.2 { b with gen := g.1, plan := if keep then b.plan else none, stagedTiles := [], sol := if solveToo then none else b.sol,
                       st := if solveToo then 1 else min b.st 2, inval := true }

/-- R82, R83, R85: a bell is invalidated by a cause of BEL_INVALk. -/
def invalidateK (s : State) (solveToo keep : Bool) (cause : Nat) (b : Bell) : State :=
  if beforeCutoff s b ∧ b.st < 5 then
    let b1 := { b with nInval := min 255 (b.nInval + 1) }
    let s1 := discardWork (putBell s b1) b1 solveToo keep
    if b.repair then s1 else bump s1 (Reg.BEL_INVAL cause)
  else s

/-- R83: an invalidation that reaches the plan. -/
def invalidate (s : State) (solveToo : Bool) (cause : Nat) (b : Bell) : State := invalidateK s solveToo false cause b

/-- The first bell after an instant. -/
def nextAfter (s : State) (t : Nat) : Option Bell := (fireOrder s).find? (fun b => decide (t < b.t))

/-- R83: the next bell after an instant loses its plan. -/
def invalNext (s : State) (t cause : Nat) : State :=
  match nextAfter s t with
  | some b => invalidate s false cause b
  | none => s

/-- R83: every bell is invalidated. -/
def invalAll (s : State) (solveToo : Bool) (cause : Nat) : State := (fireOrder s).foldl (fun s b => invalidate s solveToo cause b) s

/-! ## Chart slots (R108, R110) -/

/-- R114: the slot holds a chart. -/
def loaded (s : State) (k : Nat) : Bool := bit (rget s (Reg.RTS_LOADED (k / 32))).toNat (k % 32)

/-- R108: the chart of a slot. -/
def chartOf (s : State) (k : Nat) : BitVec 8192 := BitVec.ofNat 8192 (rd s.mem (0x800000 + 0x400 * k) 1024)

/-- R108: a slot's contents replaced as a whole. -/
def chartPut (s : State) (k : Nat) (c : BitVec 8192) : State :=
  let s1 := { s with mem := wbytes (cut s.mem (0x800000 + 0x400 * k) 1024) (0x800000 + 0x400 * k) (leBytes c.toNat 1024) }
  rput s1 (Reg.RTS_LOADED (k / 32)) (k % 32) true

/-- R108: a slot emptied. -/
def chartClear (s : State) (k : Nat) : State :=
  rput { s with mem := cut s.mem (0x800000 + 0x400 * k) 1024 } (Reg.RTS_LOADED (k / 32)) (k % 32) false

/-- R110: a slot is locked: a bell that has not completed names it, or it is the chart in force. -/
def locked (s : State) (k : Nat) : Bool :=
  s.bel.bells.any (fun b => !b.repair && decide (b.slot = k)) || decide (s.bel.forceSlot = some k)

/-! ## Bell notices (R297) -/

/-- R297: the 176-byte body of a notice, most significant byte first. -/
def noticeBody (event waves status order t gen nUnroute nRetired landLast : Nat) (changed dark : BitVec 512) : List Nat :=
  let tail := (List.range 64).map (fun j => bits changed.toNat (8 * j) 8) ++ (List.range 64).map (fun j => bits dark.toNat (8 * j) 8)
  let head := beBytes event 1 ++ beBytes waves 1 ++ beBytes status 2 ++ beBytes order 8 ++ beBytes (t / 1000000000) 8 ++
    beBytes (t % 1000000000) 4 ++ beBytes gen 4 ++ beBytes nUnroute 2 ++ beBytes nRetired 2 ++ beBytes landLast 4
  let body := head ++ tail
  body ++ List.replicate (176 - body.length) 0

/-- R297, R327: a notice for every Ethernet port with a notice stream, and, while HALT is not in force (R325), for every host-memory
notice stream. -/
def notice (s : State) (body : List Nat) : State :=
  let streamsOf (p : Nat) : List (Nat × Stream) := (portOf s p).streams.filter (fun x => x.2.on && decide (x.2.content = 0))
  let eths := (List.range 4).filter (fun e => decide (fget s (Reg.ETH_CTRL e) Reg.ETH_CTRL_TEL_EN = 1) &&
    (streamsOf 0 ++ streamsOf 1).any (fun x => decide (x.2.kind = 2 ∧ x.2.dest % 4 = e)))
  let s1 := eths.foldl (fun s e => { s with hif := { s.hif with notices := tset s.hif.notices [] e (tget s.hif.notices [] e ++ [body]) } }) s
  [0, 1].foldl (fun s p =>
    let pt := portOf s p
    setPort s p { pt with streams := pt.streams.map (fun x =>
      if x.2.on ∧ x.2.content = 0 ∧ x.2.kind = 1 ∧ !halted s then (x.1, { x.2 with queue := x.2.queue ++ [body] }) else x) }) s1

/-! ## Admission tests (R62 to R65) -/

/-- R63: the spacing in force in ns. -/
def spacing (s : State) : Nat := fget s Reg.BEL_SPACING Reg.BEL_SPACING_IN_FORCE * 20

/-- R62: the lead test. -/
def leadOk (tIn t : Nat) : Bool := decide (tIn + 20000 * q40 ≤ t * q40)

/-- R319: the lead in ns, 0 if negative, saturating. -/
def leadNs (tIn t : Nat) : Nat := min 0xFFFFFFFF ((t * q40 - tIn) / q40)

/-- R63: the spacing test against a timetable. -/
def spacingOk (s : State) (tt : List Bell) (t : Nat) : Bool :=
  tt.all (fun b => decide (b.t + spacing s ≤ t ∨ t + spacing s ≤ b.t))

/-- R64, R392: the solver capacity test of a descriptor, with the healthy lanes, the solved bells and the time to RUN of its intake
timestamp. -/
def solverOk (s : State) (tt : List Bell) (e : Entry) (t : Nat) : Bool :=
  if e.lanesIn = 0 then false else
  let p := 6000 / e.lanesIn
  let q := (tt.filter (fun b => decide (b.t < t) && !e.solvedIn.contains b.order)).length
  let ts := t :: tt.map (·.t)
  decide (eIn s e + (8000 + q * p + e.runIn) * q40 + 6000 * q40 ≤ t * q40) &&
  ts.all (fun ti => ts.all (fun tj => decide (tj ≤ ti) ||
    decide ((ts.filter (fun x => decide (ti < x ∧ x ≤ tj))).length * p ≤ tj - ti)))

/-- R65: the estimate of a bell's kick: energy and peak asked for, and waves; none where two waves do not suffice. Powers in
0.1 mW, energies in 0.1 nJ, asked in 10 mW and 10 nJ, rounded up. -/
def kickAsk (s : State) : Option (Nat × Nat × Nat) :=
  let n := mapCells (fm s)
  let pc := fget s Reg.BEL_KICK Reg.BEL_KICK_P_CELL
  let ec := fget s Reg.BEL_KICK Reg.BEL_KICK_E_CELL
  let hp := fget s Reg.PWR_HP Reg.PWR_HP_PEAK
  let e := divUp (n * ec) 100
  if n * pc ≤ hp * 1000 then some (divUp (n * pc) 100, e, 1)
  else if 5 * ((n + 1) / 2) * pc ≤ 4 * (hp * 1000) then some (hp * 10, e, 2)
  else none

end Sys2Proof.Machine
end

