-- ==== Sys2Proof/Machine/Admission.lean ====
section
/-! DEFINITION. Admission of BELL, NOW, AMEND, CANCEL, CHART, QUERY and MAINT descriptors (R56 to R65, R109 to R112, R317,
R337 to R342, R54 is with the drive array). -/

namespace Sys2Proof.Machine

/-! ## Preconditions shared by the shared types -/

/-- R61 precondition 2 for a shared type (R318, R337). -/
def permitted (s : State) (e : Entry) : Bool :=
  let m := dualMode s
  if m = 1 then !e.fmt1 && decide (role s e.port ≠ 2)
  else if m = 2 then decide (e.hold = 4) || leaseOk s e
  else true

/-- R339, R341, R342: a descriptor whose order number the journal holds: DUPLICATE or DIVERGED against the journaled copy. -/
def journalHit (s : State) (e : Entry) (i : Nat) : State :=
  let a := 0xA40000 + 32 * i
  let dg := mget s (a + 8) 4
  let src := mget s (a + 0xD) 1
  let dvg := decide (eDigest e ≠ dg)
  let s1 := pushRec s (intakeRec e (if dvg then 0x502 else 0x501) src (mget s (a + 0x10) 8) (mget s (a + 0x18) 4) dg)
  let s2 := journalTwin s1 i dvg
  let s3 := { s2 with bel := { s2.bel with bells := s2.bel.bells.map (fun b =>
    if b.order = e.order ∧ !b.repair then { b with twins := b.twins ++ [e.src] } else b) } }
  let srcPort := if src = 32 then fget s Reg.LEG_CTRL Reg.LEG_CTRL_AS else bits src 4 1
  if dvg then
    let s4 := report s3 srcDual 0x40 i (eDigest e)
    if srcPort ≠ e.port then addDivergence s4 else s4
  else fbump s3 (Reg.HIF_RCARD e.port 1) Reg.HIF_RCARD_DUP

/-- R339, R340: an accepted shared-type descriptor: journaled, and the copies that met it noted. Answers its twins. -/
def accepted (s : State) (e : Entry) : State × List Nat :=
  let s1 := journalPut s e.order (eDigest e) (eType e) e.src (eIn s e)
  let i := (rget s1 Reg.HIF_JRNL_HEAD).toNat
  takeTwins (reportHeldDiverge s1 e.order i) e.order i

/-- R340: a shared-type descriptor that was refused: the copies that met it. -/
def notAccepted (s : State) (e : Entry) : State := (takeTwins (reportHeldDiverge s e.order 0x1000) e.order 0x1000).1

/-- R61, R339: the checks that precede every shared type, then the type's own handling. -/
def sharedGate (act : State → Entry → State) (s : State) (e : Entry) : State :=
  if malformed s e ≠ 0 then notAccepted (refuse s e 0x201 (malformed s e) 0) e
  else if !permitted s e then notAccepted (refuse s e 0x202 0 0) e
  else match journalFind s e.order with
    | some i => journalHit s e i
    | none => act s e

/-! ## Bells -/

/-- R319: the record of an admission test's outcome, with the instant and the detail. -/
def testRec (s : State) (e : Entry) (status t detail : Nat) : State :=
  pushRec (if status = 0 then s else countRefuse s e status)
    (intakeRec e status 0 (t / 1000000000) (t % 1000000000) detail)

/-- R392: an accepted bell or a retirement takes the device back to RUN within 4 µs; EXIT names what began the return. -/
def wakeFor (s : State) (why : Nat) : State :=
  if fget s Reg.GLB_PSTATE Reg.GLB_PSTATE_STATE < 2 then s
  else match s.boot.pstWake with
    | some w => { s with boot := { s.boot with pstWake := some (min w (s.up + 4000)) } }
    | none => fset { s with boot := { s.boot with pstWake := some (s.up + 4000) } } Reg.GLB_PSTATE Reg.GLB_PSTATE_EXIT why

/-- What an accepted bell leaves: a timetable entry with its pass, a generation, an outcome owed, the next bell's plan undone,
the acceptance record and the notice. -/
def bellAccept (s : State) (e : Entry) (idx t : Nat) (isNow : Bool) (waves : Nat) : State :=
  let g := newGen s
  let a := accepted g.2 e
  let b := Bell.mk idx e.order t (eSlot e) g.1 1 isNow (eQuiet e) (eOutmask e) (eSpans e) (decide (waves = 2)) e.src
    (if e.fmt1 then eTag e else 0) (eIn s e) 0 none none [] Verify.init a.2 false [] false
    (fget s Reg.BEL_KICK Reg.BEL_KICK_P_CELL) (fget s Reg.BEL_KICK Reg.BEL_KICK_E_CELL) none
  let s1 := addBell a.1 b
  let s2 := invalNext s1 t 0
  let s3 := if e.src < 64 then setOwed s2 e.src (owed s2 e.src + 1) else s2
  let s4 := if eQuiet e then s3 else notice s3 (noticeBody 0 0 0 e.order t 0 0 0 0 0 0)
  wakeFor (testRec s4 e 0 t (leadNs (eIn s e) t)) 1

/-- R65, R265: the hall pass of a bell at a timetable entry: the state, 0 or the detail of the refusal plus 1, and waves. -/
def hallPass (s : State) (idx t : Nat) : State × Nat × Nat :=
  match kickAsk s with
  | none => (s, 1, 2)
  | some (peak, energy, waves) =>
    let r := brokerAsk s idx 0 waves 0xFF peak energy t 1700
    if r.2 = 0 then (r.1, 0, waves) else (r.1, r.2 + 1, waves)

/-- R56, R61 to R65: a BELL past the journal. -/
def bellAdmit (s : State) (e : Entry) : State :=
  let t := eInstant s e
  let tin := eIn s e
  let lead := leadNs tin t
  let no (s : State) (st d : Nat) : State := notAccepted (testRec s e st t d) e
  if !loaded s (eSlot e) then notAccepted (refuse s e 0x203 0 0) e
  else if 4096 ≤ pendingBells s then notAccepted (refuse s e 0x205 0 0) e
  else if tin + 3600000000000 * q40 < t * q40 then notAccepted (refuse s e 0x206 0 0) e
  else if !leadOk tin t then no s 0x101 lead
  else if !spacingOk s (timetable s) t then no s 0x102 lead
  else if !solverOk s (timetable s) e t then no s 0x103 lead
  else
    let x := takeIdx s
    let h := hallPass x.1 x.2 t
    if h.2.1 ≠ 0 then no h.1 0x104 (h.2.1 - 1) else bellAccept h.1 e x.2 t false h.2.2

/-- R57: the next candidate of a NOW: the first later grid edge at which the failing test holds as a whole (notes/assumptions/88). -/
def nextEdge (ok : Nat → Bool) : Nat → Nat → Option Nat
  | 0, _ => none
  | f + 1, t => if ok t then some t else nextEdge ok f (t + 20)

/-- R57: the walk over candidates: a passing instant, or the last candidate with its failing test's status. -/
def nowWalk (s : State) (e : Entry) (lim : Nat) : Nat → Nat → Nat × Nat
  | 0, t => (t, 0x103)
  | f + 1, t =>
    let tin := eIn s e
    let sp (x : Nat) : Bool := spacingOk s (timetable s) x
    let sv (x : Nat) : Bool := solverOk s (timetable s) e x
    if !sp t then
      match nextEdge sp 4000000 (t + 20) with
      | none => (t, 0x102)
      | some n => if tin + lim * 1000 * q40 < n * q40 then (t, 0x102) else nowWalk s e lim f n
    else if !sv t then
      match nextEdge sv 4000000 (t + 20) with
      | none => (t, 0x103)
      | some n => if tin + lim * 1000 * q40 < n * q40 then (t, 0x103) else nowWalk s e lim f n
    else (t, 0)

/-- R57: a NOW past the journal. -/
def nowAdmit (s : State) (e : Entry) : State :=
  let tin := eIn s e
  if !loaded s (eSlot e) then notAccepted (refuse s e 0x203 0 0) e
  else if 4096 ≤ pendingBells s then notAccepted (refuse s e 0x205 0 0) e
  else
    let w := nowWalk s e (max 20 (fget s Reg.BEL_NOW Reg.BEL_NOW_WINDOW)) 9000 (gridAfter (tin + 20000 * q40))
    if w.2 ≠ 0 then notAccepted (testRec s e w.2 w.1 (leadNs tin w.1)) e
    else
      let x := takeIdx s
      let h := hallPass x.1 x.2 w.1
      if h.2.1 ≠ 0 then notAccepted (testRec h.1 e 0x104 w.1 (h.2.1 - 1)) e else bellAccept h.1 e x.2 w.1 true h.2.2

/-- R86: spans that an AMEND keeps because they have begun, then the replacement's. -/
def amendSpans (old new : List Span) : List Span :=
  (List.range (max old.length new.length)).filterMap (fun k =>
    match old[k]? with
    | some o => if o.begun then some o else new[k]?
    | none => new[k]?)

/-- R83, R85: the bells that an accepted AMEND touches besides the named one, each once: the next after its old instant, and after its new
one where the instant changed. -/
def amendNext (s : State) (old new : Nat) (b : Bell) : List Bell :=
  let l := ([nextAfter s old] ++ (if old = new then [] else [nextAfter s new])).filterMap id
  (l.filter (fun x => !decide (x.idx = b.idx))).eraseDups

/-- R58, R83: an accepted AMEND replaces its bell: the pass, the kick limits of now, the work that the change reaches, and the
neighbours' plans. -/
def amendAccept (s : State) (e : Entry) (b : Bell) (t waves : Nat) : State :=
  let a := accepted s e
  let chartCh := decide (eSlot e ≠ b.slot)
  let instCh := decide (t ≠ b.t)
  let kick := rget s Reg.BEL_KICK
  let spans := amendSpans b.spans (eSpans e)
  let anyCh := chartCh || instCh || decide (eQuiet e ≠ b.quiet ∨ eOutmask e ≠ b.outmask ∨ spans ≠ b.spans)
  let b1 := { b with t := t, slot := eSlot e, quiet := eQuiet e, outmask := eOutmask e, spans := spans, twoWave := decide (waves = 2),
                     pCell := getF kick Reg.BEL_KICK_P_CELL, eCell := getF kick Reg.BEL_KICK_E_CELL }
  let s1 := putBell a.1 b1
  let s2 := if !anyCh then s1
    else
      (amendNext s1 b.t t b).foldl (fun x y => invalidate x false 1 y) (invalidate s1 chartCh 1 b1)
  let s3 := if eQuiet e then s2 else notice s2 (noticeBody 1 0 0 b.order t 0 0 0 0 0 0)
  wakeFor (testRec s3 e 0 t (leadNs (eIn s e) (min b.t t))) 1

/-- R58: an AMEND past the journal: the replacement is tested with the named bell left out of the timetable. -/
def amendAdmit (s : State) (e : Entry) : State :=
  let t := eInstant s e
  let tin := eIn s e
  let no (s : State) (st t d : Nat) : State := notAccepted (testRec s e st t d) e
  if !loaded s (eSlot e) then notAccepted (refuse s e 0x203 0 0) e
  else match targetOf s e with
    | none => notAccepted (refuse s e 0x204 0 0) e
    | some b =>
      let tt := (timetable s).filter (fun x => !decide (x.idx = b.idx))
      let lead := leadNs tin (min b.t t)
      if tin + 3600000000000 * q40 < t * q40 then notAccepted (refuse s e 0x206 0 0) e
      else if !leadOk tin (min b.t t) then no s 0x101 t lead
      else if !spacingOk s tt t then no s 0x102 t lead
      else if !solverOk s tt e t then no s 0x103 t lead
      else
        let h := hallPass (passRelease s b.idx) b.idx t
        if h.2.1 = 0 then amendAccept h.1 e b t h.2.2
        else no (if h.2.1 = 1 then s else bump s (Reg.PWR_CNT (h.2.1 - 1))) 0x104 t (h.2.1 - 1)

/-- R59: a CANCEL past the journal. -/
def cancelAdmit (s : State) (e : Entry) : State :=
  let tin := eIn s e
  match targetOf s e with
  | none => notAccepted (refuse s e 0x204 0 0) e
  | some b =>
    if !leadOk tin b.t then notAccepted (testRec s e 0x101 b.t (leadNs tin b.t)) e
    else
      let a := accepted s e
      let s1 := slotsFree (abandonSolve (passRelease a.1 b.idx) b.idx) b.gen
      let s2 := dropBell s1 b.idx
      let s3 := invalNext s2 b.t 2
      let s4 := if b.src < 64 then setOwed s3 b.src (owed s3 b.src - 1) else s3
      let s5 := if b.quiet then s4 else notice s4 (noticeBody 2 0 0 b.order b.t 0 0 0 0 0 0)
      testRec s5 e 0 b.t (leadNs tin b.t)

/-- The next descriptor has a type. -/
def isType (t : Nat) (_ : State) (e : Entry) : Bool := decide (eType e = t)

/-- R109, R111: a CHART past the journal: the lock first, then the image. -/
def chartAdmit (s : State) (e : Entry) : State :=
  let k := eSlot e
  let bad (s : State) : State := bump s (Reg.RTS_CNT 8)
  if locked s k then notAccepted (answer (bad s) e 0x402 0 0) e
  else if eClear e then
    let a := accepted (chartClear s k) e
    answer a.1 e 0 0 0
  else
    let im := e.img.getD 0
    match chartBad (fm s) im with
    | some w => notAccepted (answer (bad s) e 0x401 0 w) e
    | none =>
      let a := accepted (bump (chartPut s k im) (Reg.RTS_CNT 7)) e
      answer a.1 e 0 0 0

/-! ## Queries (R112, R319) -/

/-- R61, R337: the checks that precede a per-host type. -/
def perHostGate (act : State → Entry → State) (s : State) (e : Entry) : State :=
  if malformed s e ≠ 0 then refuse s e 0x201 (malformed s e) 0
  else if e.fmt1 ∧ dualMode s = 1 then refuse s e 0x202 0 0
  else act s e

/-- R112: a route check is queued; a slot that is empty at admission is refused. -/
def routeCheckAdmit (s : State) (e : Entry) : State :=
  if !loaded s (eSlot e) then refuse s e 0x203 0 0
  else
    { s with bel := { s.bel with checks := s.bel.checks ++
      [Check.mk (eSlot e) e.order (eIn s e) e.src e.idx (eType e) (eIn s e + 10000000 * q40)] } }

/-- R319: the state of a bell: STATE, GEN and T; zeros where there is none. -/
def bellStateAdmit (s : State) (e : Entry) : State :=
  match s.bel.bells.find? (fun b => !b.repair && decide (b.order = eTarget e)) with
  | some b => pushRec s (intakeRec e 0 b.st (b.t / 1000000000) (b.t % 1000000000) b.gen)
  | none => pushRec s (intakeRec e 0 0 0 0 0)

/-- R112: ROUTE_CHECK; a QUERY that is not well formed is refused here. -/
def execRouteCheck (s : State) : Host.Outcome State Fault Refusal :=
  done s (admitIf s (fun _ e => decide (eType e = tyQuery ∧ eKind e ≠ 1)) (perHostGate routeCheckAdmit))

/-- R319: BELL_STATE. -/
def execBellState (s : State) : Host.Outcome State Fault Refusal :=
  done s (admitIf s (fun _ e => decide (eType e = tyQuery ∧ eKind e = 1)) (perHostGate bellStateAdmit))

/-- R109: CHART. -/
def execChart (s : State) : Host.Outcome State Fault Refusal := done s (admitIf s (isType tyChart) (sharedGate chartAdmit))

/-- R327: what a TELEM descriptor sets. -/
def telemStream (d : BitVec 512) : Stream :=
  { Stream.init with
    on := decide (dB d 0x11 1 ≠ 0), kind := dB d 0x11 1, content := dB d 0x12 1, dest := dB d 0x13 1,
    period := (let p := dB d 0x14 4; if p = 0 then 1000 else p), addr := BitVec.ofNat 64 (dB d 0x18 8), len := dB d 0x20 4,
    ip6 := BitVec.ofNat 128 (dB d 0x24 16), src := dB d 0x34 3, words := dB d 0x38 2, udpSrc := dB d 0x3A 2 }

/-- R327: a TELEM replaces its stream's settings at once; the next record falls due a period later. A destination on a
disabled Ethernet port is refused BAD_ARG (R317). -/
def telemAdmit (s : State) (e : Entry) : State :=
  let st := telemStream e.raw
  if st.kind = 2 ∧ fget s (Reg.ETH_CTRL (st.dest % 4)) Reg.ETH_CTRL_EN = 0 then refuse s e 0x601 0 0
  else
    let pt := portOf s e.port
    let nx := if st.content = 0 ∨ st.content = 1 then 2 ^ 64 else s.up + st.period * 1000
    answer (setPort s e.port { pt with streams := tset pt.streams Stream.init (dB e.raw 0x10 1) { st with next := nx } }) e 0 0 0

/-- R327: TELEM. -/
def execTelem (s : State) : Host.Outcome State Fault Refusal := done s (admitIf s (isType tyTelem) (perHostGate telemAdmit))

end Sys2Proof.Machine
end

