-- ==== Sys2Proof/Machine/Power.lean ====
section
/-! DEFINITION. Rails (R248 to R254), PWM channels (R255 to R258), trips (R259 to R261), rail controllers (R262) and the PWR
registers' own write rules. -/

namespace Sys2Proof.Machine

/-! ## Rails -/

/-- The reference ramp of a rail. -/
def railOf (s : State) (k : Nat) : Rail := tget s.pwr.rails Rail.init k

/-- A rail replaced. -/
def setRail (s : State) (k : Nat) (r : Rail) : State := { s with pwr := { s.pwr with rails := tset s.pwr.rails Rail.init k r } }

/-- R250: the reference of a rail now, in nV. -/
def refNow (s : State) (k : Nat) : Nat :=
  let r := railOf s k
  let d := r.slope * (s.up - r.t0)
  if r.v0 ≤ r.v1 then min r.v1 (r.v0 + d) else max r.v1 (r.v0 - d)

/-- PWR_STATUS bits of a rail. -/
def railReg (s : State) (k : Nat) : Bool := bit (fget s Reg.PWR_STATUS Reg.PWR_STATUS_REG) k
def railFailed (s : State) (k : Nat) : Bool := bit (fget s Reg.PWR_STATUS Reg.PWR_STATUS_FAIL) k
def setRailReg (s : State) (k : Nat) (b : Bool) : State := rput s Reg.PWR_STATUS k b
def setRailFailed (s : State) (k : Nat) (b : Bool) : State := rput s Reg.PWR_STATUS (8 + k) b

/-- R254: a PIC shut-down has begun. -/
def powerShut (s : State) : Bool := decide (fget s Reg.PWR_STATUS Reg.PWR_STATUS_SHUTDOWN = 1)

/-- R249: the target of a hold rail in force, units of 10 mV; for KICK the level its open windows ask for (R253). -/
def railTarget (s : State) (k : Nat) : Nat :=
  if k < 4 then
    if fget s Reg.PWR_STATUS Reg.PWR_STATUS_TSET = 1 then fget s (Reg.PWR_RAIL_TGT k) Reg.PWR_RAIL_TGT_TGT1
    else fget s (Reg.PWR_RAIL_TGT k) Reg.PWR_RAIL_TGT_TGT0
  else if s.pwr.wins.isEmpty then fget s Reg.PWR_KICK Reg.PWR_KICK_IDLE else fget s Reg.PWR_KICK Reg.PWR_KICK_BELL

/-- nV of a voltage in units of 10 mV. -/
def nV (v : Nat) : Nat := v * 10000000

/-- R251: the slope of soft-starts and target changes, nV per ns. -/
def ssSlope (s : State) : Nat := 100 * max 1 (fget s Reg.PWR_CTRL Reg.PWR_CTRL_SS_RATE)

/-- R253: the slope of KICK between its levels, nV per ns. -/
def kickSlope (s : State) : Nat := 100000 * max 1 (fget s Reg.PWR_KICK2 Reg.PWR_KICK2_RATE)

/-- A rail's reference starts to move from a value to another. -/
def rampFrom (s : State) (k v0 v1 slope : Nat) : State :=
  setRail s k { (railOf s k) with v0 := v0, v1 := v1, t0 := s.up, slope := slope, fallAt := none }

/-- The rail is enabled and working. -/
def railLive (s : State) (k : Nat) : Bool :=
  decide (fget s (Reg.PWR_RAIL_CFG k) Reg.PWR_RAIL_CFG_EN = 1) && !railFailed s k && !powerShut s

/-- R250, R254: a rail whose voltage is judged against its reference: enabled and not failed, through the shut-down ramp (notes/assumptions/112). -/
def railJudged (s : State) (k : Nat) : Bool :=
  decide (fget s (Reg.PWR_RAIL_CFG k) Reg.PWR_RAIL_CFG_EN = 1) && !railFailed s k && !s.pwr.railsOff

/-- R252: a soft-start from a voltage in nV to the target. -/
def softStart (s : State) (k v0 : Nat) : State := rampFrom s k v0 (nV (railTarget s k)) (ssSlope s)

/-- R252: a write of PWR_RAILk_CFG. -/
def railCfgWrite (s : State) (k v : Nat) : State :=
  let was := fget s (Reg.PWR_RAIL_CFG k) Reg.PWR_RAIL_CFG_EN
  let s1 := plainWrite s (Reg.PWR_RAIL_CFG k) v
  if was = 0 ∧ v % 2 = 1 then (if railLive s1 k then softStart (setRail s1 k { (railOf s1 k) with outAt := none }) k 0 else s1)
  else if was = 1 ∧ v % 2 = 0 then setRail (setRailReg s1 k false) k { (railOf s1 k) with v0 := 0, v1 := 0, outAt := none, fallAt := none }
  else s1

/-- R251: the reference after a target change of a working rail: up at once, down 2 µs later. -/
def retarget (s : State) (k old : Nat) : State :=
  let new := railTarget s k
  if !railLive s k then s
  else if old < new then rampFrom s k (refNow s k) (nV new) (ssSlope s)
  else if new < old then setRail s k { (railOf s k) with fallAt := some (s.up + 2000) }
  else s

/-- R251: REFERENCE_FALL_START. -/
def fallStart (s : State) (k : Nat) : State :=
  match (railOf s k).fallAt with
  | some t => if t ≤ s.up ∧ railLive s k then rampFrom s k (refNow s k) (nV (railTarget s k)) (ssSlope s) else s
  | none => s

/-- R251: REFERENCE_FALL_START. -/
def execReferenceFallStart (k : Fin 4) (s : State) : Host.Outcome State Fault Refusal := done s (fallStart s k)

/-- R248: a set of targets is in order: each within its range, neighbours at least 0.50 V apart. -/
def chainOk (l : List Nat) : Bool :=
  match l with
  | a :: b :: r => decide (a + 50 ≤ b) && chainOk (b :: r)
  | _ => true

/-- R248: the targets after a change hold the order and their ranges. -/
def targetsOk (s : State) : Bool :=
  let f (k : Nat) (w : Fld) : Nat := fget s (Reg.PWR_RAIL_TGT k) w
  let set (w : Fld) : List Nat := (List.range 4).map (fun k => f k w)
  let idle := fget s Reg.PWR_KICK Reg.PWR_KICK_IDLE
  let bell := fget s Reg.PWR_KICK Reg.PWR_KICK_BELL
  let hold (w : Fld) : Bool := (set w).all (fun v => decide (100 ≤ v ∧ v ≤ 1200)) && chainOk (set w ++ [idle])
  hold Reg.PWR_RAIL_TGT_TGT0 && hold Reg.PWR_RAIL_TGT_TGT1 && decide (400 ≤ idle ∧ idle ≤ bell ∧ bell ≤ 1600)

/-- R253: (BELL − IDLE) / RATE is at most 4 µs. -/
def kickRateOk (s : State) : Bool :=
  decide (fget s Reg.PWR_KICK Reg.PWR_KICK_BELL - fget s Reg.PWR_KICK Reg.PWR_KICK_IDLE ≤ 40 * max 1 (fget s Reg.PWR_KICK2 Reg.PWR_KICK2_RATE))

/-- R248, R253: a write of PWR_KICK or PWR_KICK2 that breaks a rule is discarded and recorded; another moves KICK's reference. -/
def kickWrite (s : State) (m : Master) (a v : Nat) : State :=
  let s1 := plainWrite s a v
  if !(targetsOk s1 && kickRateOk s1) then refuseWrite s m a
  else if railLive s1 4 ∧ railTarget s1 4 ≠ railTarget s 4 then rampFrom s1 4 (refNow s1 4) (nV (railTarget s1 4)) (kickSlope s1)
  else s1

/-- R253: KICK_STATE. -/
def kickState (s : State) : Nat :=
  let r := railOf s 4
  let bell := nV (fget s Reg.PWR_KICK Reg.PWR_KICK_BELL)
  if s.pwr.wins.isEmpty then (if r.v1 < r.v0 ∧ refNow s 4 ≠ r.v1 then 3 else 0)
  else if refNow s 4 = bell then 2 else 1

/-- R253: a pre-raise window opens for a bell: KICK rises to BELL, or its descent is reversed. -/
def kickRaise (s : State) (idx close : Nat) : State :=
  let first := s.pwr.wins.isEmpty
  let s1 := { s with pwr := { s.pwr with wins := s.pwr.wins.filter (fun w => decide (nowNs s ≤ w.2)) ++ [(idx, close)] } }
  let s2 := bump s1 (Reg.PWR_CNT 7)
  if first ∧ railLive s2 4 then rampFrom s2 4 (refNow s2 4) (nV (railTarget s2 4)) (kickSlope s2) else s2

/-- R253: KICK returns to IDLE. -/
def kickLower (s : State) : State :=
  let s1 := { s with pwr := { s.pwr with wins := [] } }
  if railLive s1 4 then rampFrom s1 4 (refNow s1 4) (nV (railTarget s1 4)) (kickSlope s1) else s1

/-- R253: KICK_RETURN: HOLDOFF µs after the last window has closed. -/
def kickBack (s : State) : State :=
  let last := (s.pwr.wins.map (·.2)).foldl max 0
  let hold := fget s Reg.PWR_KICK2 Reg.PWR_KICK2_HOLDOFF * 1000
  if s.pwr.wins.isEmpty ∨ nowNs s < last + hold then s else kickLower s

/-- R253: KICK_RETURN. -/
def execKickReturn (s : State) : Host.Outcome State Fault Refusal := done s (kickBack s)

/-- R250: the measured voltage lies within a part (in 1/1000) of the reference. -/
def within (s : State) (k volt part : Nat) : Bool :=
  let r := refNow s k
  let d := if nV volt ≤ r then r - nV volt else nV volt - r
  decide (d * 1000 ≤ part * r)

/-- A rail's measurement. -/
def measure (s : State) (k volt curr : Nat) : State :=
  rset s (Reg.PWR_RAIL_MEAS k) (setF (setF 0 Reg.PWR_RAIL_MEAS_VOLT volt) Reg.PWR_RAIL_MEAS_CURR curr)

/-- R250: RAIL_IN_REGULATION: within ±3 % for 10 µs. -/
def railIn (s : State) (k volt curr : Nat) : State :=
  let s1 := measure s k volt curr
  if railJudged s1 k ∧ within s1 k volt 30 then setRail (setRailReg s1 k true) k { (railOf s1 k) with outAt := none } else s1

/-- R250: RAIL_IN_REGULATION. -/
def execRailInRegulation (k : Fin 5) (volt curr : BitVec 16) (s : State) : Host.Outcome State Fault Refusal :=
  done s (railIn s k volt.toNat curr.toNat)

/-- R250: RAIL_OUT_OF_REGULATION: outside ±5 % for 2 µs. -/
def railOut (s : State) (k volt curr : Nat) : State :=
  let s1 := measure s k volt curr
  if !railJudged s1 k ∨ within s1 k volt 50 then s1
  else setRail (setRailReg s1 k false) k { (railOf s1 k) with outAt := some ((railOf s1 k).outAt.getD s1.up) }

/-- R250: RAIL_OUT_OF_REGULATION. -/
def execRailOutOfRegulation (k : Fin 5) (volt curr : BitVec 16) (s : State) : Host.Outcome State Fault Refusal :=
  done s (railOut s k volt.toNat curr.toNat)

/-- R261: a rail has failed: phases off, REG clear, FAIL set, one record. -/
def failRail (s : State) (k cause : Nat) : State :=
  if railFailed s k then s else
  let s1 := setRailFailed (setRailReg s k false) k true
  let s2 := setRail s1 k { (railOf s1 k) with v0 := 0, v1 := 0, outAt := none, fallAt := none, tripDue := false }
  report s2 (srcRail k) 0x50 k cause

/-- R250, R260, R261: a rail out of regulation for 100 µs, or at its trip limit, fails (notes/assumptions/30). -/
def railFailDue (s : State) (k : Nat) (tripInput : Bool) : State :=
  let r := railOf s k
  if tripInput then (if r.tripDue then failRail s k (if r.tripIn then 2 else 1) else s)
  else match r.outAt with
    | some t => if t + 100000 ≤ s.up ∧ railJudged s k then failRail s k 0 else s
    | none => s

/-- R261: RAIL_FAIL. -/
def execRailFail (k : Fin 5) (tripInput : Bool) (s : State) : Host.Outcome State Fault Refusal := done s (railFailDue s k tripInput)

/-! ## PWM channels -/

/-- A PWM channel. -/
def pwmOf (s : State) (n : Nat) : Pwm := tget s.pwr.pwms Pwm.init n

/-- A PWM channel replaced. -/
def setPwm (s : State) (n : Nat) (p : Pwm) : State := { s with pwr := { s.pwr with pwms := tset s.pwr.pwms Pwm.init n p } }

/-- R255: PER in force; 0xFFFF acts as 0xFFFE. -/
def perNow (s : State) (n : Nat) : Nat := min 0xFFFE (fget s (Reg.PWR_PWM_ACT n) Reg.PWR_PWM_ACT_PER)

/-- CMP in force. -/
def cmpNow (s : State) (n : Nat) : Nat := fget s (Reg.PWR_PWM_ACT n) Reg.PWR_PWM_ACT_CMP

/-- R255: the count of a channel: ticks of 2.5 ns since its period's start. -/
def pwmCount (s : State) (n : Nat) : Nat := (2 * s.up - (pwmOf s n).start) / 5

/-- R262: the rail that PWR_PWMn_CTRL assigns; 7 is manual. -/
def pwmRail (s : State) (n : Nat) : Nat :=
  let r := fget s (Reg.PWR_PWM_CTRL n) Reg.PWR_PWM_CTRL_RAIL
  if r < 5 then r else 7

/-- R254, R259 to R261, R421: a channel's outputs are off. -/
def pwmOff (s : State) (n : Nat) : Bool :=
  let p := pwmOf s n
  !p.en || p.cut || decide (fget s (Reg.PWR_PWM_STAT n) Reg.PWR_PWM_STAT_OFF = 1) || s.pins.pwmLow ||
  (decide (p.rail < 5) && (railFailed s p.rail || s.pwr.railsOff || decide (fget s (Reg.PWR_RAIL_CFG p.rail) Reg.PWR_RAIL_CFG_EN = 0)))

/-- R255, R256: the levels of PWMn_H and PWMn_L now. -/
def pwmOut (s : State) (n : Nat) : Bool × Bool :=
  let p := pwmOf s n
  let per := perNow s n
  let cmp := cmpNow s n
  let c := pwmCount s n
  if pwmOff s n then (false, false)
  else if cmp = 0 then (false, true)
  else if cmp = 0xFFFF then (true, false)
  else
    let e := min cmp (per + 1)
    (decide (p.dtR ≤ c ∧ c < e), decide (e + p.dtF ≤ c ∧ p.lMin ≤ c ∧ c ≤ per) && decide (e ≤ per))

/-- R262: the enabled phases of a rail in ascending channel number. -/
def phases (s : State) (k : Nat) : List Nat :=
  (List.range 24).filter (fun n => decide ((pwmOf s n).rail = k) && (pwmOf s n).en &&
    decide (fget s (Reg.PWR_PWM_STAT n) Reg.PWR_PWM_STAT_OFF = 0))

/-- R262: the phases of a rail whose number or period changes are re-spaced: phase i starts ⌊i (PER + 1) / n⌋ ticks after phase 0. -/
def respace (s : State) (k : Nat) : State :=
  if 5 ≤ k then s else
  let l := phases s k
  match l with
  | [] => s
  | n0 :: _ =>
    let per := fget s (Reg.PWR_RAIL_CFG k) Reg.PWR_RAIL_CFG_PER + 1
    let s0 := (pwmOf s n0).start
    (List.range l.length).foldl (fun s i =>
      let n := l.getD i 0
      let t := s0 + 5 * (i * per / l.length)
      setPwm s n { (pwmOf s n) with start := if 2 * s.up < t then t - 5 * per else t }) s

/-- R260: a period of a channel becomes tripped: counted, and at the limit the phase is disabled or its rail has failed. -/
def tripCount (s : State) (n : Nat) (byF byR : Bool) : State :=
  let p := pwmOf s n
  let s1 := if p.tripped then s else fbump (bump s (Reg.PWR_CNT 5)) (Reg.PWR_PWM_STAT n) Reg.PWR_PWM_STAT_RUNTRIP
  let s2 := setPwm s1 n { (pwmOf s1 n) with tripped := true, cut := true }
  let run := fget s2 (Reg.PWR_PWM_STAT n) Reg.PWR_PWM_STAT_RUNTRIP
  let lim := max 1 (fget s2 Reg.PWR_CTRL Reg.PWR_CTRL_TRIP_LIMIT)
  let s3 := if byF ∧ lim ≤ run ∧ fget s2 (Reg.PWR_PWM_STAT n) Reg.PWR_PWM_STAT_OFF = 0 then
      report (bump (fset s2 (Reg.PWR_PWM_STAT n) Reg.PWR_PWM_STAT_OFF 1) (Reg.PWR_CNT 6)) (srcPwm n) 0x51 n run
    else s2
  if byR ∧ lim ≤ run then setRail s3 p.rail { (railOf s3 p.rail) with tripDue := true } else s3

/-- R259: a qualified trip of FAULTn_N. -/
def tripFault (s : State) (n : Nat) : State :=
  let s1 := setPwm s n { (pwmOf s n) with fIn := true }
  tripCount (fset (fset s1 (Reg.PWR_PWM_STAT n) Reg.PWR_PWM_STAT_INPUT 1) (Reg.PWR_PWM_STAT n) Reg.PWR_PWM_STAT_TRIP 1) n true false

/-- R259: a qualified rail trip covers every phase assigned to the rail. -/
def tripRail (s : State) (k : Nat) : State :=
  let s1 := setRail s k { (railOf s k) with tripIn := true }
  (List.range 24).foldl (fun s n => if (pwmOf s n).rail = k then
    tripCount (fset s (Reg.PWR_PWM_STAT n) Reg.PWR_PWM_STAT_RTRIP 1) n false true else s) s1

/-- R259: TRIP. -/
def execTrip (i : TripIn) (s : State) : Host.Outcome State Fault Refusal :=
  done s (match i with
    | .fault n => tripFault s n
    | .rail k => tripRail s k)

/-- R259, R260: TRIP_INPUT_RELEASE. -/
def execTripInputRelease (i : TripIn) (s : State) : Host.Outcome State Fault Refusal :=
  done s (match i with
    | .fault n => fset (setPwm s n { (pwmOf s n) with fIn := false }) (Reg.PWR_PWM_STAT n) Reg.PWR_PWM_STAT_INPUT 0
    | .rail k => setRail s k { (railOf s k) with tripIn := false })

/-- R257, R258, R262: the values that a boundary brings into force. The compare value of a rail phase is its controller's
(free). -/
def transfer (s : State) (n : Nat) : State :=
  let p := pwmOf s n
  if p.rail < 5 then
    let d := draw s
    fset (fset d.2 (Reg.PWR_PWM_ACT n) Reg.PWR_PWM_ACT_PER (fget s (Reg.PWR_RAIL_CFG p.rail) Reg.PWR_RAIL_CFG_PER))
      (Reg.PWR_PWM_ACT n) Reg.PWR_PWM_ACT_CMP (Config.railDuty d.1).toNat
  else
    let s1 := match p.perW with
      | some v => fset s (Reg.PWR_PWM_ACT n) Reg.PWR_PWM_ACT_PER v
      | none => s
    let s2 := match p.cmpW with
      | some v => fset s1 (Reg.PWR_PWM_ACT n) Reg.PWR_PWM_ACT_CMP v
      | none => s1
    setPwm s2 n { p with perW := none, cmpW := none }

/-- R255 to R262: a period boundary at up time `start` in half ns. A change of RAIL, of EN, of a phase's disabling or of the rail's PER
takes effect here, and the rail's phases are re-spaced (notes/assumptions/115). -/
def boundaryAt (s : State) (n start : Nat) : State :=
  let p := pwmOf s n
  let en := decide (fget s (Reg.PWR_PWM_CTRL n) Reg.PWR_PWM_CTRL_EN = 1) && decide (fget s (Reg.PWR_PWM_STAT n) Reg.PWR_PWM_STAT_OFF = 0)
  let r := pwmRail s n
  let dt := Reg.PWR_PWM_DT n
  let s1 := setPwm s n { p with start := start, en := en, rail := r, dtR := fget s dt Reg.PWR_PWM_DT_RISE,
                                dtF := fget s dt Reg.PWR_PWM_DT_FALL, lMin := 0 }
  let s2 := transfer s1 n
  let s3 := if en = p.en ∧ r = p.rail ∧ (r = 7 ∨ perNow s2 n = perNow s n) then s2 else respace (respace s2 p.rail) r
  let s4 := if p.tripped then s3 else fset s3 (Reg.PWR_PWM_STAT n) Reg.PWR_PWM_STAT_RUNTRIP 0
  let s5 := setPwm s4 n { (pwmOf s4 n) with tripped := false, cut := false }
  let byR := decide (r < 5) && (railOf s5 r).tripIn
  if p.fIn || byR then tripCount s5 n p.fIn byR else s5

/-- R255: PERIOD_BOUNDARY: the count has passed PER. -/
def boundary (s : State) (n : Nat) : State :=
  if perNow s n + 1 ≤ pwmCount s n then boundaryAt s n ((pwmOf s n).start + 5 * (perNow s n + 1)) else s

/-- R255: PERIOD_BOUNDARY. -/
def execPeriodBoundary (n : Fin 24) (s : State) : Host.Outcome State Fault Refusal := done s (boundary s n)

/-- R257: a new PER or CMP applied at the next tick: a pulse or a period in progress may end now. -/
def applyNow (s : State) (n : Nat) (per cmp : Option Nat) : State :=
  let c := pwmCount s n
  let s1 := match cmp with
    | some v => setPwm (fset s (Reg.PWR_PWM_ACT n) Reg.PWR_PWM_ACT_CMP v) n
        { (pwmOf s n) with lMin := if v ≤ c ∧ (pwmOut s n).1 then c + (pwmOf s n).dtF else (pwmOf s n).lMin }
    | none => s
  match per with
  | some v =>
    let s2 := fset s1 (Reg.PWR_PWM_ACT n) Reg.PWR_PWM_ACT_PER v
    if v ≤ c then boundaryAt s2 n (2 * s.up) else s2
  | none => s1

/-- R257, R258, R262: a write of PER or CMP. -/
def pwmValueWrite (s : State) (m : Master) (n v : Nat) (isPer : Bool) : State :=
  let a := if isPer then Reg.PWR_PWM_PER n else Reg.PWR_PWM_CMP n
  let x := v % 65536
  if pwmRail s n < 5 then refuseWrite s m a
  else
    let s1 := plainWrite s a v
    let p := pwmOf s1 n
    if fget s1 (Reg.PWR_PWM_CTRL n) Reg.PWR_PWM_CTRL_PAIRED = 1 then
      setPwm s1 n (if isPer then { p with perH := some x } else { p with cmpH := some x })
    else if fget s1 (Reg.PWR_PWM_CTRL n) Reg.PWR_PWM_CTRL_MODE = 1 then
      setPwm s1 n (if isPer then { p with perW := some x } else { p with cmpW := some x })
    else if isPer then applyNow s1 n (some x) none else applyNow s1 n none (some x)

/-- R258: PWR_PWMn_COMMIT: the held values are released together. -/
def pwmCommit (s : State) (n v : Nat) : State :=
  let p := pwmOf s n
  if v % 2 = 0 ∨ pwmRail s n < 5 then s
  else
    let s1 := setPwm s n { p with perH := none, cmpH := none }
    if fget s (Reg.PWR_PWM_CTRL n) Reg.PWR_PWM_CTRL_MODE = 1 then
      setPwm s1 n { p with perH := none, cmpH := none, perW := p.perH.or p.perW, cmpW := p.cmpH.or p.cmpW }
    else applyNow s1 n p.perH p.cmpH

/-- R13, R260: a write of PWR_PWMn_STAT: a flag whose input is asserted stays set. -/
def pwmStatWrite (s : State) (n v : Nat) : State :=
  let p := pwmOf s n
  let s1 := if bit v 0 ∧ !p.fIn then fset s (Reg.PWR_PWM_STAT n) Reg.PWR_PWM_STAT_TRIP 0 else s
  if bit v 1 ∧ !(decide (p.rail < 5) && (railOf s p.rail).tripIn) then fset s1 (Reg.PWR_PWM_STAT n) Reg.PWR_PWM_STAT_RTRIP 0 else s1

/-- R252: PWR_RAILk_CMD.RESTART of a failed rail: its disabled phases are enabled and it soft-starts from its measured voltage. -/
def railRestart (s : State) (k v : Nat) : State :=
  if v % 2 = 0 ∨ !railFailed s k then s
  else
    let s1 := setRailFailed s k false
    let s2 := (List.range 24).foldl (fun s n => if (pwmOf s n).rail = k then
      fset (fset s (Reg.PWR_PWM_STAT n) Reg.PWR_PWM_STAT_OFF 0) (Reg.PWR_PWM_STAT n) Reg.PWR_PWM_STAT_RUNTRIP 0 else s) s1
    if railLive s2 k then softStart s2 k (nV (fget s2 (Reg.PWR_RAIL_MEAS k) Reg.PWR_RAIL_MEAS_VOLT)) else s2

/-- R269: a write of a broker limit. -/
def limitWrite (s : State) (a v : Nat) : State :=
  let s1 := plainWrite s a v
  if a = Reg.PWR_HP then s1 else poolCheck s1

/-! ## Shut-down (R254) -/

/-- R254: a PIC shut-down begins: every reference falls to 0 V over 1 ms and the broker refuses every request. -/
def powerShutdown (s : State) : State :=
  let s1 := fset { s with pwr := { s.pwr with shutAt := some s.up, wins := [] } } Reg.PWR_STATUS Reg.PWR_STATUS_SHUTDOWN 1
  (List.range 5).foldl (fun s k => rampFrom s k (refNow s k) 0 (divUp (refNow s k) 1000000)) s1

/-- R254: SHUTDOWN_RAMP_END: 1 ms later both outputs of every rail phase are off. -/
def shutRampEnd (s : State) : State :=
  match s.pwr.shutAt with
  | some t => if t + 1000000 ≤ s.up then { s with pwr := { s.pwr with railsOff := true } } else s
  | none => s

/-- R254: SHUTDOWN_RAMP_END. -/
def execShutdownRampEnd (s : State) : Host.Outcome State Fault Refusal := done s (shutRampEnd s)

end Sys2Proof.Machine
end

