-- ==== Sys2Proof/Machine/Drive.lean ====
section
/-! DEFINITION. The drive array (R115 to R143): rails of channels, loads, the slew limiter, range changes, staging slots and
playback, enable and release, channel faults and self-tests. Channels are numbered by heater channel (R16). -/

namespace Sys2Proof.Machine

/-! ## Channels -/

/-- A heater channel's state beyond its registers. -/
def chanOf (s : State) (h : Nat) : Chan := tget s.drv.chans Chan.init h

/-- A channel replaced. -/
def setChan (s : State) (h : Nat) (c : Chan) : State := { s with drv := { s.drv with chans := tset s.drv.chans Chan.init h c } }

/-- The state register and resistance register of a heater channel. -/
def statReg (h : Nat) : Nat := Reg.DRV_CH_STAT (h / 128) (h % 128)
def resReg (h : Nat) : Nat := Reg.DRV_CH_RES (h / 128) (h % 128)

/-- Fields of DRV_CHc_STAT. -/
def codeOf (s : State) (h : Nat) : Nat := fget s (statReg h) Reg.DRV_CH_STAT_ACTIVE
def chRail (s : State) (h : Nat) : Nat := fget s (statReg h) Reg.DRV_CH_STAT_RAIL
def chRange (s : State) (h : Nat) : Nat := fget s (statReg h) Reg.DRV_CH_STAT_RANGE
def chFault (s : State) (h : Nat) : Nat := fget s (statReg h) Reg.DRV_CH_STAT_FAULT
def slewing (s : State) (h : Nat) : Bool := decide (fget s (statReg h) Reg.DRV_CH_STAT_SLEW = 1)
def owned (s : State) (h : Nat) : Bool := decide (fget s (statReg h) Reg.DRV_CH_STAT_OWNED = 1)
def setCode (s : State) (h v : Nat) : State := fset s (statReg h) Reg.DRV_CH_STAT_ACTIVE v
def setSlewing (s : State) (h : Nat) (b : Bool) : State := fset s (statReg h) Reg.DRV_CH_STAT_SLEW (b2n b)
def setOwned (s : State) (h : Nat) (b : Bool) : State := fset s (statReg h) Reg.DRV_CH_STAT_OWNED (b2n b)
def setVlim (s : State) (h : Nat) (b : Bool) : State := fset s (statReg h) Reg.DRV_CH_STAT_VLIM (b2n b)
def chUsed (s : State) (h : Nat) : Bool := cellPresent (fm s) (h / 2)
def drvCnt (s : State) (h k : Nat) : State := bump s (Reg.DRV_CNT (h / 128) k)

/-- R115: full scale of a range in mA. -/
def fsMA (rng : Nat) : Nat := if rng = 1 then 24 else 12

/-- R118: R_est in 0.1 Ω. -/
def rEst (s : State) (h : Nat) : Nat := fget s (resReg h) Reg.DRV_CH_RES_REST

/-- R122: CODE_VMAX. -/
def codeVmax (s : State) (h : Nat) : Nat := fget s (resReg h) Reg.DRV_CH_RES_CODE_VMAX

/-- R119: MARGIN and HYST of a tile in mV. -/
def marginMV (s : State) (t : Nat) : Nat := 2 * fget s (Reg.DRV_RAIL t) Reg.DRV_RAIL_MARGIN
def hystMV (s : State) (t : Nat) : Nat := 2 * fget s (Reg.DRV_RAIL t) Reg.DRV_RAIL_HYST

/-- R119: V_k of a hold rail in mV: the lower of its target and its measured voltage. -/
def railMV (s : State) (k : Nat) : Nat := 10 * min (railTarget s k) (fget s (Reg.PWR_RAIL_MEAS k) Reg.PWR_RAIL_MEAS_VOLT)

/-- R119: the largest code whose need leaves `spare` mV below `v` mV, with R in 0.1 Ω:
code × FS × (R + 60) / 655,360 mV + 250 mV ≤ v − spare. -/
def topCode (v spare rng r : Nat) : Nat := min 65535 ((v - (250 + spare)) * 655360 / (fsMA rng * (r + 60)))

/-- R122: the largest code with I × R ≤ VHTR_MAX. -/
def vmaxCode (s : State) (rng r : Nat) : Nat := if r = 0 then 65535 else min 65535 (mapVhtr (fm s) * 655360 / (fsMA rng * r))

/-- R122: a code in force or a slew target above CODE_VMAX becomes CODE_VMAX at once: VLIM sets and DRV_CNT4 counts it
(notes/assumptions/80). -/
def limitCode (s : State) (h : Nat) : State :=
  let c := chanOf s h
  let vm := codeVmax s h
  if c.play.isSome ∨ (codeOf s h ≤ vm ∧ c.target ≤ vm) then s
  else drvCnt (setVlim (setCode (setChan s h { c with target := min c.target vm }) h (min (codeOf s h) vm)) h true) h 4

/-- R119, R122: thresholds and CODE_VMAX of a channel in its present range; a code in force above it is limited. -/
def recompute (s : State) (h : Nat) : State :=
  let t := h / 128
  let c := h % 128
  let r := rEst s h
  let g := chRange s h
  let up (k : Nat) : Nat := topCode (railMV s k) (marginMV s t) g r
  let dn (k : Nat) : Nat := topCode (railMV s k) (marginMV s t + hystMV s t) g r
  let s1 := fset (fset s (Reg.DRV_CH_TH0 t c) Reg.DRV_CH_TH0_UP0 (up 0)) (Reg.DRV_CH_TH0 t c) Reg.DRV_CH_TH0_UP1 (up 1)
  let s2 := fset (fset s1 (Reg.DRV_CH_TH1 t c) Reg.DRV_CH_TH1_UP2 (up 2)) (Reg.DRV_CH_TH1 t c) Reg.DRV_CH_TH1_UP3 (up 3)
  limitCode (fset (setChan s2 h { (chanOf s2 h) with down := [dn 0, dn 1, dn 2, dn 3] }) (resReg h) Reg.DRV_CH_RES_CODE_VMAX (vmaxCode s g r)) h

/-- R119: THRESHOLD_RECOMPUTE. -/
def execThresholdRecompute (t : Fin 96) (c : Fin 128) (s : State) : Host.Outcome State Fault Refusal := done s (recompute s (128 * t + c))

/-- The thresholds of every used channel. -/
def recomputeAll (s : State) : State := (List.range 12288).foldl (fun s h => if chUsed s h then recompute s h else s) s

/-- R119: UP and DOWN of a hold rail. -/
def upOf (s : State) (h k : Nat) : Nat :=
  let t := h / 128
  let c := h % 128
  if k = 0 then fget s (Reg.DRV_CH_TH0 t c) Reg.DRV_CH_TH0_UP0
  else if k = 1 then fget s (Reg.DRV_CH_TH0 t c) Reg.DRV_CH_TH0_UP1
  else if k = 2 then fget s (Reg.DRV_CH_TH1 t c) Reg.DRV_CH_TH1_UP2
  else fget s (Reg.DRV_CH_TH1 t c) Reg.DRV_CH_TH1_UP3
def downOf (s : State) (h k : Nat) : Nat := (chanOf s h).down.getD k 0

/-- R120, R121: the lowest HOLD rail whose UP admits a code, or KICK. -/
def lowestRail (s : State) (h c : Nat) : Nat := ((List.range 4).find? (fun k => decide (c ≤ upOf s h k))).getD 4

/-- R120: the rail of a channel for a new code. -/
def railFor (s : State) (h c : Nat) : Nat :=
  let r := chRail s h
  if r = 7 then 7
  else if r < 4 ∧ upOf s h r < c then lowestRail s h c
  else ((List.range (min r 4)).find? (fun k => decide (c ≤ downOf s h k))).getD r

/-- A rail set and its change counted. -/
def toRail (s : State) (h r : Nat) : State :=
  if r = chRail s h then s else drvCnt (fset s (statReg h) Reg.DRV_CH_STAT_RAIL r) h 5

/-! ## Slew limiter (R130, R131) -/

/-- R130: a step toward the target on this tick, with the rail chosen for the new code. -/
def slewMove (s : State) (h : Nat) : State :=
  let t := h / 128
  let step := fget s (Reg.DRV_SLEW t) Reg.DRV_SLEW_STEP + 1
  let iv := fget s (Reg.DRV_SLEW t) Reg.DRV_SLEW_INTERVAL + 1
  let a := codeOf s h
  let g := (chanOf s h).target
  let n := if a ≤ g then a + min step (g - a) else a - min step (a - g)
  let s1 := toRail (setCode s h n) h (railFor s h n)
  let s2 := setSlewing s1 h (decide (n ≠ g))
  setChan s2 h { (chanOf s2 h) with stepAt := nowNs s2 / 20 * 20 + 20 * iv }

/-- R122, R130: a new target, held to CODE_VMAX; the first step falls on the load tick. -/
def slewTo (s : State) (h tgt : Nat) : State :=
  let vm := codeVmax s h
  let s1 := if vm < tgt then drvCnt (setVlim s h true) h 4 else setVlim s h false
  slewMove (setChan s1 h { (chanOf s1 h) with target := min tgt vm }) h

/-- R130: SLEW_STEP, due INTERVAL ticks after the step before. -/
def slewStep (s : State) (h : Nat) : State :=
  if slewing s h ∧ (chanOf s h).play.isNone ∧ (chanOf s h).stepAt ≤ nowNs s then slewMove s h else s

/-- R130: a slew stops where it is. -/
def freeze (s : State) (h : Nat) : State :=
  setSlewing (setChan s h { (chanOf s h) with target := codeOf s h }) h false

/-- R132, R133: a channel's range set, with its thresholds. -/
def toRange (s : State) (h g : Nat) : State :=
  if g = chRange s h then s else recompute (drvCnt (fset s (statReg h) Reg.DRV_CH_STAT_RANGE g) h 6) h

/-! ## Loads (R123 to R126, R132) -/

/-- R132, R133: a pending register applied at a load strobe: code, or range change with or without conversion. A converted code keeps
the current and is the slew's start as well as its target (notes/assumptions/81). -/
def applyPending (s : State) (h : Nat) : State :=
  let w := (rget s (Reg.DRV_CH_CODE (h / 128) (h % 128)))
  let code := getF w Reg.DRV_CH_CODE_CODE
  let g := getF w Reg.DRV_CH_CODE_RANGE
  let a := codeOf s h
  if g = chRange s h then slewTo s h code
  else if getF w Reg.DRV_CH_CODE_CONVERT = 1 then
    if g = 1 then slewTo (setCode (toRange s h 1) h ((a + 1) / 2)) h ((a + 1) / 2)
    else if a ≤ 0x7FFF then slewTo (setCode (toRange s h 0) h (2 * a)) h (2 * a)
    else drvCnt s h 7
  else slewTo (toRange s h g) h code

/-- R123, R125, R126, R140: one channel at a load strobe; the pending code of an owned channel is discarded and counted. -/
def loadChan (s : State) (h : Nat) : State :=
  let c := chanOf s h
  if !c.written then s
  else
    let s1 := setChan s h { c with written := false }
    if c.atFault ∨ chRail s h = 7 then s1
    else if owned s h ∨ c.play.isSome then drvCnt s1 h 3
    else applyPending s1 h

/-- R123: a load strobe of a rank. -/
def loadTile (s : State) (t : Nat) : State :=
  (List.range 128).foldl (fun s c => loadChan s (128 * t + c)) (bump s (Reg.DRV_CNT t 0))

/-- The drive state of a tile (R137). -/
def drvState (s : State) (t : Nat) : Nat := fget s (Reg.DRV_STATUS t) Reg.DRV_STATUS_STATE
def drvManual (s : State) (t : Nat) : Bool := decide (fget s (Reg.DRV_CTRL t) Reg.DRV_CTRL_MANUAL = 1)

/-- R124, R125: a write of a pending register by the tile's core; an owned channel's is discarded and counted. -/
def pendCore (s : State) (h w : Nat) : State :=
  if drvState s (h / 128) ≠ 4 ∨ drvManual s (h / 128) then s
  else if owned s h then drvCnt s h 3
  else
    let s1 := rset s (Reg.DRV_CH_CODE (h / 128) (h % 128)) (BitVec.ofNat 32 (w % 2 ^ 18))
    setChan s1 h { (chanOf s1 h) with written := true }

/-- R124: a host write of a pending register: kept under MANUAL, otherwise discarded and recorded. -/
def pendHost (s : State) (m : Master) (h v : Nat) : State :=
  let a := Reg.DRV_CH_CODE (h / 128) (h % 128)
  if !drvManual s (h / 128) then refuseWrite s m a
  else if owned s h then drvCnt s h 3
  else
    let s1 := plainWrite s a v
    setChan s1 h { (chanOf s1 h) with written := true }

/-- R123, R137: a write of DRV_LOAD: the host writes codes of a PARKED tile under MANUAL only. -/
def loadWrite (s : State) (t v : Nat) : State := if v % 2 = 1 ∧ drvManual s t ∧ drvState s t = 3 then loadTile s t else s

/-- R123: a LOAD of the tile's core, in RUN. -/
def loadCore (s : State) (t : Nat) : State := if drvState s t = 4 ∧ !drvManual s t then loadTile s t else s

/-- R130: a write of DRV_SLEW applies from the next tick to slews in progress. -/
def slewWrite (s : State) (t v : Nat) : State :=
  let s1 := plainWrite s (Reg.DRV_SLEW t) v
  (List.range 128).foldl (fun s c =>
    let h := 128 * t + c
    if slewing s h then setChan s h { (chanOf s h) with stepAt := nowNs s / 20 * 20 + 20 } else s) s1

/-! ## Staging slots and playback (R127 to R131) -/

/-- R127: an entry of a slot: its control word and samples. -/
def slotByte (s : State) (t k o : Nat) : Nat := rb s.slotMem (slotBase t k + o)
def entryCtl (s : State) (t k c : Nat) : Nat := rd s.slotMem (slotBase t k + 0x40 + 68 * c) 4
def entrySamples (s : State) (t k c : Nat) : List Nat :=
  (List.range 32).map (fun j => rd s.slotMem (slotBase t k + 0x44 + 68 * c + 2 * j) 2)
def ctlMode (w : Nat) : Nat := bits w 0 2
def ctlWave (w : Nat) : Nat := bits w 2 1
def ctlRange (w : Nat) : Nat := bits w 3 1
def ctlFinal (w : Nat) : Nat := bits w 16 16

/-- R121, R122, R128: tick `o` of an entry: the range of an ABS or FINAL entry, the limits of REL samples and of R122 with a count
for each code limited, the rail for its largest code, and the FINAL code of an entry without a profile. VLIM shows the entry's first
code. -/
def playBegin (s : State) (h : Nat) (p : Play) : State :=
  let s1 := if p.mode = 3 then s else toRange s h p.rng
  let vm := codeVmax s1 h
  let rel (x : Nat) : Int := (p.fin : Int) + sext x 16
  let n9 := if p.mode = 3 then (p.samples.filter (fun x => decide (rel x < 0 ∨ (vm : Int) < rel x))).length else 0
  let raw := if p.mode = 3 then p.samples.map (fun x => (rel x).toNat) else if p.mode = 2 then p.samples else []
  let nOver := ((if p.mode = 3 then [] else raw ++ [p.fin]).filter (fun x => decide (vm < x))).length
  let s2 := bumpN s1 (Reg.DRV_CNT (h / 128) 9) n9
  let s3 := if p.mode = 3 then s2 else setVlim (bumpN s2 (Reg.DRV_CNT (h / 128) 4) nOver) h (decide (vm < (raw ++ [p.fin]).headD 0))
  let smp := raw.map (fun x => min x vm)
  let fin := min p.fin vm
  let s4 := toRail s3 h (lowestRail s3 h ((fin :: smp).foldl max 0))
  if p.mode = 1 then
    let s5 := toRail (setCode s4 h fin) h (lowestRail s4 h fin)
    setChan s5 h { (chanOf s5 h) with play := none, target := fin }
  else setChan s4 h { (chanOf s4 h) with play := some { p with samples := smp, fin := fin, vlim := p.mode ≠ 3 && decide (vm < p.fin), begun := true } }

/-- R128, R131: a strobe reaches a channel's entry. -/
def playStart (s : State) (h w : Nat) (smp : List Nat) (retry : Bool) : State :=
  let m := ctlMode w
  let c := chanOf s h
  if m = 0 ∨ (retry ∧ m ≠ 2) ∨ c.atFault ∨ chRail s h = 7 then s
  else
    let o := if retry ∨ ctlWave w = 0 then 0 else 6
    let p := Play.mk m (ctlRange w) (if m = 3 then c.target else ctlFinal w) smp o (nowNs s / 20 * 20) retry false false
    let lost := c.written ∧ getF (rget s (Reg.DRV_CH_CODE (h / 128) (h % 128))) Reg.DRV_CH_CODE_RANGE ≠ chRange s h
    let s1 := if lost then drvCnt s h 3 else s
    let s2 := freeze s1 h
    let s3 := setChan s2 h { (chanOf s2 h) with play := some p, written := false, target := if m = 3 then c.target else codeOf s h }
    if o = 0 then playBegin s3 h p else s3

/-- R125: the REL entries of a slot that does not play have no final tick to wait for. -/
def dropRel (s : State) (t : Nat) : State :=
  (List.range 128).foldl (fun s c =>
    let h := 128 * t + c
    if (chanOf s h).ownRel ∧ (chanOf s h).play.isNone then setOwned (setChan s h { (chanOf s h) with ownRel := false }) h false else s) s

/-- R75, R129: a strobe of a rank: its arm bit clears; the slot plays only if it is valid and carries the armed generation. -/
def strobe (s : State) (t : Nat) (retry : Bool) : State :=
  let a := Reg.DRV_ARM t
  let k := if retry then 8 else fget s a Reg.DRV_ARM_SLOT
  let gen := (rget s (if retry then Reg.DRV_RETRY_GEN t else Reg.DRV_ARM_GEN t)).toNat
  if fget s a (if retry then Reg.DRV_ARM_RVALID else Reg.DRV_ARM_VALID) = 0 then s
  else
    let s1 := fset s a (if retry then Reg.DRV_ARM_RVALID else Reg.DRV_ARM_VALID) 0
    if slotValid s1 t k ∧ slotGen s1 t k = gen then
      (List.range 128).foldl (fun s c => playStart s (128 * t + c) (entryCtl s t k c) (entrySamples s t k c) retry)
        (bump s1 (Reg.DRV_CNT t (if retry then 2 else 1)))
    else report (bump (if retry then s1 else dropRel s1 t) (Reg.DRV_CNT t 8)) (srcDrv t) 0x15 k gen

/-- R127: a rank armed: the ownership of R125 begins for every channel with an entry whose cell is in service. -/
def armTile (s : State) (t k gen : Nat) : State :=
  let s1 := fset (fset s (Reg.DRV_ARM t) Reg.DRV_ARM_VALID 1) (Reg.DRV_ARM t) Reg.DRV_ARM_SLOT k
  let s2 := rset s1 (Reg.DRV_ARM_GEN t) (BitVec.ofNat 32 gen)
  (List.range 128).foldl (fun s c =>
    let h := 128 * t + c
    let m := ctlMode (entryCtl s t k c)
    if m = 0 ∨ isRetired s (h / 2) ∨ (chanOf s h).atFault ∨ chRail s h = 7 then s
    else setOwned (setChan s h { (chanOf s h) with ownRel := decide (m = 3) }) h true) s2

/-- The channels of a tile with a profile that satisfies a test. -/
def playing (s : State) (t : Nat) (p : Play → Bool) : List Nat :=
  ((List.range 128).map (fun c => 128 * t + c)).filter (fun h => match (chanOf s h).play with
    | some x => p x
    | none => false)

/-- R76, R128: tick 6 of a fire: the entries of wave 2 begin. -/
def wave2Tile (s : State) (t : Nat) : State :=
  (playing s t (fun p => !p.begun && decide (p.t0 + 20 * p.o ≤ nowNs s))).foldl (fun s h =>
    match (chanOf s h).play with
    | some p => playBegin s h p
    | none => s) s

/-- R76: WAVE2_START. -/
def execWave2Start (s : State) : Host.Outcome State Fault Refusal := done s ((List.range 96).foldl wave2Tile s)

/-- R121, R128: a profile's end at tick o + 32: the final code and its rail. -/
def playEnd (s : State) (h : Nat) : State :=
  match (chanOf s h).play with
  | some p =>
    if p.begun ∧ p.t0 + 20 * (p.o + 32) ≤ nowNs s then
      let s1 := toRail (setVlim (setCode s h p.fin) h p.vlim) h (lowestRail s h p.fin)
      let s2 := setChan s1 h { (chanOf s1 h) with play := none, target := p.fin }
      if (chanOf s h).ownRel then setOwned (setChan s2 h { (chanOf s2 h) with ownRel := false }) h false else s2
    else s
  | none => s

/-- R128: PLAYBACK_END. -/
def execPlaybackEnd (t : Fin 96) (c : Fin 128) (s : State) : Host.Outcome State Fault Refusal := done s (playEnd s (128 * t + c))

/-- R125: the core has declared a cell landed, or it is retired: its channels are no longer owned. -/
def disown (s : State) (cell : Nat) : State :=
  [2 * cell, 2 * cell + 1].foldl (fun s h => if (chanOf s h).ownRel then s else setOwned s h false) s

/-- R391: some rank plays or slews. -/
def anyMoving (s : State) : Bool :=
  (List.range 12288).any (fun h => slewing s h || (chanOf s h).play.isSome)

/-! ## Enable, release and parking (R134 to R137) -/

/-- R46: a valid fabric map is held. -/
def mapHeld (s : State) : Bool := decide (mapLength (fm s) ≠ 0)

/-- R140: FVAL selects PARK for a channel. -/
def fvalPark (s : State) (h : Nat) : Bool := rbit s (Reg.DRV_FVAL (h / 128) (h % 128 / 32)) (h % 32)

/-- R136: a channel's park code and range as slew target. -/
def toPark (s : State) (h : Nat) : State :=
  let w := rget s (Reg.DRV_CH_PARK (h / 128) (h % 128))
  slewTo (toRange s h (getF w Reg.DRV_CH_PARK_PRANGE)) h (getF w Reg.DRV_CH_PARK_PARK)

/-- R135: a used channel leaves the clamp at code 0 on HOLD0 in LO. -/
def unclamp (s : State) (h : Nat) : State :=
  let s1 := fset (fset (setCode s h 0) (statReg h) Reg.DRV_CH_STAT_RAIL 0) (statReg h) Reg.DRV_CH_STAT_RANGE 0
  recompute (setChan s1 h { (chanOf s1 h) with target := 0 }) h

/-- R135: why an enable is refused; 0 where it is accepted. -/
def enRefuse (s : State) (t : Nat) : Nat :=
  if !mapHeld s then 1 else if !tileUsed (fm s) t then 2 else if !railReg s 0 then 3 else 0

/-- R135: ENABLE: every used channel leaves the clamp for code 0; STATE is ZERO. A channel that a short or an overcurrent clamped stays
clamped. -/
def enableTile (s : State) (t : Nat) : State :=
  let r := enRefuse s t
  if r ≠ 0 then fset s (Reg.DRV_STATUS t) Reg.DRV_STATUS_ENREFUSE r
  else
    let s1 := fset (fset s (Reg.DRV_CTRL t) Reg.DRV_CTRL_ENABLE 1) (Reg.DRV_STATUS t) Reg.DRV_STATUS_STATE 1
    (List.range 128).foldl (fun s c =>
      let h := 128 * t + c
      if !chUsed s h ∨ chFault s h = 2 ∨ chFault s h = 3 then s else unclamp s h) s1

/-- R136: boot firmware loads the park codes of a tile in ZERO: STATE is PARKING (notes/assumptions/17). -/
def parkLoad (s : State) (t : Nat) : State :=
  if drvState s t ≠ 1 then s
  else (List.range 128).foldl (fun s c =>
    let h := 128 * t + c
    if !chUsed s h ∨ chRail s h = 7 ∨ ((chanOf s h).atFault ∧ !fvalPark s h) then s else toPark s h)
    (fset s (Reg.DRV_STATUS t) Reg.DRV_STATUS_STATE 2)

/-- R113, R384: the chart in force and its solve with the fault set at release, with the state image. -/
def solveInForce (s : State) : State :=
  let x := solve (fm s) (fun i => bit (faultSet s).toNat i) s.bel.forceChart
  { s with bel := { s.bel with sol := some x }, mem := wbytes (cut s.mem 0x930000 1536) 0x930000 (leBytes x.st.toNat 1536) }

/-- R26, R137: every used tile runs. -/
def allRun (s : State) : Bool := (List.range 96).all (fun t => !tileUsed (fm s) t || decide (drvState s t = 4))

/-- R26: the device is in service. -/
def inService (s : State) : Bool := decide (fget s Reg.BEL_STATUS Reg.BEL_STATUS_IN_SERVICE = 1)

/-- R137: a parked tile is released: RUN, MANUAL clear; the last one puts the device in service. -/
def runTile (s : State) (t : Nat) : State :=
  let s1 := fset (fset s (Reg.DRV_STATUS t) Reg.DRV_STATUS_STATE 4) (Reg.DRV_CTRL t) Reg.DRV_CTRL_MANUAL 0
  let s2 := { s1 with boot := { s1.boot with released := some (s1.boot.released.getD s1.up) } }
  if allRun s2 ∧ !inService s2 ∧ fget s2 Reg.THM_STATUS Reg.THM_STATUS_PIC_SHUT = 0 ∧ fget s2 Reg.THM_STATUS Reg.THM_STATUS_DIE_SHUT = 0 then
    solveInForce (fset s2 Reg.BEL_STATUS Reg.BEL_STATUS_IN_SERVICE 1)
  else s2

/-- R136: PARKED: the last park slew of a tile is complete. -/
def parkDone (s : State) (t : Nat) : State :=
  if drvState s t = 2 ∧ (List.range 128).all (fun c => !slewing s (128 * t + c)) then
    let s1 := fset s (Reg.DRV_STATUS t) Reg.DRV_STATUS_STATE 3
    if fget s1 (Reg.DRV_CTRL t) Reg.DRV_CTRL_RELEASE = 1 then runTile s1 t else s1
  else s

/-- R135, R137: a write of DRV_CTRL: ENABLE, then RELEASE, then MANUAL while RELEASE is 0. -/
def drvCtrlWrite (s : State) (t v : Nat) : State :=
  let a := Reg.DRV_CTRL t
  let s1 := if bit v 0 ∧ fget s a Reg.DRV_CTRL_ENABLE = 0 then enableTile s t else s
  let s2 := if bit v 1 ∧ fget s1 a Reg.DRV_CTRL_RELEASE = 0 then
      (let r := fset s1 a Reg.DRV_CTRL_RELEASE 1
       if drvState r t = 3 then runTile r t else r)
    else s1
  if fget s2 a Reg.DRV_CTRL_RELEASE = 0 then fset s2 a Reg.DRV_CTRL_MANUAL (bits v 2 1)
  else fset s2 a Reg.DRV_CTRL_MANUAL 0

/-! ## Measurement and headroom (R118, R120) -/

/-- R67, R360: a retirement request with the instant (ns of TAI) from which it is served. -/
def retireAt (s : State) (cell kind due : Nat) : State := { s with bel := { s.bel with retireQ := s.bel.retireQ ++ [(cell, kind, due)] } }

/-- R360: a retirement request is served on the next drive tick edge. -/
def retireAsk (s : State) (cell kind : Nat) : State := retireAt s cell kind (gridAfter s.now)

/-- R139: detection is suppressed while a rail the channel could use is out of regulation, and during a PIC shut-down. -/
def detectable (s : State) (h : Nat) : Bool :=
  decide (chRail s h ≤ 4) && (List.range 5).all (fun k => decide (k < chRail s h) || railReg s k) && !powerShut s

/-- R128: the code output now: the sample of the present tick during a profile. -/
def activeNow (s : State) (h : Nat) : Nat :=
  match (chanOf s h).play with
  | some p => if p.begun then p.samples.getD ((nowNs s - p.t0) / 20 - p.o) p.fin else codeOf s h
  | none => codeOf s h

/-- R139, R140, R51: a channel takes its fault value: the clamp for SHORT and OVERCURRENT; the held code, which during an entry is its
FINAL code in its range (T for a REL entry), reached through the slew limiter from the code output now; or its park code. -/
def faultValue (s : State) (h : Nat) : State :=
  let c := chanOf s h
  let a := activeNow s h
  let s0 := setOwned (setChan s h { c with play := none, atFault := true, ownRel := false }) h false
  if chRail s h = 7 then s0
  else if chFault s h = 2 ∨ chFault s h = 3 then
    fset (freeze (setCode s0 h 0) h) (statReg h) Reg.DRV_CH_STAT_RAIL 7
  else if fvalPark s h then toPark (setCode s0 h a) h
  else match c.play with
    | some p => slewTo (if p.mode = 3 then setCode s0 h a else toRange (setCode s0 h a) h p.rng) h p.fin
    | none => freeze s0 h

/-- R140: a channel fault: flag, kind, record, the fault value at once, and the cell's retirement asked for. -/
def channelFail (s : State) (h kind : Nat) : State :=
  let a := activeNow s h
  let s1 := rput s (Reg.DRV_FAULT (h / 128) (h % 128 / 32)) (h % 32) true
  let s2 := report (fset s1 (statReg h) Reg.DRV_CH_STAT_FAULT kind) (srcDrv (h / 128)) (0x0F + kind) h a
  retireAsk (faultValue (setChan s2 h { (chanOf s2 h) with cond := kind }) h) (h / 2) 6

/-- R139: the current that detection of a kind needs, in units of code × FS. -/
def faultCurrent (s : State) (h kind : Nat) : Bool :=
  let i := activeNow s h * fsMA (chRange s h)
  if kind = 1 then decide (32768 ≤ i) else if kind = 2 then decide (65536 ≤ i) else true

/-- R139: a kind that a channel can fault with now: OPEN only on KICK, after the step-ups; a channel at its fault value for OPEN or
MISMATCH can still be short or deliver too much current, and a self-test's failure hides nothing. -/
def faultOpen (s : State) (h kind : Nat) : Bool :=
  decide (1 ≤ kind ∧ kind ≤ 4) && chUsed s h && detectable s h && faultCurrent s h kind && (decide (kind ≠ 1) || decide (chRail s h = 4)) &&
  (decide (chFault s h = 0 ∨ chFault s h = 5) || (decide (kind = 2 ∨ kind = 3) && decide (chRail s h ≠ 7)))

/-- R13, R141: the condition of a channel's last detected fault persists: an open heater while the channel is driven at 0.5 mA or more,
a current that still differs; a clamped channel shows neither short nor overcurrent. -/
def faultPersists (s : State) (h : Nat) : Bool :=
  let c := chanOf s h
  decide (chRail s h ≠ 7) && ((decide (c.cond = 1) && faultCurrent s h 1) || (decide (c.cond = 4) && c.mis))

/-- R13, R141: a write of DRV_FAULTk: flags whose condition persists set again at once. -/
def faultWrite (s : State) (t k v : Nat) : State :=
  (List.range 32).foldl (fun x b => if faultPersists s (128 * t + 32 * k + b) then rput x (Reg.DRV_FAULT t k) b true else x)
    (plainWrite s (Reg.DRV_FAULT t k) v)

/-- R139, R140: CHANNEL_FAULT of kinds OPEN to MISMATCH; a self-test's failure is its completion's (R142). -/
def channelFault (s : State) (h kind : Nat) : State := if faultOpen s h kind ∧ chRail s h ≠ 7 then channelFail s h kind else s

/-- R140: CHANNEL_FAULT. -/
def execChannelFault (t : Fin 96) (c : Fin 128) (kind : Fin 6) (s : State) : Host.Outcome State Fault Refusal :=
  done s (channelFault s (128 * t + c) kind)

/-- R118: the channel of a tile that the housekeeping converter measures next, and the up time at which that falls due. -/
def houseChan (s : State) (t : Nat) : Nat := 128 * t + (tget s.drv.house (0, 0) t).1 % 128
def houseDue (s : State) (t : Nat) : Nat := (tget s.drv.house (0, 0) t).2

/-- R118: one channel per 1 µs, in channel order. -/
def houseNext (s : State) (t : Nat) : State :=
  let p := tget s.drv.house (0, 0) t
  { s with drv := { s.drv with house := tset s.drv.house (0, 0) t ((p.1 + 1) % 128, p.2 + 1000) } }

/-- R139: the measured current (nA) differs from the coded one by more than 0.5 % of full scale. -/
def mismatch (s : State) (h nA : Nat) : Bool :=
  let fs := fsMA (chRange s h) * 1000000
  let i := activeNow s h * fs / 65536
  decide (fs < 200 * (if i ≤ nA then nA - i else i - nA))

/-- R118, R139: a housekeeping measurement (nA, µV) of a channel: the resistance estimate, a second mismatch in a row, and the end of an
open heater's condition where the coded current flows. -/
def houseTake (s : State) (h nA uV : Nat) : State :=
  if chRail s h = 7 then s else
  let c := chanOf s h
  let s1 := if 1000000 ≤ nA then
      (let l := (c.meas ++ [divRound (uV * 10000) nA]).drop ((c.meas.length + 1) - 8)
       fset (setChan s h { c with meas := l }) (resReg h) Reg.DRV_CH_RES_REST (divRound (l.foldl (· + ·) 0) l.length))
    else s
  let bad := mismatch s h nA
  let s2 := setChan s1 h { (chanOf s1 h) with mis := bad, cond := if c.cond = 1 ∧ !bad then 0 else c.cond }
  if bad ∧ c.mis then channelFault s2 h 4 else s2

/-- R118: the measurement that is due, of the channel whose turn it is. -/
def housekeep (s : State) (t nA uV : Nat) : State :=
  if s.up < houseDue s t then s else houseTake (houseNext s t) (houseChan s t) nA uV

/-- R118: HOUSEKEEPING_MEASUREMENT. -/
def execHousekeepingMeasurement (t : Fin 96) (nA uV : Nat) (s : State) : Host.Outcome State Fault Refusal := done s (housekeep s t nA uV)

/-- R120: HEADROOM_STEP_UP: measured headroom below 0.1 V moves a channel up one rail. -/
def headroomUp (s : State) (h : Nat) : State := if chRail s h < 4 then toRail s h (chRail s h + 1) else s

/-- R120: HEADROOM_STEP_UP. -/
def execHeadroomStepUp (t : Fin 96) (c : Fin 128) (s : State) : Host.Outcome State Fault Refusal := done s (headroomUp s (128 * t + c))

/-- R54, R141: an un-retired cell's channel returns to normal drive: off the clamp at code 0, and to its NOM code and range. -/
def restoreChan (s : State) (h : Nat) : State :=
  let s1 := fset (setChan s h { (chanOf s h) with atFault := false, cond := 0 }) (statReg h) Reg.DRV_CH_STAT_FAULT 0
  if drvState s1 (h / 128) = 0 then s1
  else
    let s2 := if chRail s1 h = 7 then unclamp s1 h else s1
    slewTo (toRange s2 h (b2n (cellNomHi (fm s) (h / 2)))) h (cellNom (fm s) (h / 2) (h % 2))

/-! ## Self-test (R142) -/

/-- R142: code number `n` of a self-test: 1,024 j − 1 and 1,024 j for j = 1 to 63. -/
def testCode (n : Nat) : Nat := 1024 * (n / 2 + 1) - (1 - n % 2)

/-- R142: the self-test that runs in a tile. -/
def testOf (s : State) (t : Nat) : Option SelfTest := tget s.drv.tests none t
def setTest (s : State) (t : Nat) (x : Option SelfTest) : State := { s with drv := { s.drv with tests := tset s.drv.tests none t x } }

/-- R142: a test whose channel stands at the code it was sent to goes on to the next one; after the last it keeps that code until the
test's end. -/
def testStep (s : State) (t : Nat) : State :=
  match testOf s t with
  | some x =>
    if slewing s x.ch ∨ 126 ≤ x.step then s
    else
      let s1 := setTest s t (some { x with step := x.step + 1 })
      if x.step + 1 < 126 then slewTo s1 x.ch (testCode (x.step + 1)) else s1
  | none => s

/-- R142, R143: a write of DRV_TEST: CH is stored; GO starts a test where it is allowed and none runs. -/
def drvTestWrite (s : State) (t v : Nat) : State :=
  let a := Reg.DRV_TEST t
  let s1 := fset s a Reg.DRV_TEST_CH v
  let h := 128 * t + v % 128
  if !bit v 8 ∨ fget s a Reg.DRV_TEST_BUSY = 1 then s1
  else if (drvState s1 t = 3 ∧ drvManual s1 t) ∨ isRetired s1 (h / 2) then
    slewTo (setTest (fset s1 a Reg.DRV_TEST_BUSY 1) t (some (SelfTest.mk h 0 (codeOf s h) s.up))) h (testCode 0)
  else fset s1 a Reg.DRV_TEST_RESULT 3

/-- R142: every code of a test has been reached. -/
def testOver (s : State) (t : Nat) : Bool := (testOf s t).any (fun x => decide (126 ≤ x.step))

/-- R142: SELFTEST_COMPLETE: the result; a failure sets the flag and kind with a record, and retires no cell; the channel returns to
its prior code. -/
def selftestDone (s : State) (t result worst element : Nat) : State :=
  let a := Reg.DRV_TEST t
  if fget s a Reg.DRV_TEST_BUSY = 0 ∨ !testOver s t then s
  else
    let x := (testOf s t).getD (SelfTest.mk 0 0 0 0)
    let h := x.ch
    let s1 := slewTo (setTest s t none) h x.prior
    let s2 := fset (fset s1 a Reg.DRV_TEST_BUSY 0) a Reg.DRV_TEST_RESULT result
    let s3 := fset (fset s2 (Reg.DRV_TEST_RES t) Reg.DRV_TEST_RES_WORST worst) (Reg.DRV_TEST_RES t) Reg.DRV_TEST_RES_ELEMENT element
    if result = 0 then s3
    else
      let s4 := fset (rput s3 (Reg.DRV_FAULT t (h % 128 / 32)) (h % 32) true) (statReg h) Reg.DRV_CH_STAT_FAULT 5
      report s4 (srcDrv t) 0x14 h (activeNow s4 h)

/-- R130, R142: SLEW_STEP; a self-test of the channel goes on where its code has been reached. -/
def execSlewStep (t : Fin 96) (c : Fin 128) (s : State) : Host.Outcome State Fault Refusal :=
  done s (if (testOf s t).any (fun x => decide (x.ch = 128 * t.val + c.val)) && !slewing s (128 * t + c) then testStep s t
    else slewStep s (128 * t + c))

/-- R142: SELFTEST_COMPLETE. -/
def execSelftestComplete (t : Fin 96) (result : BitVec 2) (worst : BitVec 16) (element : BitVec 6) (s : State) :
    Host.Outcome State Fault Refusal := done s (selftestDone s t result.toNat worst.toNat element.toNat)

/-! ## Register views and rail targets -/

/-- R143: DRV_STATUS as it reads. -/
def drvStatusView (s : State) (t : Nat) : BitVec 32 :=
  let w := rget s (Reg.DRV_STATUS t)
  let w1 := setF w Reg.DRV_STATUS_PLAYING (b2n (!(playing s t (fun p => p.begun)).isEmpty))
  let w2 := setF w1 Reg.DRV_STATUS_ARMED (fget s (Reg.DRV_ARM t) Reg.DRV_ARM_VALID)
  let w3 := setF w2 Reg.DRV_STATUS_RETRY_ARMED (fget s (Reg.DRV_ARM t) Reg.DRV_ARM_RVALID)
  setF w3 Reg.DRV_STATUS_SLEWING ((List.range 128).filter (fun c => slewing s (128 * t + c))).length

/-- R128, R143: DRV_CHc_STAT as it reads. -/
def chStatView (s : State) (h : Nat) : BitVec 32 := setF (rget s (statReg h)) Reg.DRV_CH_STAT_ACTIVE (activeNow s h)

/-- R143: a read of DRV_SLOT_DATA: the word addressed, and WORD one further. Words past the slot's end are open. -/
def slotDataRead (s : State) (t : Nat) : State × BitVec 32 :=
  let a := Reg.DRV_SLOT_ADDR t
  let k := fget s a Reg.DRV_SLOT_ADDR_SLOT
  let w := fget s a Reg.DRV_SLOT_ADDR_WORD
  let s1 := fset s a Reg.DRV_SLOT_ADDR_WORD (w + 1)
  if 8 < k then (s1, 0)
  else if w < 2192 then (s1, BitVec.ofNat 32 (rd s.slotMem (slotBase t k + 4 * w) 4))
  else
    let d := draw s1
    (d.2, Config.openWord d.1)

/-- R251: a hold rail's target has changed from `old`: the reference, and on a decrease the thresholds at once. -/
def railRetarget (s : State) (k old : Nat) : State :=
  let s1 := retarget s k old
  if railTarget s1 k < old then recomputeAll s1 else s1

/-- R248, R251: a write of PWR_RAILk_TGT; one that breaks the order or a range is discarded and recorded. -/
def railTgtWrite (s : State) (m : Master) (k v : Nat) : State :=
  let s1 := plainWrite s (Reg.PWR_RAIL_TGT k) v
  if !targetsOk s1 then refuseWrite s m (Reg.PWR_RAIL_TGT k) else railRetarget s1 k (railTarget s k)

/-- R249: TSET set or cleared. -/
def setTset (s : State) (b : Bool) : State :=
  let s1 := fset s Reg.PWR_STATUS Reg.PWR_STATUS_TSET (b2n b)
  (List.range 4).foldl (fun x k => railRetarget x k (railTarget s k)) s1

end Sys2Proof.Machine
end

