-- ==== Sys2Proof/Machine/CoreBase.lean ====
section
/-! DEFINITION. The Taruk cores as the other blocks see them: which core serves a tile (R362), its data memory, its pending
levels (R211), burst records (R217), what the kernel's levels wait for. -/

namespace Sys2Proof.Machine

/-- A core beyond its registers. -/
def coreOf (s : State) (k : Nat) : Core := tget s.trk.cores Core.init k

/-- A core replaced. -/
def setCore (s : State) (k : Nat) (c : Core) : State := { s with trk := { s.trk with cores := tset s.trk.cores Core.init k c } }

/-- R362: the core that serves a tile; 0xFF is none. -/
def tmap (s : State) (t : Nat) : Nat := bits (rget s (Reg.FLT_TMAP (t / 4))).toNat (8 * (t % 4)) 8

/-- R362: the map entry of a tile written. -/
def setTmap (s : State) (t k : Nat) : State :=
  fset s (Reg.FLT_TMAP (t / 4)) ⟨8 * (t % 4) + 7, 8 * (t % 4)⟩ k

/-- R228: the state and the tile of a core. -/
def coreState (s : State) (k : Nat) : Nat := fget s (Reg.TRK_STATUS k) Reg.TRK_STATUS_STATE
def setCoreState (s : State) (k v : Nat) : State := fset s (Reg.TRK_STATUS k) Reg.TRK_STATUS_STATE v
def coreTile (s : State) (k : Nat) : Nat := fget s (Reg.TRK_STATUS k) Reg.TRK_STATUS_TILE

/-- R215, R362: the core that a tile reaches: a failed core is disconnected. -/
def coreFor (s : State) (t : Nat) : Option Nat := if tmap s t < 100 ∧ coreState s (tmap s t) ≠ 3 then some (tmap s t) else none

/-- R204, R226: the stock tables have been loaded: the core has left HALTED. -/
def stockLoaded (s : State) (k : Nat) : Bool := decide (coreState s k ≠ 0)

/-- R203, R226: `n` bytes from an address as the stock tables have them (0 outside 0x4240 to 0x7FFF, or before the load). What `dmem`
lists in that range is the difference (exclusive or) from them. -/
def stockMask (s : State) (k a n : Nat) : Nat :=
  (List.range n).foldl (fun v j =>
    let b := (a + j) % 65536
    if stockLoaded s k ∧ 0x4240 ≤ b ∧ b < 0x8000 then v + (Config.stockTable b).toNat * 256 ^ j else v) 0

/-- R201: `n` bytes of a core's data memory, little-endian. -/
def dget (s : State) (k a n : Nat) : Nat := rd s.trk.dmem (65536 * k + a % 65536) n ^^^ stockMask s k a n

/-- R201: `n` bytes of a core's data memory written. -/
def dput (s : State) (k a n v : Nat) : State :=
  { s with trk := { s.trk with dmem := wr s.trk.dmem (65536 * k + a % 65536) n (v % 256 ^ n ^^^ stockMask s k a n) } }

/-- R202: an external access to the data memory of a core that runs may have to freeze the pipeline, which counts; whether it does rests
on the slots that the core leaves unused, which this model does not time (a free value, notes/assumptions/94). -/
def extAccess (s : State) (k : Nat) : State :=
  if coreState s k ≠ 2 then s
  else
    let d := draw s
    if (Config.coreValue d.1).toNat % 2 = 1 then bump d.2 (Reg.TRK_CNT k 6) else d.2

/-- R220: the hook mask of the kernel interface block, which the kernel copies from TRK_CTRL (notes/assumptions/98). -/
def hookMask (s : State) (k : Nat) : State := dput s k 0x604 4 (fget s (Reg.TRK_CTRL k) Reg.TRK_CTRL_HOOK_EN)

/-- R220: the kernel interface block: KVER and the hook mask. -/
def kernelBlock (s : State) (k : Nat) : State := hookMask (dput s k 0x600 4 Config.kernelVersion.toNat) k

/-- R377: a die shut-down is in force: it stops the cores, the lanes, the pipeline, the scan and CAL. -/
def dieShut (s : State) : Bool := decide (fget s Reg.THM_STATUS Reg.THM_STATUS_DIE_SHUT = 1)

/-- R211: a level of a core becomes pending. -/
def pendLevel (s : State) (k n : Nat) : State := setCore s k { (coreOf s k) with pend := putBit (coreOf s k).pend n true }

/-- R211: a level's request has been served. -/
def servedLevel (s : State) (k n : Nat) : State := setCore s k { (coreOf s k) with pend := putBit (coreOf s k).pend n false }

/-- A wake of the core that serves a tile; the source holds the request while that core has failed. -/
def wakeTile (s : State) (t n : Nat) : State := if tmap s t < 100 then pendLevel s (tmap s t) n else s

/-- R214: TCNT: the low 32 bits of the count of drive ticks of device TAI. -/
def tcnt (s : State) : Nat := nowNs s / 20 % 2 ^ 32

/-- R217: the data memory address of a burst record. -/
def burstRec (r : Nat) : Nat := 0x400 + 32 * r

/-- R217: a burst record as WATCH or MON writes it: input, status, N, tag, tick and offset. -/
def burstWrite (s : State) (t : Nat) (q : Req) (status : Nat) (samples : List Nat) : State :=
  match coreFor s t with
  | none => s
  | some k =>
    let a := burstRec q.rcd
    let s1 := dput (dput (extAccess s k) k a 1 (q.input % 128)) k (a + 3) 1 q.tag
    let s2 := (List.range samples.length).foldl (fun s i => dput s k (a + 0xA + 2 * i) 2 (samples.getD i 0)) s1
    dput (dput s2 k (a + 2) 1 samples.length) k (a + 1) 1 status

/-! ## Hooks that the stock kernel calls (R221) -/

/-- R221, R222: hooks are called: HOOK_EN, and written 0 and then 1 after a hook fault. -/
def hooksOn (s : State) (k : Nat) : Bool :=
  decide (fget s (Reg.TRK_CTRL k) Reg.TRK_CTRL_HOOK_EN = 1) && decide ((coreOf s k).hookStop = 0)

/-- R221: a hook of the stock kernel is running in a core at a level of number `n` or lower. -/
def hookRuns (s : State) (k n : Nat) : Bool := (coreOf s k).work.any (fun w => decide (w.1 ≤ n))

/-- R211, R221: the kernel calls a hook at a level: the core runs customer code from its address, from its level or entered for it. -/
def hookCall (s : State) (k lvl a budget : Nat) (w : HookWork) : State :=
  let c := coreOf s k
  let same := decide (coreState s k = 2) && decide (c.level = lvl)
  let y : Core := if same then c else
    { c with rf := tset c.rf 0 (64 * lvl + 52) c.pc, level := lvl, stack := if coreState s k = 2 then c.level :: c.stack else [], waitOn := none,
             since := tset (tset c.since 0 lvl s.up) 0 (16 + lvl) s.up }
  bump (setCoreState (setCore s k { y with pc := a, hooks := tset y.hooks (0, 0, 0) lvl (c.pc, 0, budget), work := tins y.work lvl (w, !same) }) k 2)
    (Reg.TRK_CNT k 3)

end Sys2Proof.Machine
end

