-- ==== Sys2Proof/Machine/Monitor.lean ====
section
/-! DEFINITION. The monitor array (R144 to R168): gains and dark subtraction, window comparators and exits, scan and
averaging, watch bursts, the port light table and light flags, self-calibration and ADC faults. Inputs are numbered by
photodiode input (R16): 2 × cell + output. -/

namespace Sys2Proof.Machine

/-! ## Paths of light (R24, R32) -/

/-- The crossings of every input line under a state vector: line, crossings by cell. -/
def linePaths (s : State) (v : BitVec 12288) : List (Nat × List Hop) :=
  let g := fm s
  let n := mapPorts g
  let raw := rawOf g v
  let pos := posTab g
  (List.range n).map (fun x => (x, (traceLine (mapTopo g) (log2n n) n raw x).1.map (fun h => (ag pos h.1, h.2.1, h.2.2))))

/-- The state vector in force; all BAR idle while none is in force. -/
def forceVec (s : State) : BitVec 12288 :=
  match s.bel.sol with
  | some x => x.st
  | none => BitVec.ofNat 12288 ((List.range 6144).foldl (fun acc _ => 2 + 4 * acc) 0)

/-- The west port of an input line. -/
def portOfLine (s : State) (x : Nat) : Option Nat :=
  (List.range 512).find? (fun w => portPresent (fm s) false w && decide (portLine (fm s) false w = x))

/-- R24: the connected west ports of a chart whose paths cross a cell. -/
def circuitsThrough (s : State) (v : BitVec 12288) (ch : BitVec 8192) (i : Nat) : List Nat :=
  let ps := linePaths s v
  (List.range 512).filter (fun w => (chartEast ch w).isSome && portPresent (fm s) false w &&
    ps.any (fun p => decide (p.1 = portLine (fm s) false w) && p.2.any (fun h => decide (h.1 = i))))

/-! ## Inputs and ADCs -/

/-- An input beyond its registers. -/
def inpOf (s : State) (i : Nat) : Inp := tget s.mon.inps Inp.init i
def setInp (s : State) (i : Nat) (x : Inp) : State := { s with mon := { s.mon with inps := tset s.mon.inps Inp.init i x } }

/-- The registers of an input. -/
def cfgReg (i : Nat) : Nat := Reg.MON_IN_CFG (i / 128) (i % 128)
def winReg (i : Nat) : Nat := Reg.MON_IN_WIN (i / 128) (i % 128)
def avgReg (i : Nat) : Nat := Reg.MON_IN_AVG (i / 128) (i % 128)
def lastReg (i : Nat) : Nat := Reg.MON_IN_LAST (i / 128) (i % 128)

/-- R145: the gain of an input; 5 to 7 act as 4. -/
def gainOf (s : State) (i : Nat) : Nat := min 4 (fget s (cfgReg i) Reg.MON_IN_CFG_GAIN)

/-- R145: I_FS of a gain in pA. -/
def ifsPA (g : Nat) : Nat := 200000000 / 4 ^ g

/-- Counter k of a tile's monitor. -/
def monCnt (s : State) (t k : Nat) : State := bump s (Reg.MON_CNT t k)

/-- R167: ADC_OK and ENABLED. -/
def adcOk (s : State) (a : Nat) : Bool := bit (fget s (Reg.MON_STATUS (a / 8)) Reg.MON_STATUS_ADC_OK) (a % 8)
def monOn (s : State) (t : Nat) : Bool := decide (fget s (Reg.MON_STATUS t) Reg.MON_STATUS_ENABLED = 1)
def adcValid (s : State) (a : Nat) : Bool := decide (fget s (Reg.MON_ADC_CAL (a / 8) (a % 8)) Reg.MON_ADC_CAL_VALID = 1)

/-- R163: the ADC is in a self-calibration. -/
def adcInCal (s : State) (a : Nat) : Bool :=
  match s.mon.calRun with
  | some none => tileUsed (fm s) (a / 8)
  | some (some b) => decide (a = b)
  | none => false

/-- R153: the ADC converts. -/
def adcRuns (s : State) (a : Nat) : Bool := adcOk s a && !adcInCal s a

/-- The other ADC of a pair. -/
def partner (a : Nat) : Nat := if a % 2 = 0 then a + 1 else a - 1

/-- R152: the ADC that an input is on. -/
def adcOf (i : Nat) : Nat := 8 * (i / 128) + i / 2 % 8

/-- R152, R37: the inputs of an ADC's own slots, unused ones removed. -/
def ownInputs (s : State) (a : Nat) : List Nat :=
  ((List.range 16).map (fun k => 128 * (a / 8) + 2 * (a % 8 + 8 * (k / 2)) + k % 2)).filter (fun i => cellPresent (fm s) (i / 2))

/-- Two lists taken in turn. -/
def interleave : List Nat → List Nat → List Nat
  | [], r => r
  | a :: l, [] => a :: l
  | a :: l, b :: r => a :: b :: interleave l r

/-- R153: the inputs that an ADC converts, its partner's handed over while that one is out. -/
def scanList (s : State) (a : Nat) : List Nat :=
  if adcRuns s (partner a) then ownInputs s a else interleave (ownInputs s a) (ownInputs s (partner a))

/-- R155: averaging of an input restarts. -/
def avgRestart (s : State) (i : Nat) : State :=
  setInp s i { (inpOf s i) with sum := 0, m := 0, first := true, gap := false, flag := false, ov := false }

/-- R155: averaging of every input of a tile restarts. -/
def avgRestartTile (s : State) (t : Nat) : State := (List.range 128).foldl (fun s j => avgRestart s (128 * t + j)) s

/-! ## Port light, light flags and dark tracking (R147, R159, R160) -/

/-- R155: the mean of a published average in units of pA × 4,096 × N, with N, by the gain, N and SHIFT of its publication. -/
def avgPA (s : State) (i : Nat) : Nat × Nat :=
  let x := inpOf s i
  (fget s (avgReg i) Reg.MON_IN_AVG_AVG * 2 ^ x.pubSh * ifsPA x.pubG, 4096 * x.pubN)

/-- R159: the word of a west port in the port light table. -/
def portLight (s : State) (w : Nat) : Nat := mget s (0x931000 + 4 * w) 4
def portLightP (s : State) (w : Nat) : Nat := portLight s w % 2 ^ 24

/-- R32: the in-force state code of a cell: BAR where nothing is in force. -/
def stateNow (s : State) (cell : Nat) : Nat :=
  match s.bel.sol with
  | some x => stateOf x.st cell
  | none => 2

/-- R32, R159: the output of its first-stage cell to which a west port's light goes. -/
def portOut (s : State) (w : Nat) : Nat := (portSide (fm s) false w + stateNow s (portCell (fm s) false w)) % 2

/-- R159: the port light words that an averaging output of an input updates. -/
def portLightUpdate (s : State) (i : Nat) : State :=
  (List.range 512).foldl (fun s w =>
    if portPresent (fm s) false w ∧ portCell (fm s) false w = i / 2 ∧ portOut s w = i % 2 ∧ !bit (portLight s w) 30 then
      let a := avgPA s i
      let p := referTap a.1 (cellTap (fm s) (i / 2) (i % 2)) / (a.2 * 10000)
      mset s (0x931000 + 4 * w) 4 (min p (2 ^ 24 - 1) + 2 ^ 31)
    else s) s

/-- R160: the light of a cell in pA, referred to its output 0 tap. -/
def cellLight (s : State) (cell : Nat) : Nat :=
  let a0 := avgPA s (2 * cell)
  let a1 := avgPA s (2 * cell + 1)
  let d : Int := (cellTap (fm s) cell 1 : Int) - (cellTap (fm s) cell 0 : Int)
  a0.1 / a0.2 + a1.1 * pow10i (d * 100) / (one * a1.2)

/-- R160: LIGHT of a cell. -/
def lightOf (s : State) (cell : Nat) : Bool := rbit s (Reg.MON_LIGHT (cell / 64) (cell % 64 / 32)) (cell % 32)

/-- R160: PRESENT and ABSENT in pA. -/
def presentPA (s : State) (t : Nat) : Nat := 10000 * fget s (Reg.MON_THR t) Reg.MON_THR_PRESENT
def absentPA (s : State) (t : Nat) : Nat := min (presentPA s t) (10000 * fget s (Reg.MON_THR t) Reg.MON_THR_ABSENT)

/-- R196: the west ports of which a lit cell on the path has WARN. -/
def portWarns (s : State) : State :=
  (linePaths s (forceVec s)).foldl (fun s p =>
    match portOfLine s p.1 with
    | some w =>
      let b := p.2.any (fun h => bit (mbyte s (0x934300 + h.1 / 8)) (h.1 % 8) && lightOf s h.1)
      mset s (0x934600 + w / 8) 1 (putBit (mbyte s (0x934600 + w / 8)) (w % 8) b)
    | none => s) s

/-- R160, R196: LIGHT of a cell set; the port map of R196 follows for a cell with WARN. -/
def setLight (s : State) (cell : Nat) (b : Bool) : State :=
  let s1 := rput s (Reg.MON_LIGHT (cell / 64) (cell % 64 / 32)) (cell % 32) b
  if lightOf s cell ≠ b ∧ bit (mbyte s (0x934300 + cell / 8)) (cell % 8) then portWarns s1 else s1

/-- R160: LIGHT judged at an averaging output of the cell's cross input. -/
def lightUpdate (s : State) (cell : Nat) : State :=
  let l := cellLight s cell
  if presentPA s (cell / 64) ≤ l then setLight s cell true else if l < absentPA s (cell / 64) then setLight s cell false else s

/-- R147: a DARK change is written; it applies at the input's next scan slot. -/
def setDark (s : State) (i d : Nat) : State := fset s (cfgReg i) Reg.MON_IN_CFG_DARK (min d 1023)

/-- R147: at the start of a scan slot, 62.5 ns before its result, a changed DARK applies: 20 ns of blanking, and a restart of averaging on
more than 2 steps. -/
def applyDark (s : State) (i : Nat) : State :=
  let x := inpOf s i
  let d := fget s (cfgReg i) Reg.MON_IN_CFG_DARK
  if d = x.darkOn then s
  else
    let s1 := setInp s i { x with darkOn := d, blankEnd := max x.blankEnd (s.up - 42) }
    if (if d ≤ x.darkOn then x.darkOn - d else d - x.darkOn) ≤ 2 then s1 else avgRestart s1 i

/-- R144, R147: the net current in pA of a photocurrent at an input: less the subtraction source. -/
def netPA (s : State) (i cur : Nat) : Nat := cur - 100 * (inpOf s i).darkOn

/-- R144, R154: the code of a photocurrent at an input, and OVER: at or above full scale, or in overload recovery (notes/assumptions/92). -/
def codeFor (s : State) (i cur : Nat) : Nat := min 4095 (4096 * netPA s i cur / ifsPA (gainOf s i))
def overFor (s : State) (i cur : Nat) (recovery : Bool) : Bool := recovery || decide (ifsPA (gainOf s i) ≤ netPA s i cur)

/-- R370: the temperature of a tile, 0.01 °C. -/
def picTemp (s : State) (t : Nat) : Int := sext (fget s (Reg.THM_PIC t) Reg.THM_PIC_EFF) 16

/-- R147: TRACK of a tile. -/
def tracking (s : State) (t : Nat) : Bool := decide (fget s (Reg.MON_DARK t) Reg.MON_DARK_TRACK = 1)

/-- R147: DARK_ref scaled from its temperature to another by 2^((T − T_ref) / DOUBLE). -/
def darkScaled (s : State) (t ref : Nat) (tRef now : Int) : Nat :=
  let dbl := 10 * max 1 (fget s (Reg.MON_DARK t) Reg.MON_DARK_DOUBLE)
  let d := now - tRef
  scale2 ref d.natAbs dbl (decide (0 ≤ d))

/-- R147: an input without a tracked value takes TILE_DARK, scaled. -/
def borrowDark (s : State) (i : Nat) : State :=
  let t := i / 128
  if (inpOf s i).ref.isSome ∨ fget s (Reg.MON_STATUS t) Reg.MON_STATUS_DARK_NONE = 1 then s
  else setDark s i (darkScaled s t (fget s (Reg.MON_DARK t) Reg.MON_DARK_TILE_DARK) (tget s.mon.tileT 0 t) (picTemp s t))

/-- R147: the median of the tile's tracked DARK_ref, which the untracked inputs take. -/
def tileDarkUpdate (s : State) (t : Nat) : State :=
  let l := (List.range 128).filterMap (fun j => ((inpOf s (128 * t + j)).ref).map (fun r => (r.1 : Int)))
  if l.isEmpty then s
  else
    (List.range 128).foldl (fun s j => borrowDark s (128 * t + j))
      (fset (fset s (Reg.MON_DARK t) Reg.MON_DARK_TILE_DARK (median l).toNat) (Reg.MON_STATUS t) Reg.MON_STATUS_DARK_NONE 0)

/-- R147: tracking at an averaging output of an input of an unlit cell at gain 4. -/
def darkTrack (s : State) (i : Nat) : State :=
  let t := i / 128
  if !tracking s t ∨ lightOf s (i / 2) ∨ gainOf s i ≠ 4 then s
  else
    let a := avgPA s i
    let d := fget s (cfgReg i) Reg.MON_IN_CFG_DARK
    let d1 := if fget s (avgReg i) Reg.MON_IN_AVG_AVG * 2 ^ (inpOf s i).pubSh / (inpOf s i).pubN = 0 then d - 2 else min 1023 (d + min 2 (a.1 / (a.2 * 100)))
    let s1 := fset (setDark s i d1) (cfgReg i) Reg.MON_IN_CFG_DSTALE 0
    let s2 := setInp s1 i { (inpOf s1 i) with ref := some (d1, picTemp s t) }
    tileDarkUpdate { s2 with mon := { s2.mon with tileT := tset s2.mon.tileT 0 t (picTemp s t) } } t

/-- R147: a change of the tile's temperature of at least 0.1 K rescales every input that is not tracked at present. -/
def darkTemp (s : State) (t : Nat) : State :=
  let now := picTemp s t
  let last := tget s.mon.lastT 0 t
  if (now - last).natAbs < 10 then s
  else
    let s1 := { s with mon := { s.mon with lastT := tset s.mon.lastT 0 t now } }
    if !tracking s1 t then s1 else
    (List.range 128).foldl (fun s j =>
      let i := 128 * t + j
      if !lightOf s (i / 2) ∧ gainOf s i = 4 ∧ (inpOf s i).ref.isSome then s
      else match (inpOf s i).ref with
        | some r => setDark s i (darkScaled s t r.1 r.2 now)
        | none => borrowDark s i) s1

/-! ## Averaging (R155) -/

/-- R155: N and SHIFT of a tile. -/
def avgN (s : State) (t : Nat) : Nat := max 1 (fget s (Reg.MON_AVG t) Reg.MON_AVG_NM1) + 1
def avgShift (s : State) (t : Nat) : Nat := min 8 (fget s (Reg.MON_AVG t) Reg.MON_AVG_SHIFT)

/-- R155: an average published with its flags and the next SEQ; then the uses of R147, R159, R160. -/
def publish (s : State) (i avg : Nat) (part : Bool) : State :=
  let x := inpOf s i
  let a := avgReg i
  let seq := fget s a Reg.MON_IN_AVG_SEQ
  let w := setF (setF (setF (setF (setF (setF 0 Reg.MON_IN_AVG_AVG (min avg (2 ^ 20 - 1))) Reg.MON_IN_AVG_PARTIAL (b2n part))
    Reg.MON_IN_AVG_GAP (b2n x.gap)) Reg.MON_IN_AVG_FLAG (b2n x.flag)) Reg.MON_IN_AVG_OVER (b2n x.ov)) Reg.MON_IN_AVG_SEQ (seq + 1)
  let s1 := rset (setInp s i { x with pubG := gainOf s i, pubN := x.n, pubSh := x.sh }) a w
  let s2 := portLightUpdate s1 i
  let s3 := if i % 2 = 1 then lightUpdate s2 (i / 2) else s2
  darkTrack s3 i

/-- R155: a scan sample enters the block of its input. -/
def avgSample (s : State) (i code : Nat) (flag ov : Bool) : State :=
  let x0 := inpOf s i
  let t := i / 128
  let x := if x0.m = 0 then { x0 with n := avgN s t, sh := avgShift s t, flag := false, ov := false } else x0
  let x1 := { x with sum := x.sum + code, m := x.m + 1, flag := x.flag || flag, ov := x.ov || ov }
  if x1.m < x1.n then
    let s1 := setInp s i x1
    if x1.first then publish s1 i (x1.sum * x1.n / x1.m / 2 ^ x1.sh) true else s1
  else
    let s1 := publish (setInp s i x1) i (x1.sum / 2 ^ x1.sh) false
    setInp s1 i { (inpOf s1 i) with sum := 0, m := 0, first := false, gap := false }

/-! ## Window comparators (R148 to R151) -/

/-- R148: CMP_EN of an input. -/
def cmpOn (s : State) (i : Nat) : Bool := decide (fget s (cfgReg i) Reg.MON_IN_CFG_CMP_EN = 1) && cellPresent (fm s) (i / 2) && !isRetired s (i / 2)

/-- The bells whose verify is in progress, or that are armed, change a cell that has not landed. -/
def changingNow (s : State) (cell : Nat) : Bool :=
  s.bel.bells.any (fun b => decide (5 ≤ b.st) && (b.plan.map (fun p => p.cells.any (fun c => decide (c.1 = cell)))).getD false &&
    !b.ver.landed.contains cell && !b.ver.passOn.contains cell)

/-- R81: an exit at a cell of an unchanged circuit, not itself changing, between fire and the end of verify is an excursion. -/
def noteExcursion (s : State) (cell : Nat) : State :=
  let ws := circuitsThrough s (forceVec s) s.bel.forceChart cell
  { s with bel := { s.bel with bells := s.bel.bells.map (fun b =>
    if b.st = 6 ∧ ws.any (fun w => !bit b.ver.changed.toNat w) ∧ !(match b.plan with
        | some p => p.cells.any (fun c => decide (c.1 = cell))
        | none => false)
    then { b with ver := { b.ver with nExcur := b.ver.nExcur + 1 } } else b) } }

/-- R151: from arm until its landing instant a changing cell's inputs raise no wake. -/
def wakeMasked (s : State) (cell : Nat) : Bool := changingNow s cell

/-- R151: whether an input's exit was masked. -/
def setMasked (s : State) (i : Nat) (b : Bool) : State :=
  let l := s.mon.masked.filter (fun x => !decide (x = i))
  { s with mon := { s.mon with masked := if b then l ++ [i] else l } }

/-- R149, R151: an exit that passes its filter: the flag, the wake request, the excursion of an unchanged circuit. -/
def exitEvent (s : State) (i : Nat) : State :=
  let t := i / 128
  let s1 := monCnt (rput s (Reg.MON_EXIT t (i % 128 / 32)) (i % 32) true) t 0
  if wakeMasked s1 (i / 2) then setMasked s1 i true
  else
    let s2 := setMasked (noteExcursion s1 (i / 2)) i false
    if fget s2 (cfgReg i) Reg.MON_IN_CFG_WAKE_EN = 1 then monCnt s2 t 1 else s2

/-- R149, R211: an exit of an input of a tile stands whose wake request was made. -/
def exitWake (s : State) (t : Nat) : Bool :=
  (List.range 128).any (fun j => rbit s (Reg.MON_EXIT t (j / 32)) (j % 32) && decide (fget s (cfgReg (128 * t + j)) Reg.MON_IN_CFG_WAKE_EN = 1) &&
    !s.mon.masked.contains (128 * t + j))

/-- R211, R218: the pending levels of a core: level 2 while a wake request of its tile's exits stands, level 4 while its FIFO is not empty,
the others from their request until they are served (notes/assumptions/95). -/
def pendOf (s : State) (k : Nat) : Nat :=
  let c := coreOf s k
  putBit (putBit c.pend 2 (decide (coreTile s k < 96) && exitWake s (coreTile s k))) 4 (!c.fifo.isEmpty)

/-- R149: the filter time in ns. -/
def filtNs (s : State) (i : Nat) : Nat := let f := fget s (cfgReg i) Reg.MON_IN_CFG_FILT; if f = 0 then 0 else 5 * 2 ^ f

/-- R148, R161: STATE of a photocurrent against the window; a signal at or above full scale is judged at the saturated code. -/
def winState (s : State) (i cur : Nat) : Nat :=
  let x := 4096 * netPA s i cur
  let f := ifsPA (gainOf s i)
  let hi := fget s (winReg i) Reg.MON_IN_WIN_HI
  if x < fget s (winReg i) Reg.MON_IN_WIN_LO * f ∧ x < 4095 * f then 0 else if hi * f < x ∧ hi < 4095 then 2 else 1

/-- R145, R148 to R150: the comparator follows a photocurrent that has lasted `ns`: STATE outside holds and blanking; an exit from IN, or
one found by the evaluation at a hold's end, counts once it has lasted the filter time. -/
def cmpSee (s : State) (i cur ns : Nat) : State :=
  let x := inpOf s i
  if !cmpOn s i ∨ s.up < x.blankEnd ∨ x.holdEnd.any (fun e => decide (s.up < e)) then s
  else
    let st := winState s i cur
    let wait := decide (st ≠ 1) && (x.exitWait || x.holdEnd.isSome || decide (fget s (winReg i) Reg.MON_IN_WIN_STATE = 1))
    let go := wait && decide (filtNs s i ≤ ns)
    let s1 := fset (setInp s i { x with holdEnd := none, exitWait := wait && !go }) (winReg i) Reg.MON_IN_WIN_STATE st
    if go then exitEvent s1 i else s1

/-- R149: EXIT: the current at an input, and for how long it has stood there. -/
def execExit (t : Fin 96) (j : Fin 128) (cur : Nat) (ns : Fin 64) (s : State) : Host.Outcome State Fault Refusal :=
  done s (cmpSee s (128 * t + j) cur ns)

/-- R150: a window written: its thresholds, and STATE held for 20 ns. -/
def winSet (s : State) (i lo hi : Nat) : State :=
  let s1 := fset (fset s (winReg i) Reg.MON_IN_WIN_LO lo) (winReg i) Reg.MON_IN_WIN_HI hi
  setInp s1 i { (inpOf s1 i) with holdEnd := some (s1.up + 20) }

/-- R150: WINDOW_HOLD_END: STATE is evaluated against the new thresholds. -/
def winHoldEnd (s : State) (i cur ns : Nat) : State :=
  match (inpOf s i).holdEnd with
  | some e =>
    if s.up < e then s
    else if cmpOn s i then cmpSee s i cur ns else setInp s i { (inpOf s i) with holdEnd := none }
  | none => s

/-- R150: WINDOW_HOLD_END. -/
def execWindowHoldEnd (t : Fin 96) (j : Fin 128) (cur : Nat) (ns : Fin 64) (s : State) : Host.Outcome State Fault Refusal :=
  done s (winHoldEnd s (128 * t + j) cur ns)

/-- R51: the comparators of a cell are disabled and report IN. -/
def cmpDisable (s : State) (cell : Nat) : State :=
  [2 * cell, 2 * cell + 1].foldl (fun s i => fset (fset s (cfgReg i) Reg.MON_IN_CFG_CMP_EN 0) (winReg i) Reg.MON_IN_WIN_STATE 1) s

/-- R145: a threshold rescaled by 4^(new − old). -/
def rescale (v old new : Nat) : Nat := if old ≤ new then min 4095 (v * 4 ^ (new - old)) else v / 4 ^ (old - new)

/-- The pair of an input's ADC (R152). -/
def pairOf (i : Nat) : Nat := adcOf i / 2
def pairGet (s : State) (p : Nat) : Pair := tget s.mon.pairs Pair.init p
def setPair (s : State) (p : Nat) (x : Pair) : State := { s with mon := { s.mon with pairs := tset s.mon.pairs Pair.init p x } }

/-- R145: a gain change takes effect. -/
def gainSet (s : State) (i g : Nat) : State :=
  let old := gainOf s i
  let new := min 4 g
  let lo := fget s (winReg i) Reg.MON_IN_WIN_LO
  let hi := fget s (winReg i) Reg.MON_IN_WIN_HI
  let s1 := fset s (cfgReg i) Reg.MON_IN_CFG_GAIN g
  if old = new then s1
  else
    let s2 := fset (fset s1 (winReg i) Reg.MON_IN_WIN_LO (rescale lo old new)) (winReg i) Reg.MON_IN_WIN_HI
      (if hi = 4095 then 4095 else rescale hi old new)
    avgRestart (setInp s2 i { (inpOf s2 i) with blankEnd := s2.up + 100 }) i

/-- R156: an input is under a watch burst. -/
def underBurst (s : State) (i : Nat) : Bool :=
  match (pairGet s (pairOf i)).burst with
  | some (q, _) => decide (q.input = i % 128)
  | none => false

/-- R145: a gain change asked for: at once, or after the burst that the input is under; the last one asked for counts. -/
def gainAsk (s : State) (i g : Nat) : State :=
  let b := underBurst s i && decide (min 4 g ≠ gainOf s i)
  let s1 := setInp s i { (inpOf s i) with gainWait := if b then some g else none }
  if b then s1 else gainSet s1 i g

/-- R145, R147, R148: a write of MON_INj_CFG. -/
def inCfgWrite (s : State) (i v : Nat) : State :=
  let g := bits v 0 3
  let s1 := setDark (gainAsk s i g) i (bits v 4 10)
  let en := if cellPresent (fm s) (i / 2) ∧ !isRetired s (i / 2) then bits v 16 1 else 0
  let s2 := if en = 1 then s1 else fset s1 (winReg i) Reg.MON_IN_WIN_STATE 1
  fset (fset (fset s2 (cfgReg i) Reg.MON_IN_CFG_CMP_EN en) (cfgReg i) Reg.MON_IN_CFG_WAKE_EN (bits v 17 1)) (cfgReg i)
    Reg.MON_IN_CFG_FILT (bits v 18 2)

/-- R13, R149: a write of MON_EXITk: a bit whose input is still outside its window sets again. -/
def exitWrite (s : State) (t k v : Nat) : State :=
  (List.range 32).foldl (fun s b =>
    let i := 128 * t + 32 * k + b
    if bit v b ∧ (fget s (winReg i) Reg.MON_IN_WIN_STATE = 1 ∨ !cmpOn s i) then rput s (Reg.MON_EXIT t k) b false else s) s

/-- R13, R149, R151, R216: the core clears the exits of a cell's inputs. -/
def clearExits (s : State) (cell : Nat) : State :=
  let j := 2 * (cell % 64)
  exitWrite s (cell / 64) (j / 32) (3 * 2 ^ (j % 32))

/-! ## Faults of ADCs and inputs (R164) -/

/-- R153: the inputs of a pair whose two ADCs are out carry FLAG. -/
def pairFlag (s : State) (a : Nat) : State :=
  (ownInputs s a ++ ownInputs s (partner a)).foldl (fun s i =>
    fset (rput s (lastReg i) 12 true) (avgReg i) Reg.MON_IN_AVG_FLAG 1) s

/-- R164: an ADC leaves scan: its pair goes on single, its inputs restart averaging. -/
def adcStop (s : State) (a : Nat) : State :=
  let t := a / 8
  let s1 := rput s (Reg.MON_STATUS t) (8 + a % 8) false
  let s2 := fset s1 (Reg.MON_WATCH t (a / 2 % 4)) Reg.MON_WATCH_SINGLE 1
  let s3 := (ownInputs s2 a).foldl avgRestart s2
  if adcRuns s3 (partner a) then s3 else pairFlag s3 a

/-- R164: an ADC has failed: its inputs go to its partner, with a record. -/
def adcFail (s : State) (a cause : Nat) : State :=
  if adcOk s a then report (adcStop s a) (srcMon (a / 8)) 0x20 a cause else s

/-- R164: ADC_CONVERSION_TIMEOUT. -/
def execAdcConversionTimeout (adc : Fin 768) (s : State) : Host.Outcome State Fault Refusal :=
  done s (if monOn s (adc / 8) ∧ adcRuns s adc then adcFail s adc 1 else s)

/-- R164: a sample disagrees with the comparator's STATE. -/
def disagrees (s : State) (i code : Nat) : Bool :=
  let st := fget s (winReg i) Reg.MON_IN_WIN_STATE
  let lo := fget s (winReg i) Reg.MON_IN_WIN_LO
  let hi := fget s (winReg i) Reg.MON_IN_WIN_HI
  (decide (code + 8 < lo) && decide (st ≠ 0)) || (decide (hi + 8 < code) && decide (st ≠ 2))

/-- R164: a scan sample is compared with the comparator, which reports IN where it is disabled (R148). -/
def sampleCheck (s : State) (a i code word : Nat) : State :=
  let t := i / 128
  if owned s (2 * (i / 2)) ∨ owned s (2 * (i / 2) + 1) ∨ s.up < (inpOf s i).blankEnd then s
  else if disagrees s i code then
    let run := (tget s.mon.runs [] a ++ [i]).drop ((tget s.mon.runs [] a).length - 7)
    let bad := (inpOf s i).bad + 1
    let s1 := setInp (monCnt s t 6) i { (inpOf s i) with bad := bad }
    let s2 := { s1 with mon := { s1.mon with runs := tset s1.mon.runs [] a run } }
    if 8 ≤ run.length ∧ run.any (fun x => decide (x ≠ i)) then adcFail { s2 with mon := { s2.mon with runs := tset s2.mon.runs [] a [] } } a 0
    else if 8 ≤ bad then
      retireAsk (report (setInp s2 i { (inpOf s2 i) with bad := 0 }) (srcMon t) 0x21 i word) (i / 2) 7
    else s2
  else
    let s1 := setInp s i { (inpOf s i) with bad := 0 }
    { s1 with mon := { s1.mon with runs := tset s1.mon.runs [] a [] } }

/-! ## Scan (R152 to R154) -/

/-- R391, R377: scan is stopped by DOZE, NAP or a die shut-down. -/
def scanStopped (s : State) : Bool :=
  decide (2 ≤ fget s Reg.GLB_PSTATE Reg.GLB_PSTATE_STATE) || dieShut s

/-- R154: a sample word. -/
def sampleWord (code : Nat) (flag ov watch : Bool) : Nat := code % 4096 + 4096 * b2n flag + 8192 * b2n ov + 16384 * b2n watch

/-- R154, R167: the last sample of an input, with the next SEQ; a sample with FLAG counts. -/
def setLast (s0 : State) (i word : Nat) : State :=
  let a := lastReg i
  let s1 := setInp s0 i { (inpOf s0 i) with lastG := gainOf s0 i, lastV := word % 4096 }
  let s := if bit word 12 then monCnt s1 (i / 128) 7 else s1
  fset (fset s a Reg.MON_IN_LAST_SAMPLE word) a Reg.MON_IN_LAST_SEQ (fget s a Reg.MON_IN_LAST_SEQ + 1)

/-- R152, R154: SCAN_CONVERSION: the photocurrent of the ADC's present slot is converted and the scan goes on. -/
def scanOne (s : State) (a cur : Nat) (recovery : Bool) : State :=
  let t := a / 8
  let l := scanList s a
  if !monOn s t ∨ !adcRuns s a ∨ scanStopped s ∨ fget s (Reg.MON_STATUS t) Reg.MON_STATUS_SUSPENDED = 1 ∨
     (pairGet s (a / 2)).burst.isSome ∨ l.isEmpty then s
  else
    let k := tget s.mon.slots 0 a
    let i := l.getD (k % l.length) 0
    let flag := !adcValid s a
    let s1 := applyDark { s with mon := { s.mon with slots := tset s.mon.slots 0 a ((k + 1) % l.length) } } i
    let code := codeFor s1 i cur
    let ov := overFor s1 i cur recovery
    let w := sampleWord code flag ov false
    avgSample (sampleCheck (setLast s1 i w) a i code w) i code flag ov

/-- R152: SCAN_CONVERSION. -/
def execScanConversion (adc : Fin 768) (cur : Nat) (recovery : Bool) (s : State) : Host.Outcome State Fault Refusal :=
  done s (scanOne s adc cur recovery)

/-- R155, R158: scan of a tile was suspended: blocks in progress carry GAP. -/
def gapTile (s : State) (t : Nat) : State :=
  (List.range 128).foldl (fun s j =>
    let x := inpOf s (128 * t + j)
    if x.m = 0 then s else setInp s (128 * t + j) { x with gap := true }) s

/-! ## Watch bursts (R156 to R158) -/

/-- R167: QLEN of a pair follows its queue. -/
def qlenNote (s : State) (p : Nat) : State := fset s (Reg.MON_WATCH (p / 4) (p % 4)) Reg.MON_WATCH_QLEN (pairGet s p).queue.length

/-- R157, R217: a watch request: PENDING in its record, at the head of the queue for a bell, or REFUSED by a full queue. -/
def watchAsk (s : State) (t : Nat) (q : Req) : State :=
  let p := pairOf (128 * t + q.input)
  let x := pairGet s p
  if 4 ≤ x.queue.length then burstWrite s t q 3 []
  else qlenNote (setPair (burstWrite s t q 0 []) p { x with queue := if q.bell then q :: x.queue else x.queue ++ [q] }) p

/-- R264: the watch token bucket filled up to now, in thousandths. -/
def tokens (s : State) : Nat :=
  min (1000 * fget s Reg.PWR_STAND Reg.PWR_STAND_WATCH_DEPTH)
    (s.pwr.tok + max 1 (fget s Reg.PWR_STAND Reg.PWR_STAND_WATCH_RATE) * (s.up - s.pwr.tokAt))

/-- R157: a bell's hall-pass interval is open; a repair fire has none (R267). -/
def inPassInterval (s : State) : Bool := s.bel.bells.any (fun b => !b.repair && decide (b.t ≤ nowNs s + 5000 ∧ nowNs s ≤ b.t + 1700))

/-- R156: the number of samples of a burst of a pair. -/
def burstN (s : State) (p : Nat) : Nat :=
  if fget s (Reg.MON_WATCH (p / 4) (p % 4)) Reg.MON_WATCH_SINGLE = 1 then 2 else max 2 (fget s (Reg.MON_AVG (p / 4)) Reg.MON_AVG_WATCH_N)

/-- R156: the length of a burst of `n` samples in ns, rounded up. -/
def burstNs (s : State) (p n : Nat) : Nat :=
  if fget s (Reg.MON_WATCH (p / 4) (p % 4)) Reg.MON_WATCH_SINGLE = 1 then 119 else divUp (3000 + 3125 * (n - 1) + 2625) 100

/-- R156: the samples of a burst that are available `dt` ns after the pair switched. -/
def burstGot (s : State) (p n dt : Nat) : Nat :=
  let step := if fget s (Reg.MON_WATCH (p / 4) (p % 4)) Reg.MON_WATCH_SINGLE = 1 then 6250 else 3125
  ((List.range n).filter (fun i => decide (3000 + step * i + 2625 ≤ 100 * dt))).length

/-- R154, R156: the sample words of a burst from the photocurrents seen: FLAG belongs to the ADC that converts. -/
def burstWords (s : State) (p i n : Nat) (cur : List (Nat × Bool)) : List Nat :=
  (List.range (min n cur.length)).map (fun j =>
    let a := if !adcRuns s (2 * p) then 2 * p + 1 else if !adcRuns s (2 * p + 1) then 2 * p else 2 * p + j % 2
    let x := cur.getD j (0, false)
    sampleWord (codeFor s i x.1) (!adcValid s a) (overFor s i x.1 x.2) true)

/-- R217: a burst record of a tile that no request of its pairs uses (notes/assumptions/106). -/
def freeRec (s : State) (t : Nat) : Option Nat :=
  let used := (List.range 4).flatMap (fun q => let x := pairGet s (4 * t + q); x.queue.map (·.rcd) ++ (x.burst.map (fun y => y.1.rcd)).toList)
  (List.range 16).find? (fun r => !used.contains r)

/-- R232, R238: a TAU burst of a sweep that is due: 1, 2, 4 and 8 µs after the load of its first point. -/
def tauDue (s : State) (w : Sweep) : Bool := decide (w.tauN < 4) && !w.tauOpen && decide (w.tauAt ≠ 0 ∧ w.tauAt + 1000 * 2 ^ w.tauN ≤ s.up)

/-- R238: the kernel asks for a TAU burst on the weak output `o` of a swept cell, behind the hold requests; one calibration request at most
waits in a pair, and none while the pairs serve a bell. -/
def tauAsk (s : State) (i o : Nat) : State :=
  let t := i / 64
  let j := 2 * (i % 64) + o
  let x := pairGet s (pairOf (128 * t + j))
  match tfind s.cal.sweeps i, freeRec s t with
  | some w, some r =>
    if !tauDue s w ∨ x.queue.any (·.cal) ∨ 4 ≤ x.queue.length ∨ fget s (Reg.MON_STATUS t) Reg.MON_STATUS_SUSPENDED = 1 then s
    else watchAsk { s with cal := { s.cal with sweeps := tins s.cal.sweeps i { w with tauOpen := true } } } t (Req.mk j r (i % 64) false true)
  | _, _ => s

/-- R232, R238: what became of a TAU burst: its delay and mean code, or nothing, and it is asked for again. -/
def tauGot (s : State) (t : Nat) (q : Req) (got : Option (Nat × List Nat)) : State :=
  let i := 64 * t + q.input / 2
  match q.cal, tfind s.cal.sweeps i with
  | true, some w =>
    let w1 := match got with
      | some (t0, ws) => { w with tauN := w.tauN + 1, tauOpen := false,
                                  tauPts := w.tauPts ++ [(t0 - w.tauAt, if ws.isEmpty then 0 else (ws.map (· % 4096)).foldl (· + ·) 0 / ws.length)] }
      | none => { w with tauOpen := false }
    { s with cal := { s.cal with sweeps := tins s.cal.sweeps i w1 } }
  | _, _ => s

/-- R156, R264: WATCH_BURST_START: the pair switches onto the input at the head of its queue. -/
def burstStart (s : State) (p : Nat) : State :=
  let x := pairGet s p
  let t := p / 4
  match x.queue with
  | [] => s
  | q :: rest =>
    let free := q.bell || inPassInterval s
    let only := decide (fget s (Reg.MON_STATUS t) Reg.MON_STATUS_SUSPENDED = 1)
    if x.burst.isSome ∨ scanStopped s ∨ (only ∧ !q.bell) ∨ (!free ∧ tokens s < 1000) ∨ !(adcRuns s (2 * p) || adcRuns s (2 * p + 1)) then s
    else
      let s1 := if free then s else { s with pwr := { s.pwr with tok := tokens s - 1000, tokAt := s.up } }
      let s2 := qlenNote (setPair s1 p { queue := rest, burst := some (q, s1.up, burstN s1 p) }) p
      let scanning := monOn s2 t && decide (fget s2 (Reg.MON_STATUS t) Reg.MON_STATUS_SUSPENDED = 0)
      let s3 := if scanning then bumpN s2 (Reg.MON_CNT t 4) (b2n (adcRuns s2 (2 * p)) + b2n (adcRuns s2 (2 * p + 1))) else s2
      let w := Reg.MON_WATCH t (p % 4)
      let s4 := fset (fset s3 w Reg.MON_WATCH_INPUT q.input) w Reg.MON_WATCH_ACTIVE 1
      let s5 := rput (monCnt s4 t 2) (Reg.MON_STATUS t) (16 + p % 4) true
      match coreFor s5 t with
      | some k => dput (dput s5 k (burstRec q.rcd + 4) 4 (tcnt s5)) k (burstRec q.rcd + 8) 2 (4 * (nowNs s5 % 20) + bits s5.now 38 2)
      | none => s5

/-- R156: WATCH_BURST_START. -/
def execWatchBurstStart (pair : Fin 384) (s : State) : Host.Outcome State Fault Refusal := done s (burstStart s pair)

/-- R156: the pair is free again: a gain change that waited takes effect. -/
def burstOver (s : State) (p : Nat) (q : Req) : State :=
  let t := p / 4
  let w := Reg.MON_WATCH t (p % 4)
  let s1 := setPair (fset s w Reg.MON_WATCH_ACTIVE 0) p { (pairGet s p) with burst := none }
  let s2 := rput s1 (Reg.MON_STATUS t) (16 + p % 4) false
  let i := 128 * t + q.input
  match (inpOf s2 i).gainWait with
  | some g => gainSet (setInp s2 i { (inpOf s2 i) with gainWait := none }) i g
  | none => s2

/-- R156, R217: WATCH_BURST_END: the record is written and the last sample mirrored. -/
def burstEnd (s : State) (p : Nat) (seen : List (Nat × Bool)) : State :=
  match (pairGet s p).burst with
  | none => s
  | some (q, t0, n) =>
    if s.up < t0 + burstNs s p n then s
    else
      let t := p / 4
      let ws := burstWords s p (128 * t + q.input) n seen
      let s1 := ws.foldl (fun s w => setLast s (128 * t + q.input) w) s
      burstOver (tauGot (burstWrite s1 t q 1 ws) t q (some (t0, ws))) p q

/-- R156: WATCH_BURST_END. -/
def execWatchBurstEnd (pair : Fin 384) (seen : List (Nat × Bool)) (s : State) : Host.Outcome State Fault Refusal :=
  done s (burstEnd s pair seen)

/-- R158, R217: at a fire strobe an armed tile's scan is suspended, its burst aborted with the samples completed before (`seen`: the
photocurrents by pair), and requests not made for the bell dropped. -/
def monFire (s : State) (seen : List (Nat × List (Nat × Bool))) (t : Nat) : State :=
  let n := ((List.range 8).filter (fun k => adcRuns s (8 * t + k) && (pairGet s (4 * t + k / 2)).burst.isNone)).length
  let s1 := if monOn s t then bumpN s (Reg.MON_CNT t 4) n else s
  let s2 := gapTile (fset s1 (Reg.MON_STATUS t) Reg.MON_STATUS_SUSPENDED 1) t
  (List.range 4).foldl (fun s j =>
    let p := 4 * t + j
    let x := pairGet s p
    let s3 := match x.burst with
      | some (q, t0, n) =>
        let cur := (seen.find? (fun x => decide (x.1 = p))).elim [] (·.2)
        burstOver (tauGot (monCnt (burstWrite s t q 2 (burstWords s p (128 * t + q.input) (burstGot s p n (s.up - t0)) cur)) t 3) t q none) p q
      | none => s
    let y := pairGet s3 p
    let gone := y.queue.filter (fun q => !q.bell)
    let s4 := gone.foldl (fun s q => tauGot (burstWrite s t q 2 []) t q none) s3
    qlenNote (setPair s4 p { y with queue := y.queue.filter (fun q => q.bell) }) p) s2

/-- R158: a tile's pairs are released and its scan resumes. -/
def monRelease (s : State) (t : Nat) : State := fset s (Reg.MON_STATUS t) Reg.MON_STATUS_SUSPENDED 0

/-- R166: on return from DOZE or NAP scan restarts at slot 0 and averaging restarts. -/
def monResume (s : State) : State :=
  let s1 := { s with mon := { s.mon with slots := [] } }
  (List.range 96).foldl (fun s t => if monOn s t then avgRestartTile s t else s) s1

/-- R166: a warm restart empties the watch queues. -/
def monWarm (s : State) : State :=
  let s1 := { s with mon := { s.mon with pairs := s.mon.pairs.filterMap (fun e =>
    let x : Pair := { e.2 with queue := [] }
    if x = Pair.init then none else some (e.1, x)) } }
  s.mon.pairs.foldl (fun s e => qlenNote s e.1) s1

/-! ## Enable, diagnostics and self-calibration -/

/-- R146: the bias of an input's photodiode in mV: the map's PD_BIAS once its tile's monitor is enabled, fully reached within 10 µs, held
until power-off; none in an unused slot. -/
def biasOf (s : State) (i : Nat) : Nat :=
  let x := tget s.mon.bias (0, 0) (i / 128)
  if cellPresent (fm s) (i / 2) ∧ x.2 + 10000 ≤ s.up then x.1 else 0

/-- R146, R165: a write of MON_CTRL. -/
def monCtrlWrite (s : State) (t v : Nat) : State :=
  if v % 2 = 0 ∨ monOn s t then s
  else
    let st := Reg.MON_STATUS t
    let r := if (List.range 8).any (fun k => !adcValid s (8 * t + k)) then 1 else if !tileUsed (fm s) t then 2 else if !mapHeld s then 3 else 0
    if r ≠ 0 then fset s st Reg.MON_STATUS_ENREFUSE r
    else
      let s1 := { s with mon := { s.mon with bias := tset s.mon.bias (0, 0) t (mapBias (fm s), s.up) } }
      avgRestartTile (fset (fset s1 (Reg.MON_CTRL t) Reg.MON_CTRL_ENABLE 1) st Reg.MON_STATUS_ENABLED 1) t

/-- R167: a write of MON_DIAG. -/
def diagWrite (s : State) (t v : Nat) : State :=
  let a := Reg.MON_DIAG t
  let s1 := fset s a Reg.MON_DIAG_INPUT v
  if bit v 7 then fset s1 a Reg.MON_DIAG_BUSY 1 else s1

/-- R163, R167: DIAG_CONVERSION. -/
def diagDone (s : State) (t cur : Nat) (recovery : Bool) : State :=
  let a := Reg.MON_DIAG t
  let i := 128 * t + fget s a Reg.MON_DIAG_INPUT
  let w := sampleWord (codeFor s i cur) (!adcValid s (adcOf i) || adcInCal s (adcOf i)) (overFor s i cur recovery) false
  if fget s a Reg.MON_DIAG_BUSY = 0 then s
  else fset (fset (if bit w 12 then monCnt s t 7 else s) a Reg.MON_DIAG_BUSY 0) a Reg.MON_DIAG_SAMPLE w

/-- R167: DIAG_CONVERSION. -/
def execDiagConversion (t : Fin 96) (cur : Nat) (recovery : Bool) (s : State) : Host.Outcome State Fault Refusal :=
  done s (diagDone s t cur recovery)

/-- R153, R156: SINGLE of an ADC's pair: one of the two is out. -/
def singleNote (s : State) (a : Nat) : State :=
  fset s (Reg.MON_WATCH (a / 8) (a / 2 % 4)) Reg.MON_WATCH_SINGLE (b2n (!(adcRuns s a && adcRuns s (partner a))))

/-- R163: a write of CAL_ADC_CMD: a run starts, or is refused; an ADC of an unused tile is not calibrated (R37, notes/assumptions/93). -/
def adcCalWrite (s : State) (v : Nat) : State :=
  let c := Reg.CAL_ADC_CMD
  let st := Reg.CAL_ADC_STATUS
  let a := bits v 0 10
  let s1 := fset (fset s c Reg.CAL_ADC_CMD_ADC a) c Reg.CAL_ADC_CMD_ALL (bits v 10 1)
  if !bit v 11 then s1
  else
    let ok := if bit v 10 then (List.range 96).all (fun t => !monOn s1 t) else decide (a < 768) && adcOk s1 (partner a) && tileUsed (fm s1) (a / 8)
    if s1.mon.calRun.isSome ∨ !ok then fset s1 st Reg.CAL_ADC_STATUS_REFUSED 1
    else
      let s2 := fset (fset s1 st Reg.CAL_ADC_STATUS_REFUSED 0) st Reg.CAL_ADC_STATUS_BUSY 1
      let s3 := { s2 with mon := { s2.mon with calRun := some (if bit v 10 then none else some a) } }
      if bit v 10 then s3 else singleNote ((ownInputs s3 a).foldl avgRestart s3) a

/-- R163: the offset (signed, 1/16 LSB) and gain (signed, 2⁻²⁰) that self-calibration accepts. -/
def calFit (off gain : Nat) : Bool := decide ((sext off 12).natAbs ≤ 512) && decide ((sext gain 16).natAbs ≤ 20971)

/-- R163, R164: one ADC's result: offset, gain and six capacitor-weight corrections. -/
def calResult (s : State) (a off gain : Nat) (caps : List Nat) : State :=
  let c := Reg.MON_ADC_CAL (a / 8) (a % 8)
  let st := Reg.CAL_ADC_STATUS
  if calFit off gain then
    fset (fset (fset { s with mon := { s.mon with caps := tset s.mon.caps [] a (caps.take 6) } } c Reg.MON_ADC_CAL_OFFSET off)
      c Reg.MON_ADC_CAL_GAIN gain) c Reg.MON_ADC_CAL_VALID 1
  else
    let s1 := fset (fset s st Reg.CAL_ADC_STATUS_LAST_FAIL a) st Reg.CAL_ADC_STATUS_FAILED (fget s st Reg.CAL_ADC_STATUS_FAILED + 1)
    adcFail s1 a 2

/-- R163: SELF_CALIBRATION_COMPLETE: the results of the ADCs of the run. -/
def selfCalDone (s : State) (res : List (Nat × Nat × Nat × List Nat)) : State :=
  match s.mon.calRun with
  | none => s
  | some run =>
    let st := Reg.CAL_ADC_STATUS
    let mine := res.filter (fun r => adcInCal s r.1)
    let s1 := fset { s with mon := { s.mon with calRun := none } } st Reg.CAL_ADC_STATUS_FAILED 0
    let s2 := mine.foldl (fun s r => calResult s r.1 r.2.1 r.2.2.1 r.2.2.2) s1
    let s3 := fset s2 st Reg.CAL_ADC_STATUS_BUSY 0
    match run with
    | none => fset s3 st Reg.CAL_ADC_STATUS_DONE 1
    | some a => singleNote ((ownInputs s3 a).foldl avgRestart s3) a

/-- R163: SELF_CALIBRATION_COMPLETE. -/
def execSelfCalibrationComplete (res : List (Fin 768 × BitVec 12 × BitVec 16 × List (BitVec 16))) (s : State) :
    Host.Outcome State Fault Refusal :=
  done s (selfCalDone s (res.map (fun r => ((r.1 : Nat), r.2.1.toNat, r.2.2.1.toNat, r.2.2.2.map (·.toNat)))))

end Sys2Proof.Machine
end

