-- ==== Sys2Proof/Machine/CalTab.lean ====
section
/-! DEFINITION. The calibration tables (R229, R230), a cell's phase model (R33 to R35) and the conversion between drive phase and
code (R169 to R171), cell records (R193), parameter snapshots (R194) and hold summaries (R195). -/

namespace Sys2Proof.Machine

/-! ## Calibration entries -/

/-- R230: the address of a cell's active and building entry. -/
def actAt (i : Nat) : Nat := 0x940000 + 0x1000 * (i / 64) + 64 * (i % 64)
def bldAt (i : Nat) : Nat := 0x9A0000 + 0x1000 * (i / 64) + 64 * (i % 64)

/-- R229: CAL of an entry. -/
def calOf (s : State) (a : Nat) : Bool := bit (mbyte s a) 0

/-- R229: φ0 of a cell at a temperature: the measured one with its thermal drift, or the map's. -/
def phi0At (s : State) (i : Nat) (temp : Int) : Int :=
  let a := actAt i
  if calOf s a then
    (mget s (a + 2) 2 : Int) + sext (mget s (a + 0xC) 2) 16 * (temp - sext (mget s (a + 0xE) 2) 16) / 1600
  else cellPhi0 (fm s) i

/-- R35: θ_bar of a cell, and the target phase of a state code. -/
def thetaBar (s : State) (i : Nat) : Nat := if calOf s (actAt i) then mget s (actAt i + 4) 2 else cellBarNom (fm s) i
def thetaOf (s : State) (i code : Nat) : Nat := (thetaBar s i + 32768 * (code % 2)) % 65536

/-- R171, R229, R244: the efficiency in use of an arm, in 1/16 turns16 per mW. -/
def etaUse (s : State) (i arm : Nat) : Nat :=
  match (tget s.hold.cells HCell.init i).held with
  | some p => if arm = 0 then p.1 else p.2
  | none => if calOf s (actAt i) then mget s (actAt i + 6 + 2 * arm) 2 else cellEta (fm s) i arm

/-- R229: KAPPA of a cell's coupling entry j. -/
def kappaOf (s : State) (i j : Nat) : Int :=
  let a := actAt i
  if bit (mbyte s a) 3 && bit (mbyte s a) 0 && decide (j < 8) then sext (mget s (a + 0x20 + 2 * j) 2) 16
  else cplKappa (fm s) (cellCplFirst (fm s) i + j)

/-- R68, R187: the victim's time constant, of the table once the cell is measured. -/
def tauOf (s : State) (i : Nat) : Nat := if calOf s (actAt i) then mget s (actAt i + 0xA) 2 else cellTau (fm s) i

/-- R34: the drive phase of a target: north up to half a turn, south above. -/
def driveFor (s : State) (i code : Nat) (temp : Int) : Int :=
  let d := (thetaOf s i code - phi0At s i temp) % 65536
  if d ≤ 32768 then d else d - 65536

/-! ## Codes -/

/-- R171: the code of |u| in a range, rounded to the nearest integer; R in 0.1 Ω, η in 1/16 turns16 per mW. Not yet limited. -/
def codeRaw (u eta r rng : Nat) : Nat :=
  if eta = 0 ∨ r = 0 then 0
  else (isqrt (4 * 160000 * u * 65536 ^ 2 / (eta * r * fsMA rng ^ 2)) + 1) / 2

/-- R171, R192: |u| of a code, rounded to the nearest integer. -/
def uOfCode (code eta r rng : Nat) : Nat := divRound (eta * r * (code * fsMA rng) ^ 2) (160000 * 65536 ^ 2)

/-- The power of a code in 2^-16 mW. -/
def powOf (s : State) (h rng code : Nat) : Nat := (code * fsMA rng) ^ 2 * rEst s h / (65536 * 10000)

/-- The largest code of a range with at most a power in 2^-16 mW, within VHTR_MAX. -/
def codeUpTo (s : State) (h rng pw : Nat) : Nat :=
  let r := rEst s h
  min (vmaxCode s rng r) (if r = 0 then 65535 else min 65535 (isqrt (pw * 65536 * 10000 / (fsMA rng ^ 2 * r))))

/-! ## Records and parameters -/

/-- What the kernel keeps for a cell. -/
def hcell (s : State) (i : Nat) : HCell := tget s.hold.cells HCell.init i
def setHcell (s : State) (i : Nat) (x : HCell) : State := { s with hold := { s.hold with cells := tset s.hold.cells HCell.init i x } }

/-- R193: the bytes of a cell's record in the data memory of its tile's core. -/
def hr (s : State) (i o n : Nat) : Nat :=
  match coreFor s (i / 64) with
  | some k => dget s k (0x800 + 32 * (i % 64) + o) n
  | none => 0

/-- R193: record bytes written. -/
def hw (s : State) (i o n v : Nat) : State :=
  match coreFor s (i / 64) with
  | some k => dput s k (0x800 + 32 * (i % 64) + o) n v
  | none => s

/-- R193: a saturating counter of a record. -/
def hbump (s : State) (i o n : Nat) : State := hw s i o n (min (hr s i o n + 1) (2 ^ (8 * n) - 1))

/-- R181: MODE of a cell. -/
def modeOf (s : State) (i : Nat) : Nat := hr s i 2 1 % 8
def setMode (s : State) (i m : Nat) : State := hw s i 2 1 (hr s i 2 1 / 8 * 8 + m)
def modeBit (s : State) (i b : Nat) : Bool := bit (hr s i 2 1) b
def setModeBit (s : State) (i b : Nat) (v : Bool) : State := hw s i 2 1 (putBit (hr s i 2 1) b v)

/-- R193: a bit of FLAGS. -/
def flagBit (s : State) (i b : Nat) : Bool := bit (hr s i 3 1) b
def setFlagBit (s : State) (i b : Nat) (v : Bool) : State := hw s i 3 1 (putBit (hr s i 3 1) b v)

/-- R170: the drive phase u of a record, and its ACC and K written. -/
def uOf (s : State) (i : Nat) : Int := (hr s i 0 2 : Int) + 65536 * sext (hr s i 3 1) 2
def putU (s : State) (i : Nat) (u : Int) : State :=
  let s1 := hw s i 0 2 (enc u 16)
  hw s1 i 3 1 (hr s1 i 3 1 / 4 * 4 + enc (u / 65536) 2)

/-- R194: a field of the tile's parameter snapshot. -/
def par (s : State) (t o n : Nat) : Nat := rd s.hold.param (64 * t + o) n
def parFail (s : State) (t : Nat) : Nat := min 368 (par s t 8 2)
def parHmarg (s : State) (t : Nat) : Nat := par s t 6 1
def parTempStep (s : State) (t : Nat) : Nat := par s t 0x1A 2

/-- R225: bytes of a tile's context store written, with the copy that the tile's core holds; inside the store this model lays the
calibration entries at 0 and the parameter block at 0x2040 (notes/assumptions/45). -/
def ctxPut (s : State) (t o : Nat) (src : Tab Byte) (a n : Nat) : State :=
  let s0 := { s with trk := { s.trk with ctx := copyRange src a n s.trk.ctx (2 ^ 14 * t + o) } }
  match coreFor s0 t with
  | some k =>
    let s1 := extAccess s0 k
    { s1 with trk := { s1.trk with dmem := copyRange src a n s1.trk.dmem (65536 * k + 0x8000 + o) } }
  | none => s0

/-- R194: at the first wake after COMMIT changes, the kernel takes the parameter block whole. -/
def snapParams (s : State) (t : Nat) : State :=
  match coreFor s t with
  | some k =>
    if dget s k 0x700 4 = par s t 0 4 then s
    else
      ctxPut { s with hold := { s.hold with param := wr s.hold.param (64 * t) 64 (dget s k 0x700 64) } } t 0x2040 s.trk.dmem (65536 * k + 0x700) 64
  | none => s

/-! ## Hold summaries (R195) -/

/-- R195: an event counter of a tile's summary. -/
def sumBump (s : State) (t o : Nat) : State :=
  let a := 0x932000 + 0x40 * t + o
  mset s a 4 (min (mget s a 4 + 1) 0xFFFFFFFF)

end Sys2Proof.Machine
end

