-- ==== Sys2Proof/Machine/Light.lean ====
section
/-! DEFINITION. Where light runs under the solution in force (R24, R32, R100), currents and windows (R161, R177), and a cell's
measured phase error (R173). Currents are in pA with 96 fractional bits. -/

namespace Sys2Proof.Machine

/-! ## Paths -/

/-- The crossing of a cell's input side on the lines: the line, and the crossings before it in reverse order. -/
def feedOf (ps : List (Nat × List Hop)) (i side : Nat) : Option (Nat × List Hop) :=
  ps.findSome? (fun p =>
    match findIdx1 (fun h => decide (h.1 = i ∧ h.2.1 = side)) p.2 with
    | some j => some (p.1, (p.2.take j).reverse)
    | none => none)

/-! ## Currents -/

/-- The current of an input from its newest measurement, at the gain of that one. -/
def lastCur (s : State) (i : Nat) : Nat := (inpOf s i).lastV * ifsPA (inpOf s i).lastG * one / 4096

/-- R175: the kernel measures an output: the code of its photocurrent at its gain, from the next scan pair or a burst; while the tile's
pairs serve a bell, or in DOZE and NAP (R391), by comparator ranging, whose twelve steps find the same code and leave HI as it was
(notes/assumptions/96). -/
def seeOut (s : State) (i cur : Nat) : State := setInp s i { (inpOf s i) with lastG := gainOf s i, lastV := codeFor s i cur }

/-- R175: both outputs of a cell measured; the exits that ranging produces are cleared. -/
def seeOuts (s : State) (i c0 c1 : Nat) : State :=
  let s1 := seeOut (seeOut s (2 * i) c0) (2 * i + 1) c1
  if fget s (Reg.MON_STATUS (i / 64)) Reg.MON_STATUS_SUSPENDED = 1 ∨ scanStopped s then clearExits s1 i else s1

/-- A current referred to a 0 dB tap (R173), and back to the tap's scale. -/
def refer (cur tap : Nat) : Nat := cur * pow10 (tap * 100) / one
def unrefer (cur tap : Nat) : Nat := cur * one / pow10 (tap * 100)

/-- R173: the referred output current of output `o` of a cell. -/
def outCur (s : State) (i o : Nat) : Nat := refer (lastCur s (2 * i + o)) (cellTap (fm s) i o)

/-- R160: the light of a cell from its last samples, in pA with 96 fractional bits, referred to its output 0 tap. -/
def lightNow (s : State) (i : Nat) : Nat := unrefer (outCur s i 0 + outCur s i 1) (cellTap (fm s) i 0)

/-- R173: the power at a cell's input side: the port light of a first-stage cell, else the referred output that feeds it. -/
def inPower (s : State) (ps : List (Nat × List Hop)) (i side : Nat) : Nat :=
  match feedOf ps i side with
  | some (x, []) =>
    match portOfLine s x with
    | some w => portLightP s w * 10000 * one
    | none => 0
  | some (_, h :: _) => outCur s h.1 h.2.2
  | none => 0

/-! ## Gains and windows -/

/-- R161: the highest gain at which a current lies within three quarters of full scale; 0 if none. -/
def gainFor (cur : Nat) : Nat := ([4, 3, 2, 1].find? (fun g => decide (4 * cur ≤ 3 * ifsPA g * one))).getD 0

/-- R161, R177: the window of a lit or strong output: LO with cos² of the level and the margin, HI with the margin. -/
def strongWin (cur level marg : Nat) : Nat × Nat × Nat :=
  let g := gainFor cur
  let d := ifsPA g * one * 256
  (g, min 4095 (4096 * cur * (one - sinSq level) * (256 - marg) / (d * one)), min 4095 (divUp (4096 * cur * (256 + marg)) d))

/-- R161, R177: the window of a dark or weak output. -/
def weakWin (cur floor : Nat) : Nat × Nat × Nat :=
  let g := gainFor cur
  (g, 0, min 4095 (max (4096 * cur / (ifsPA g * one)) floor))

/-- R174: the window of a balanced output. -/
def balWin (cur marg : Nat) : Nat × Nat × Nat :=
  let g := gainFor cur
  let d := ifsPA g * one * 256
  (g, 4096 * cur * (256 - marg) / d, min 4095 (divUp (4096 * cur * (256 + marg)) d))

/-- R426, R177: the weak output's part of the strong one at an error level: (r + x (1 − r)) / (1 − x (1 − r)), for powers P_w and P_s. -/
def rhoAt (level pw ps : Nat) : Nat :=
  let r := if ps = 0 then 0 else pw * one / ps
  let y := fmul (sinSq level) (one - r)
  if one ≤ y then one else (r + y) * one / (one - y)

/-- R145, R150: a window put into force: gain, thresholds, comparator and wake request on; while a burst holds the gain back, the
thresholds are those of the gain in force. -/
def putWin (s : State) (i : Nat) (w : Nat × Nat × Nat) : State :=
  let s0 := gainAsk s i w.1
  let g := gainOf s0 i
  let s1 := winSet s0 i (rescale w.2.1 (min 4 w.1) g) (if w.2.2 = 4095 then 4095 else rescale w.2.2 (min 4 w.1) g)
  if cellPresent (fm s) (i / 2) ∧ !isRetired s (i / 2) then
    fset (fset s1 (cfgReg i) Reg.MON_IN_CFG_CMP_EN 1) (cfgReg i) Reg.MON_IN_CFG_WAKE_EN 1
  else s1

/-- R167: FLOOR of a tile. -/
def floorOf (s : State) (t : Nat) : Nat := fget s (Reg.MON_THR t) Reg.MON_THR_FLOOR

/-! ## Phase error -/

/-- R173: what a measurement of a cell finds: the strong output, the input powers P_s and P_w, |e|. -/
structure Meas where
  out : Nat
  ps : Nat
  pw : Nat
  err : Nat
  deriving DecidableEq, Repr

/-- R173: a cell measured from its last samples. -/
def measureCell (s : State) (i : Nat) : Meas :=
  let ps := linePaths s (forceVec s)
  let p0 := inPower s ps i 0
  let p1 := inPower s ps i 1
  let side := if p0 < p1 then 1 else 0
  let out := (side + stateNow s i) % 2
  let hi := max p0 p1
  let lo := min p0 p1
  let o_s := outCur s i out
  let o_w := outCur s i (1 - out)
  let den := (o_s + o_w) * (hi - lo)
  let num := o_w * hi - lo * o_s
  { out := out, ps := hi, pw := lo, err := if den = 0 then 0 else asinSqrt (min one (num * one / den)) }

/-- R174: the measured cell is balanced. -/
def balanced (s : State) (t : Nat) (m : Meas) : Bool := decide (par s t 7 1 * m.ps < m.pw * 256)

end Sys2Proof.Machine
end

