-- ==== Sys2Proof/Machine/Hold.lean ====
section
/-! DEFINITION. The hold path of the stock kernel (R169 to R192): when it runs (R180), loads, neighbours, the hold law, embers, ramps,
wraps, records. Cells are global cell indices. -/

namespace Sys2Proof.Machine

/-! ## What the kernel may work on, and when (R180) -/

/-- R232, R240: a cell is under sweep or on a lantern path. -/
def underSweep (s : State) (i : Nat) : Bool := s.cal.sweeps.any (fun e => decide (e.1 = i) || e.2.path.contains i)

/-- R192: a tile's kernel has no cell in SETTLE, ARRIVING or RAMP, and executes no wrap. -/
def kernelQuiet (s : State) (t : Nat) : Bool :=
  (List.range 64).all (fun c =>
    let i := 64 * t + c
    decide (modeOf s i ≠ 2) && decide (modeOf s i ≠ 3) && !modeBit s i 3 && !modeBit s i 4)

/-- R391: whether a tile is out of DOZE and NAP: everywhere in RUN; else where a comparator wake has taken it out, until its core sleeps with
the work of that wake done (notes/assumptions/101). -/
def tileAwake (s : State) (t : Nat) : Bool :=
  decide (fget s Reg.GLB_PSTATE Reg.GLB_PSTATE_STATE < 2) || exitWake s t || !kernelQuiet s t ||
  (match coreFor s t with
    | some k => decide (coreState s k = 2)
    | none => false)

/-- R377, R391: the clock of the core that serves a tile can run: no die shut-down, and the tile out of DOZE and NAP. -/
def tileUp (s : State) (t : Nat) : Bool := !dieShut s && tileAwake s t

/-- R180: the kernel works on a cell: present, not retired, not owned by a bell, not under sweep nor held for a repair fire, its tile's
core running or asleep with its clock at hand. -/
def holdable (s : State) (i : Nat) : Bool :=
  cellUsable s i && !owned s (2 * i) && !owned s (2 * i + 1) && !underSweep s i && !s.cal.stopped.contains i && tileUp s (i / 64) &&
  (match coreFor s (i / 64) with
    | some k => decide (coreState s k = 1 ∨ coreState s k = 2)
    | none => false)

/-- A deadline has passed. -/
def dueAt (s : State) (d : Option Nat) : Bool :=
  match d with
  | some x => decide (x ≤ s.up)
  | none => false

/-- R149: the exits of a cell's inputs that stand. -/
def exitsOf (s : State) (i : Nat) : Nat := bits (rget s (Reg.MON_EXIT (i / 64) (i % 64 / 16))).toNat (2 * (i % 16)) 2

/-- R180: BELL work of a tile is due: a landing check, a retry, or the check of a retry. -/
def bellWork (s : State) (t : Nat) : Bool :=
  s.bel.bells.any (fun b => decide (b.st = 6) && !s.bel.cutOff.contains b.idx && (b.plan.map (fun p => p.tiles.contains t)).getD false &&
    decide ((b.ver.stage = 0 ∧ b.t + 680 ≤ nowNs s) ∨ (b.ver.stage = 1 ∧ b.t + 800 ≤ nowNs s) ∨ (b.ver.stage = 2 ∧ b.t + 960 ≤ nowNs s) ∨
      (b.ver.stage = 4 ∧ b.t + 1680 ≤ nowNs s)))

/-- R180: a cell's exit waits for the kernel. -/
def exitDue (s : State) (i : Nat) : Bool :=
  decide (exitsOf s i ≠ 0) && holdable s i && decide (modeOf s i ≠ 0 ∧ modeOf s i ≠ 6) && !modeBit s i 4
def exitWork (s : State) (t : Nat) : Bool := exitWake s t && (List.range 64).any (fun c => exitDue s (64 * t + c))

/-- R180: a deadline of a cell waits for the kernel. -/
def timerDue (s : State) (i : Nat) : Bool :=
  let x := hcell s i
  holdable s i && (dueAt s x.settleAt || dueAt s (x.signAt.map (·.1)) || dueAt s (x.probeAt.map (·.1)) || dueAt s (x.recAt.map (·.1)) ||
    (decide (modeOf s i = 2) && x.probeAt.isNone && x.arrFrom.isSome && decide (x.arrAt ≤ s.up)) ||
    (decide (modeOf s i = 3) && dueAt s x.rampAt))
def timerWork (s : State) (t : Nat) : Bool := (List.range 64).any (fun c => timerDue s (64 * t + c))

/-- R180: a TEMP wake is due: the tile's temperature has moved by TEMP_STEP since the last one. -/
def tempDue (s : State) (t : Nat) : Bool := decide (max 1 (parTempStep s t) ≤ (picTemp s t - tget s.hold.tempAt 0 t).natAbs)

/-- R180, R211, R221: work of a lower-numbered level, or a hook, comes before level `n` of a tile's kernel; and it does not run without its
clock. -/
def kernelBusy (s : State) (t n : Nat) : Bool :=
  !tileUp s t || (decide (1 < n) && bellWork s t) || (decide (2 < n) && exitWork s t) || (decide (3 < n) && timerWork s t) ||
  (match coreFor s t with
    | some k => hookRuns s k n || (decide (4 < n) && !(coreOf s k).fifo.isEmpty)
    | none => true) || (decide (5 < n) && tempDue s t)

/-- R221: before the kernel sleeps it calls IDLE, where hooks are on and no level is pending (notes/assumptions/107). -/
def kernelRest (s : State) (t n : Nat) : State :=
  match coreFor s t with
  | some k => if hooksOn s k ∧ pendOf s k = 0 ∧ (coreOf s k).work = [] then hookCall s k n 0x6010 2000 .idle else s
  | none => s

/-- R180, R194: a wake of level `n` served by a tile's kernel: in its turn, from a snapshot of the parameters. -/
def kernelRun (s : State) (t n : Nat) (f : State → State) : State :=
  if kernelBusy s t n then s else kernelRest (f (snapParams s t)) t n

/-- R180, R194: a BELL wake of a tile. -/
def bellWake (s : State) (t : Nat) : State := wakeTile (snapParams s t) t 1

/-! ## Flags and maps (R188, R190, R196) -/

/-- R190: |u| lies beyond what an arm may be driven to: ±81,920, or the largest code of HI. -/
def driveOver (s : State) (i : Nat) (u : Int) : Bool :=
  let h := 2 * i + (if u < 0 then 1 else 0)
  decide (81920 < u.natAbs) || decide (vmaxCode s 1 (rEst s h) < codeRaw u.natAbs (etaUse s i (h % 2)) (rEst s h) 1)

/-- R188, R190, R196: WRAP_PEND and WARN of a cell follow its drive phase, in the record and in the maps. -/
def noteDrive (s : State) (i : Nat) : State :=
  let k := sext (hr s i 3 1) 2
  let pend := decide (k = 1 ∨ k = -2 ∨ (hcell s i).carry ≠ 0)
  let warn := decide (par s (i / 64) 0x1C 4 ≤ (uOf s i).natAbs)
  let s1 := setFlagBit (setFlagBit s i 2 pend) i 7 warn
  let s2 := mset s1 (0x934000 + i / 8) 1 (putBit (mbyte s1 (0x934000 + i / 8)) (i % 8) pend)
  let old := bit (mbyte s2 (0x934300 + i / 8)) (i % 8)
  let s3 := mset s2 (0x934300 + i / 8) 1 (putBit (mbyte s2 (0x934300 + i / 8)) (i % 8) warn)
  if old = warn then s3 else portWarns s3

/-- R170, R172, R190: Δu added to the accumulator: K follows a carry, but not under clamp, where the carries are kept beside it; a change
of K between 0 and −1 is a hand-over; CLAMP follows the command, and stays set while a carry is open (notes/assumptions/118). -/
def addU (s : State) (i : Nat) (du : Int) : State :=
  let x := hcell s i
  let k := sext (hr s i 3 1) 2
  let tot := uOf s i + 65536 * x.carry + du
  let k' := if flagBit s i 3 then k else max (-2) (min 1 (tot / 65536))
  let c := tot / 65536 - k'
  let s1 := setHcell (putU s i (tot % 65536 + 65536 * k')) i { x with carry := c }
  let s2 := setFlagBit s1 i 3 (driveOver s1 i (uOf s1 i) || decide (c ≠ 0))
  let s3 := if decide (k < 0) = decide (k' < 0) then s2 else sumBump (hbump s2 i 0x1E 1) (i / 64) 0x1C
  noteDrive s3 i

/-- R181, R192: a record takes a drive phase over, with K recomputed. -/
def takeDrive (s : State) (i : Nat) (u : Int) : State :=
  let s1 := putU (setHcell s i { (hcell s i) with carry := 0 }) i u
  noteDrive (setFlagBit s1 i 3 (driveOver s1 i u)) i

/-! ## Drives and loads (R169 to R172, R190) -/

/-- R190: the drive phase that the record commands: the limit while a carry under clamp is open. -/
def driveU (s : State) (i : Nat) : Int :=
  let u := uOf s i
  if (hcell s i).carry = 0 then u else if u < 0 then -81920 else 81920

/-- R169: the part of a drive phase that an arm carries. -/
def armU (arm : Nat) (u : Int) : Nat := if (if arm = 0 then 0 < u else u < 0) then u.natAbs else 0

/-- R133: the range that the kernel uses for a code: LO below 0xF000, back from HI below 0x7000. -/
def rangeFor (s : State) (h u eta : Nat) : Nat :=
  if chRange s h = 0 then b2n (decide (0xF000 ≤ codeRaw u eta (rEst s h) 0))
  else b2n (decide (0x7000 ≤ codeRaw u eta (rEst s h) 1))

/-- R171: the code of an arm for |u| in a range, limited to the ceiling, to ±81,920 and to CODE_VMAX. -/
def armCodeIn (s : State) (i arm u g : Nat) : Nat :=
  let h := 2 * i + arm
  min (codeRaw (min u 81920) (etaUse s i arm) (rEst s h) g) (if g = chRange s h then codeVmax s h else vmaxCode s g (rEst s h))

/-- R171, R172: the pending registers of both arms of a cell for a drive phase: where `conv`, the CONVERT of a range change that R133 asks
for, else the codes in the ranges in force. -/
def pendDriveAt (s : State) (i : Nat) (u : Int) (conv : Bool) : State :=
  [0, 1].foldl (fun s arm =>
    let h := 2 * i + arm
    let v := armU arm u
    let g := rangeFor s h v (etaUse s i arm)
    if conv then (if g = chRange s h then s else pendCore s h (65536 * g + 131072))
    else pendCore s h (armCodeIn s i arm v (chRange s h) + 65536 * chRange s h)) s

/-- R133: a load of a cell needs a range change first. -/
def needsRange (s : State) (i : Nat) (u : Int) : Bool :=
  [0, 1].any (fun arm => decide (rangeFor s (2 * i + arm) (armU arm u) (etaUse s i arm) ≠ chRange s (2 * i + arm)))

/-- R178: a load of a cell in SETTLE starts its SETTLE time anew. -/
def settleAgain (s : State) (i : Nat) : State :=
  let x := hcell s i
  if x.settleAt.isSome ∧ modeBit s i 3 then setHcell s i { x with settleAt := some (s.up + 20 * par s (i / 64) 0xC 2) } else s

/-- R123, R133, R171: the cells of a tile loaded: range conversions first where any is due, then the codes. -/
def loadCells (s : State) (t : Nat) (cells : List Nat) : State :=
  let s1 := if cells.any (fun i => needsRange s i (driveU s i)) then
      loadCore (cells.foldl (fun s i => pendDriveAt s i (driveU s i) true) s) t
    else s
  cells.foldl settleAgain (loadCore (cells.foldl (fun s i => pendDriveAt s i (driveU s i) false) s1) t)

/-- R183: the codes of a cell differ from those that it is driven to. -/
def codesMove (s : State) (i : Nat) : Bool :=
  needsRange s i (driveU s i) || [0, 1].any (fun arm =>
    let h := 2 * i + arm
    decide (armCodeIn s i arm (armU arm (driveU s i)) (chRange s h) ≠ (if slewing s h then (chanOf s h).target else codeOf s h)))

/-! ## Neighbours (R189, R218) -/

/-- R218: a neighbour message sent: to a tile that is not adjacent it is dropped. -/
def sendMsg (s : State) (t tile cell : Nat) (du : Nat) : State :=
  let s1 := sumBump s t 0x28
  if (tileAdj (fm s) t).contains tile then
    { s1 with trk := { s1.trk with msgs := s1.trk.msgs ++ [Msg.mk s.up t tile cell du] } }
  else sumBump s1 t 0x2C

/-- R189: the cells of which a channel disturbs a coupling entry: victim, entry number. -/
def victimsOf (s : State) (h : Nat) : List (Nat × Nat) :=
  (List.range 6144).flatMap (fun v =>
    if cellPresent (fm s) v then
      ((List.range (cellCplN (fm s) v)).filter (fun j => decide (cplAggr (fm s) (cellCplFirst (fm s) v + j) = h))).map (fun j => (v, j))
    else [])

/-- R189: a cell that takes no neighbour correction: OFF, or owned by a bell. -/
def skipVictim (s : State) (v : Nat) : Bool := decide (modeOf s v = 0 ∨ modeOf s v = 6) || owned s (2 * v) || owned s (2 * v + 1)

/-- R189: a power change of a channel by `dp` in 2^-16 mW: neighbour sums, and the victims whose sum has reached NB_MIN; the victims
of the same tile that take a correction are listed, the others get a message. A victim under sweep or held for a repair fire only
gathers its sum. -/
def disturb (s : State) (h : Nat) (dp : Int) : State × List Nat :=
  let t := h / 128
  (victimsOf s h).foldl (fun (acc : State × List Nat) vj =>
    let s := acc.1
    let v := vj.1
    if skipVictim s v then acc
    else
      let sum := (hcell s v).nb + kappaOf s v vj.2 * dp / 16
      if sum.natAbs < par s t 0x14 2 * 65536 ∨ underSweep s v ∨ s.cal.stopped.contains v then
        (setHcell s v { (hcell s v) with nb := sum }, acc.2)
      else
        let s1 := setHcell s v { (hcell s v) with nb := 0 }
        let du := -(sum / 65536)
        if v / 64 = t then (addU s1 v du, acc.2 ++ [v])
        else (sendMsg s1 t (v / 64) (v % 64) (enc du 24), acc.2)) (s, [])

/-- R171, R190: the power of a cell's arm for a drive phase, in 2^-16 mW: that of the limit where the drive is held there. -/
def armPower (s : State) (i arm : Nat) (u : Int) : Int :=
  let v := armU arm u
  let eta := etaUse s i arm
  let top := vmaxCode s 1 (rEst s (2 * i + arm))
  if top < codeRaw (min v 81920) eta (rEst s (2 * i + arm)) 1 then powOf s (2 * i + arm) 1 top else (min v 81920 : Nat) * 16 * 65536 / (max 1 eta : Nat)

/-- R172, R178, R189: a cell's drive changed by Δu and loaded with its same-tile victims. -/
def moveCell (s : State) (i : Nat) (du : Int) : State :=
  let u := driveU s i
  let s1 := addU s i du
  let v := driveU s1 i
  let d0 := disturb s1 (2 * i) (armPower s1 i 0 v - armPower s1 i 0 u)
  let d1 := disturb d0.1 (2 * i + 1) (armPower s1 i 1 v - armPower s1 i 1 u)
  loadCells d1.1 (i / 64) (i :: (d0.2 ++ d1.2).eraseDups)

/-! ## Windows -/

/-- R176: the band of a cell in turns16; the first 16 wakes of a record use code 7 (R191). -/
def bandOf (s : State) (i : Nat) : Nat :=
  let b := if hr s i 7 1 ≤ 16 then 7 else if hr s i 8 1 = 0xFF then par s (i / 64) 4 1 else hr s i 8 1
  [32, 64, 96, 128, 160, 192, 256, 320].getD (b % 8) 320

/-- R173, R193: RATIO of a record. -/
def putRatio (s : State) (i : Nat) (m : Meas) : State := hw s i 0x17 1 (if m.ps = 0 then 0 else min 255 (m.pw * 256 / m.ps))

/-- R177: the windows of a cell re-centred at an error level, from a measurement. -/
def recentre (s : State) (i level : Nat) (m : Meas) : State :=
  let t := i / 64
  let cs := lastCur s (2 * i + m.out)
  let os := outCur s i m.out
  let rho := rhoAt level m.pw m.ps
  let s1 := putWin s (2 * i + m.out) (strongWin cs level (parHmarg s t))
  let s2 := putWin s1 (2 * i + 1 - m.out) (weakWin (unrefer (fmul os rho) (cellTap (fm s) i (1 - m.out))) (floorOf s t))
  putRatio (hw s2 i 0x14 3 (min (os / (10000 * one)) (2 ^ 24 - 1))) i m

/-- R160: the ember windows of a cell: [0, code of PRESENT / 2] on each output. -/
def emberWindows (s : State) (i : Nat) : State :=
  let half := presentPA s (i / 64) * one / 2
  let put (s : State) (o : Nat) : State :=
    let cur := unrefer (refer half (cellTap (fm s) i 0)) (cellTap (fm s) i o)
    let g := gainFor cur
    putWin s (2 * i + o) (g, 0, min 4095 (4096 * cur / (ifsPA g * one)))
  put (put s 0) 1

/-- The deadlines of the hold work on a cell dropped. -/
def dropDeadlines (s : State) (i : Nat) : State :=
  setModeBit (setHcell s i { (hcell s i) with settleAt := none, signAt := none, probeAt := none, recAt := none, arrFrom := none, rampAt := none })
    i 3 false

/-- R180: hold work on a cell that a bell comes to own is abandoned; an arrival or ramp goes on from its next step (notes/assumptions/105). -/
def abandonHold (s : State) (i : Nat) : State :=
  setModeBit (setHcell s i { (hcell s i) with settleAt := none, signAt := none, probeAt := none, recAt := none }) i 3 false

/-- R182, R183: U_REF and T_REF take the present drive and temperature. -/
def setRefs (s : State) (i : Nat) : State := hw (hw s i 0xC 4 (enc (uOf s i) 18)) i 0x10 2 (enc (picTemp s (i / 64)) 16)

/-- R182: a cell enters EMBER with its present drive. -/
def toEmber (s : State) (i : Nat) : State :=
  let s1 := dropDeadlines (setRefs (setMode s i 1) i) i
  emberWindows (setHcell s1 i { (hcell s1 i) with loN := 0, hiN := 0 }) i

/-- R174: a balanced cell: open loop from its present u, windows at its present codes. -/
def toBalanced (s : State) (i : Nat) (m : Meas) : State :=
  let s1 := if modeOf s i = 5 then s else setRefs (setMode s i 5) i
  [0, 1].foldl (fun s o => putWin s (2 * i + o) (balWin (lastCur s (2 * i + o)) (parHmarg s (i / 64)))) (putRatio (dropDeadlines s1 i) i m)

/-! ## The hold law (R175, R178, R179) -/

/-- R178: G of a cell; 0 of the tile acts as 1. -/
def gainG (s : State) (i : Nat) : Nat := if hr s i 9 1 = 0 then max 1 (par s (i / 64) 5 1) else hr s i 9 1

/-- R184: S of a cell. -/
def setPoint (s : State) (i : Nat) : Int := if modeOf s i = 3 then sext (hr s i 4 2) 16 else 0

/-- R175: the sign from temperature, or from memory; none asks for a probe. -/
def knownSign (s : State) (i : Nat) : Option Int :=
  let t := i / 64
  let d := picTemp s t - (hcell s i).tLast
  let tc := sext (mget s (actAt i + 0xC) 2) 16
  if calOf s (actAt i) ∧ tc ≠ 0 ∧ parTempStep s t ≤ d.natAbs then some (if 0 < tc * d then 1 else -1)
  else if flagBit s i 5 then some (if flagBit s i 4 then -1 else 1)
  else none

/-- The weak output's current. -/
def weakCur (s : State) (i : Nat) (m : Meas) : Nat := lastCur s (2 * i + 1 - m.out)

/-- R193, R195: a measured error: E_LAST with its sign, and E_MAX of the tile. -/
def noteErr (s : State) (i err : Nat) (sg : Int) : State :=
  let t := i / 64
  let s1 := hw s i 0xA 2 (enc (sg * err) 16)
  let e := tget s1.hold.eMax (0, 0) t
  if e.1 < err then { s1 with hold := { s1.hold with eMax := tset s1.hold.eMax (0, 0) t (err, i % 64) } } else s1

/-- R178, R179: the LOAD of a correction: Δu, windows at FAIL_E, SETTLE and the deadlines. -/
def applyCorr (s : State) (c : Corr) (du : Int) : State :=
  let i := c.cell
  let t := i / 64
  let m : Meas := ⟨c.out, c.ps, c.pw, c.err⟩
  let s1 := moveCell (sumBump (hbump s i 0x1A 2) t 0x14) i du
  let s2 := setFlagBit (setFlagBit s1 i 4 (decide (c.sg < 0))) i 5 true
  let s3 := recentre (setModeBit s2 i 3 true) i (parFail s2 t) m
  setHcell s3 i { (hcell s3 i) with
    settleAt := some (s3.up + 20 * par s3 t 0xC 2), signAt := some (s3.up + 20 * par s3 t 0x10 2, c.weak, du), probeAt := none,
    recAt := if parFail s3 t < c.err then some (s3.up + 20 * min 150 (par s3 t 0xE 2), c.err) else none, tLast := picTemp s3 t }

/-- R180, R221: a hook ends: the stock kernel goes on, but not with a cell that it has lost meanwhile; it takes a rewritten Δu, held to
±FAIL_E, unless the hook ended by a fault (R222). -/
def hookDone (s : State) (k : Nat) (w : HookWork) (ok : Bool) : State :=
  match w with
  | .post c =>
    let f : Int := parFail s (c.cell / 64)
    if holdable s c.cell then applyCorr s c (if ok then max (-f) (min f (sext (dget s k 0x688 4) 32)) else c.du) else s
  | .idle => s
  | .telem => s

/-- R178, R221: a correction of |e − S| = `mag` with a known sign, at level `lvl`: WAKE_POST may rewrite Δu before its LOAD. -/
def correct (s : State) (i : Nat) (m : Meas) (sg : Int) (mag lvl : Nat) : State :=
  let du : Int := -sg * ((mag * gainG s i / 256 : Nat) : Int)
  let c : Corr := ⟨i, m.out, m.ps, m.pw, m.err, sg, du, weakCur s i m⟩
  match coreFor s (i / 64) with
  | some k =>
    if hooksOn s k then
      hookCall (dput (dput (dput s k 0x680 4 (i % 64)) k 0x684 4 m.err) k 0x688 4 (enc du 32)) k lvl 0x6000 200 (.post c)
    else applyCorr s c du
  | none => s

/-- R175: a probe: PROBE added to u, and the weak output measured PROBE_WAIT later. -/
def probe (s : State) (i : Nat) (m : Meas) : State :=
  let t := i / 64
  let weak := weakCur s i m
  let s1 := moveCell (sumBump s t 0x30) i (par s t 0xA 2)
  setHcell s1 i { (hcell s1 i) with probeAt := some (s1.up + 20 * par s1 t 0x12 2, weak, m.err) }

/-- R178: the law acts on a signed error e − S. -/
def act (s : State) (i : Nat) (m : Meas) (sg : Int) (lvl : Nat) : State :=
  let d := sg * m.err - setPoint s i
  if d.natAbs ≤ bandOf s i then
    let s1 := recentre (setModeBit s i 3 false) i (bandOf s i) m
    setHcell s1 i { (hcell s1 i) with settleAt := none }
  else correct s i m (if 0 ≤ d then 1 else -1) d.natAbs lvl

/-- R178: a measurement handled as a HOLD wake: dark twice in a row, balanced, within the band, or corrected. -/
def holdLaw (s : State) (i lvl : Nat) : State :=
  let t := i / 64
  if lightNow s i < absentPA s t * one then
    if 1 ≤ (hcell s i).loN then toEmber s i else setHcell s i { (hcell s i) with loN := 1 }
  else
    let m := measureCell s i
    let s0 := setHcell s i { (hcell s i) with loN := 0 }
    if balanced s0 t m then toBalanced s0 i m
    else
      let s1 := noteErr s0 i m.err (if flagBit s0 i 4 then -1 else 1)
      let s2 := if modeOf s1 i = 5 then setMode s1 i 4 else s1
      if setPoint s2 i = 0 ∧ m.err ≤ bandOf s2 i then act s2 i m 1 lvl
      else match knownSign s2 i with
        | some sg => act (hw s2 i 0xA 2 (enc (sg * m.err) 16)) i m sg lvl
        | none => probe s2 i m

/-- R174: a balanced cell whose r has fallen to RBAL goes back to closed loop, on a wake of any kind. -/
def rebalance (s : State) (i lvl : Nat) : State :=
  if modeOf s i = 5 ∧ !balanced s (i / 64) (measureCell s i) then holdLaw s i lvl else s

/-- R184: an ember cell starts ARRIVING. -/
def startArriving (s : State) (i : Nat) : State :=
  let s1 := setMode s i 2
  setHcell s1 i { (hcell s1 i) with arrFrom := some s1.up, arrAt := s1.up + 1000, hiN := 0, loN := 0 }

/-- R193, R195: a hold wake counts. -/
def countWake (s : State) (i : Nat) : State := sumBump (hbump (hbump s i 7 1) i 0x18 2) (i / 64) 0x10

/-- R148, R150: the new windows' hold passes, and STATE follows the measured currents. -/
def windowsSettle (s : State) (i c0 c1 : Nat) : State :=
  [(2 * i, c0), (2 * i + 1, c1)].foldl (fun s x =>
    if cmpOn s x.1 then fset (setInp s x.1 { (inpOf s x.1) with holdEnd := none, exitWait := false }) (winReg x.1) Reg.MON_IN_WIN_STATE (winState s x.1 x.2)
    else s) s

/-- R178, R184, R174: a wake on an exit of a cell, with the photocurrents measured at its outputs; the exits are cleared under the new
windows. -/
def holdWake (s : State) (i c0 c1 : Nat) : State :=
  if !exitDue s i then s
  else kernelRun s (i / 64) 2 (fun s =>
    let s2 := seeOuts (countWake s i) i c0 c1
    let s3 := if modeOf s2 i = 1 then startArriving s2 i else if modeOf s2 i = 2 then s2 else holdLaw s2 i 2
    clearExits (windowsSettle s3 i c0 c1) i)

/-- R178: HOLD_WAKE. -/
def execHoldWake (t : Fin 96) (c : Fin 64) (c0 c1 : Nat) (s : State) : Host.Outcome State Fault Refusal :=
  done s (holdWake s (64 * t + c) c0 c1)

/-- R178: SETTLE after the last load, the cell is measured again, as on a HOLD wake. -/
def settleDue (s : State) (i c0 c1 : Nat) : State :=
  if holdable s i && dueAt s (hcell s i).settleAt then
    kernelRun s (i / 64) 3 (fun s =>
      let s1 := seeOuts (countWake s i) i c0 c1
      holdLaw (setModeBit (setHcell s1 i { (hcell s1 i) with settleAt := none }) i 3 false) i 3)
  else s

/-- R178: SETTLE. -/
def execSettle (t : Fin 96) (c : Fin 64) (c0 c1 : Nat) (s : State) : Host.Outcome State Fault Refusal :=
  done s (settleDue s (64 * t + c) c0 c1)

/-- R175: one code of an output at its gain. -/
def oneCode (s : State) (i : Nat) : Nat := ifsPA (gainOf s i) * one / 4096

/-- R175: the sign check: a weak output that has risen by a code reverses the correction. -/
def signCheck (s : State) (i c0 c1 : Nat) : State :=
  match (hcell s i).signAt with
  | some (d, w, du) =>
    if !holdable s i ∨ s.up < d then s
    else kernelRun s (i / 64) 3 (fun s =>
      let s0 := seeOuts s i c0 c1
      let m := measureCell s0 i
      let s1 := setHcell s0 i { (hcell s0 i) with signAt := none }
      if w + oneCode s1 (2 * i + 1 - m.out) ≤ weakCur s1 i m then
        let s2 := moveCell (sumBump (hbump s1 i 0x1C 1) (i / 64) 0x18) i (-2 * du)
        setFlagBit s2 i 4 (!flagBit s2 i 4)
      else s1)
  | none => s

/-- R175: SIGNCHK. -/
def execSignchk (t : Fin 96) (c : Fin 64) (c0 c1 : Nat) (s : State) : Host.Outcome State Fault Refusal :=
  done s (signCheck s (64 * t + c) c0 c1)

/-- R184: RAMP_N, RAMP_INT in ns. -/
def rampSteps (s : State) (t : Nat) : Nat := max 1 (par s t 0x16 1)
def rampNs (s : State) (t : Nat) : Nat := 1000 * max 1 (par s t 0x17 1)

/-- R184: an arriving cell whose sign is known enters RAMP with S = e_0. -/
def toRamp (s : State) (i : Nat) (m : Meas) (sg : Int) : State :=
  let t := i / 64
  let s1 := hw (hw (setMode s i 3) i 4 2 (enc (sg * m.err) 16)) i 6 1 (rampSteps s t)
  let s2 := setFlagBit (setFlagBit (noteErr s1 i m.err sg) i 4 (decide (sg < 0))) i 5 true
  let s3 := setHcell s2 i { (hcell s2 i) with arrFrom := none, rampAt := some (s2.up + rampNs s2 t), rampN := rampSteps s2 t, tLast := picTemp s2 t }
  recentre s3 i (parFail s3 t) m

/-- R175: PROBE_WAIT after a probe the sign of the error is resolved. -/
def probeDue (s : State) (i c0 c1 : Nat) : State :=
  match (hcell s i).probeAt with
  | some (d, w, e) =>
    if !holdable s i ∨ s.up < d then s
    else kernelRun s (i / 64) 3 (fun s =>
      let s0 := seeOuts s i c0 c1
      let m := measureCell s0 i
      let sg : Int := if weakCur s0 i m < w then -1 else 1
      let s1 := setHcell s0 i { (hcell s0 i) with probeAt := none }
      if modeOf s1 i = 2 then toRamp s1 i { m with err := e } sg
      else act (hw s1 i 0xA 2 (enc (sg * e) 16)) i { m with err := e } sg 3)
  | none => s

/-- R175: PROBE_WAIT. -/
def execProbeWait (t : Fin 96) (c : Fin 64) (c0 c1 : Nat) (s : State) : Host.Outcome State Fault Refusal :=
  done s (probeDue s (64 * t + c) c0 c1)

/-- R179, R188: RECOVER after the load, the weak window's HI is set at the recovery level, and STATE above it retires the cell. -/
def recoverDue (s : State) (i c0 c1 : Nat) : State :=
  match (hcell s i).recAt with
  | some (d, e0) =>
    if !holdable s i ∨ s.up < d then s
    else kernelRun s (i / 64) 3 (fun s =>
      let t := i / 64
      let s0 := seeOuts s i c0 c1
      let m := measureCell s0 i
      let level := max (parFail s0 t) (divUp (3 * e0) 4)
      let j := 2 * i + 1 - m.out
      let w := weakWin (unrefer (fmul (outCur s0 i m.out) (rhoAt level m.pw m.ps)) (cellTap (fm s0) i (1 - m.out))) (floorOf s0 t)
      let s1 := putWin (setHcell s0 i { (hcell s0 i) with recAt := none }) j w
      if winState s1 j (if j % 2 = 0 then c0 else c1) = 2 then
        let s2 := sumBump s1 t 0x24
        if flagBit s2 i 3 then retireAsk (report s2 (srcDrv t) 0x1B i (enc (uOf s2 i) 32)) i 5
        else retireAsk (report s2 (srcDrv t) 0x1A i e0) i 4
      else s1)
  | none => s

/-- R179: RECOVER. -/
def execRecover (t : Fin 96) (c : Fin 64) (c0 c1 : Nat) (s : State) : Host.Outcome State Fault Refusal :=
  done s (recoverDue s (64 * t + c) c0 c1)

/-! ## Arrival, ramp, temperature (R182 to R184) -/

/-- R184: the light of an arriving cell, each microsecond. -/
def arriveStep (s : State) (i c0 c1 : Nat) : State :=
  let x := hcell s i
  if !holdable s i ∨ modeOf s i ≠ 2 ∨ x.arrFrom.isNone ∨ s.up < x.arrAt ∨ x.probeAt.isSome then s
  else kernelRun s (i / 64) 3 (fun s0 =>
    let s := seeOuts s0 i c0 c1
    let l := lightNow s i
    let t := i / 64
    let hi := if presentPA s t * one ≤ l then x.hiN + 1 else 0
    let lo := if l < absentPA s t * one then x.loN + 1 else 0
    let s1 := setHcell s i { x with arrAt := s.up + 1000, hiN := hi, loN := lo }
    if 2 ≤ lo then toEmber s1 i
    else if 2 ≤ hi then
      let m := measureCell s1 i
      if balanced s1 t m then toBalanced s1 i m
      else match knownSign s1 i with
        | some sg => toRamp s1 i m sg
        | none => probe s1 i m
    else s1)

/-- R184: ARRIVING. -/
def execArriving (t : Fin 96) (c : Fin 64) (c0 c1 : Nat) (s : State) : Host.Outcome State Fault Refusal :=
  done s (arriveStep s (64 * t + c) c0 c1)

/-- R184: ARRIVE_MAX passes. -/
def arriveMaxDue (s : State) (i : Nat) : State :=
  match (hcell s i).arrFrom with
  | some f =>
    if holdable s i ∧ modeOf s i = 2 ∧ f + 1000 * par s (i / 64) 0x18 2 ≤ s.up then kernelRun s (i / 64) 3 (fun s => toEmber s i) else s
  | none => s

/-- R184: ARRIVE_MAX. -/
def execArriveMax (t : Fin 96) (c : Fin 64) (s : State) : Host.Outcome State Fault Refusal := done s (arriveMaxDue s (64 * t + c))

/-- R184, R190: one ramp step: S moves toward 0 over the steps left, a changed RAMP_N counting anew, and the law acts on e − S; at S = 0
the cell is in HOLD. -/
def rampDue (s : State) (i c0 c1 : Nat) : State :=
  if !holdable s i ∨ modeOf s i ≠ 3 ∨ !dueAt s (hcell s i).rampAt then s
  else kernelRun s (i / 64) 3 (fun s =>
    let t := i / 64
    let s0 := seeOuts s i c0 c1
    let n := rampSteps s0 t
    let sp := sext (hr s0 i 4 2) 16
    let left := if (hcell s0 i).rampN = n then max 1 (hr s0 i 6 1) else n
    let stp := min sp.natAbs (divUp sp.natAbs left)
    let sp' := if 0 ≤ sp then sp - stp else sp + stp
    let s1 := hw (hw s0 i 4 2 (enc sp' 16)) i 6 1 (left - 1)
    let fin := decide (sp' = 0)
    let s2 := setHcell (if fin then setMode s1 i 4 else s1) i
      { (hcell s1 i) with rampAt := if fin then none else some (s1.up + rampNs s1 t), rampN := n }
    holdLaw s2 i 3)

/-- R184: RAMP_STEP. -/
def execRampStep (t : Fin 96) (c : Fin 64) (c0 c1 : Nat) (s : State) : Host.Outcome State Fault Refusal :=
  done s (rampDue s (64 * t + c) c0 c1)

/-- R183: the drive of an ember or balanced cell at a temperature. -/
def emberU (s : State) (i : Nat) (temp : Int) : Int :=
  let tc := if calOf s (actAt i) then sext (mget s (actAt i + 0xC) 2) 16 else sext (par s (i / 64) 0x20 2) 16
  sext (hr s i 0xC 4) 18 - tc * (temp - sext (hr s i 0x10 2) 16) / 1600

/-- R174, R183: a TEMP wake of a cell: a balanced one is judged again, and the code of an ember or balanced one is recomputed and loaded
where it changes. -/
def tempCell (s0 : State) (i : Nat) : State :=
  let s := rebalance s0 i 5
  if modeOf s i = 1 ∨ modeOf s i = 5 then
    let d := emberU s i (picTemp s (i / 64)) - (uOf s i + 65536 * (hcell s i).carry)
    if d ≠ 0 then moveCell s i d else if codesMove s i then loadCells s (i / 64) [i] else s
  else s

/-- R183: the ember and balanced cells of a tile at the present temperature. -/
def tempCells (s : State) (t : Nat) : State :=
  (List.range 64).foldl (fun s c => if holdable s (64 * t + c) ∧ !modeBit s (64 * t + c) 4 then tempCell s (64 * t + c) else s) s

/-- R180, R183: a TEMP wake: the tile's temperature has moved by TEMP_STEP since the last one. -/
def tempWake (s : State) (t : Nat) : State :=
  if !tempDue s t then s
  else kernelRun s t 5 (fun s =>
    let s1 := tempCells { s with hold := { s.hold with tempAt := tset s.hold.tempAt 0 t (picTemp s t) } } t
    match coreFor s1 t with
    | some k => servedLevel s1 k 5
    | none => s1)

/-- R183: TEMP. -/
def execTemp (t : Fin 96) (s : State) : Host.Outcome State Fault Refusal := done s (tempWake s t)

/-! ## Wraps (R186, R187) -/

/-- R86, R186: a span in which every circuit through the cell is in recess, whose end lies at least `need` ns away. -/
def inRecess (s : State) (i need : Nat) : Bool :=
  let ws := circuitsThrough s (forceVec s) s.bel.forceChart i
  let spans := s.bel.openSpans.filter (fun x => x.2.begun && !x.2.ended)
  !ws.isEmpty && !spans.isEmpty && ws.all (fun w => spans.any (fun bx =>
    bit bx.2.mask.toNat w &&
    decide (nowNs s + need ≤ (match nextAfter s (nowNs s) with
      | some n => min (bx.1 + bx.2.ofs + bx.2.len) (n.t - 2000)
      | none => bx.1 + bx.2.ofs + bx.2.len))))

/-- R187: wraps running in a tile. -/
def wrapsIn (s : State) (t : Nat) : Nat := ((List.range 64).filter (fun c => modeBit s (64 * t + c) 4)).length

/-- R186, R190: the drive phase after a wrap: one turn nearer 0; where a carry under clamp is open, the phase that the record holds
(notes/assumptions/118). -/
def wrapTarget (s : State) (i : Nat) : Int :=
  let u := uOf s i
  if 65536 ≤ u then u - 65536 else if u < -65536 then u + 65536 else u

/-- R130: the code that a slew from `a` to `b` has reached after `ns`, and how long it takes. -/
def slewStepSize (s : State) (t : Nat) : Nat := fget s (Reg.DRV_SLEW t) Reg.DRV_SLEW_STEP + 1
def slewTickNs (s : State) (t : Nat) : Nat := 20 * (fget s (Reg.DRV_SLEW t) Reg.DRV_SLEW_INTERVAL + 1)
def slewAt (s : State) (t a b ns : Nat) : Nat :=
  let n := slewStepSize s t * (ns / slewTickNs s t)
  if a ≤ b then min b (a + n) else max b (a - n)
def slewNs (s : State) (t a b : Nat) : Nat := slewTickNs s t * divUp (if a ≤ b then b - a else a - b) (slewStepSize s t)

/-- R187: the power steps of an arm at 64 instants of 250 ns, in a range, while it slews from one phase to another, in 2^-16 mW. -/
def armPath (s : State) (i arm g v0 v1 : Nat) : List Int :=
  let h := 2 * i + arm
  let a := armCodeIn s i arm v0 g
  let b := armCodeIn s i arm v1 g
  (List.range 64).map (fun k => (powOf s h g (slewAt s (i / 64) a b (250 * k)) : Int) - powOf s h g a)

/-- R187, R233: the lit victims outside the recess of a cell's two channels: arm, victim, coupling entry. -/
def stepVictims (s : State) (i : Nat) : List (Nat × Nat × Nat) :=
  [0, 1].flatMap (fun arm => ((victimsOf s (2 * i + arm)).filter (fun v =>
    decide (v.1 ≠ i) && lightOf s v.1 && !inRecess s v.1 0 && !skipVictim s v.1)).map (fun v => (arm, v.1, v.2)))

/-- R187: the counter-load of a victim in turns16 while a cell goes from one drive phase to another: the steady phase that its power step
gives, taken back. -/
def stepCounter (s : State) (i : Nat) (u0 u1 : Int) (v : Nat) : Int :=
  let sum := (((stepVictims s i).filter (fun x => decide (x.2.1 = v))).map (fun x =>
    kappaOf s v x.2.2 * (armPower s i x.1 u1 - armPower s i x.1 u0))).foldl (· + ·) 0
  (-sum) / 2 ^ 20

/-- R187, R233: a victim's excursion predicted with KAPPA, TAU_C and its own lag stays within BEL_LAND.EXCUR, with the stepping cell's arms
in the ranges `rng`. -/
def stepHolds (s : State) (i : Nat) (rng : Nat → Nat) (u0 u1 : Int) (v : Nat) : Bool :=
  let d := ((stepVictims s i).filter (fun x => decide (x.2.1 = v))).map (fun x =>
    lagRun (lagShare (cplTau (fm s) (cellCplFirst (fm s) v + x.2.2)) 250) 0
      ((armPath s i x.1 (rng x.1) (armU x.1 u0) (armU x.1 u1)).map (fun p => kappaOf s v x.2.2 * p)))
  let z := driveU s v
  let y := z + stepCounter s i u0 u1 v
  let c := [0, 1].map (fun a => lagRun (lagShare (tauOf s v) 250) 0 ((armPath s v a (chRange s (2 * v + a)) (armU a z) (armU a y)).map
    (fun p => (if a = 0 then 1 else -1) * (etaUse s v a : Int) * p)))
  let lim : Int := (fget s Reg.BEL_LAND Reg.BEL_LAND_EXCUR : Int) * 1048576
  (List.range 64).all (fun k =>
    let x := ((d ++ c).map (fun (l : List Int) => l.getD k 0)).foldl (· + ·) 0
    decide (-lim ≤ x) && decide (x ≤ lim))

/-- R187, R233: a step of a cell keeps every victim within its excursion. -/
def stepFits (s : State) (i : Nat) (rng : Nat → Nat) (u0 u1 : Int) : Bool :=
  (((stepVictims s i).map (·.2.1)).eraseDups).all (stepHolds s i rng u0 u1)

/-- R187, R233: the counter-loads of the victims of a cell's step: those of its tile in their records, which the step's load takes along,
the others by message (notes/assumptions/118). -/
def counterLoads (s : State) (i : Nat) (u0 u1 : Int) : State × List Nat :=
  let t := i / 64
  let vs := ((stepVictims s i).map (·.2.1)).eraseDups
  (vs.foldl (fun x v =>
    let du := stepCounter s i u0 u1 v
    if du = 0 then x else if v / 64 = t then addU x v du else sendMsg x t (v / 64) (v % 64) (enc du 24)) s, vs.filter (fun v => decide (v / 64 = t)))

/-- R187: the slews of a wrap's loads in HI, through a drive phase `mid`, in ns. -/
def wrapNs (s : State) (i : Nat) (mid : Int) : Nat :=
  let arm := if driveU s i < 0 then 1 else 0
  let c (u : Int) : Nat := armCodeIn s i arm u.natAbs 1
  slewNs s (i / 64) (c (driveU s i)) (c mid) + slewNs s (i / 64) (c mid) (c (wrapTarget s i))

/-- R186, R187: a pending wrap may start: in EMBER, or in a recess whose end is at least 16 µs away, and its sequence can be planned. -/
def wrapCan (s : State) (i : Nat) : Bool :=
  holdable s i && flagBit s i 2 && !modeBit s i 4 && (decide (modeOf s i = 1) || inRecess s i 16000) &&
  stepFits s i (fun _ => 1) (driveU s i) (wrapTarget s i) && decide (wrapNs s i (wrapTarget s i) ≤ 16000)

/-- R187: the load of a step of the sequence, in HI, with the counter-loads of the victims; those of other tiles go as messages. -/
def wrapMove (s : State) (i : Nat) (u0 u1 : Int) : State :=
  let t := i / 64
  let arm := if u0 < 0 then 1 else 0
  let h := 2 * i + arm
  let s1 := if chRange s h = 1 then s else loadCore (pendCore s h (65536 + 131072)) t
  let c := counterLoads s1 i u0 u1
  loadCells (pendCore c.1 h (armCodeIn c.1 i arm u1.natAbs (chRange c.1 h) + 65536 * chRange c.1 h)) t c.2

/-- R187: a wrap's first load goes through a drive phase that the thermal model chooses (free, notes/assumptions/44), where that keeps the
limits of R187, else straight to the target. -/
def wrapBegin (s : State) (i : Nat) : State :=
  let d := draw s
  let u := driveU s i
  let v : Int := ((Config.planSample d.1).toNat * 2 % 81921 : Nat)
  let mid := if u < 0 then -v else v
  let go := if stepFits d.2 i (fun _ => 1) u mid ∧ stepFits d.2 i (fun _ => 1) mid (wrapTarget s i) ∧ wrapNs d.2 i mid ≤ 16000 then mid else wrapTarget s i
  let s1 := wrapMove (setModeBit (abandonHold d.2 i) i 4 true) i u go
  setHcell s1 i { (hcell s1 i) with wrapAt := some go }

/-- R186: a wrap ends at its target: u, K and the counters follow. -/
def wrapEnd (s : State) (i : Nat) (mid : Int) : State :=
  let v := wrapTarget s i
  let s1 := wrapMove s i mid v
  let s2 := takeDrive (setModeBit (setHcell s1 i { (hcell s1 i) with wrapAt := none }) i 4 false) i v
  sumBump (hbump s2 i 0x1D 1) (i / 64) 0x20

/-- R186: a wrap that its place has left goes back to the drive before it, and stays pending. -/
def wrapBack (s : State) (i : Nat) (mid : Int) : State :=
  let s1 := wrapMove s i mid (driveU s i)
  setModeBit (setHcell s1 i { (hcell s1 i) with wrapAt := none }) i 4 false

/-- R186, R187: a step of a wrap: it starts where it may, largest |u| first, at most 4 at once; it ends while its place lasts. -/
def wrapStep (s : State) (i : Nat) : State :=
  let t := i / 64
  if modeBit s i 4 ∧ holdable s i then
    kernelRun s t 3 (fun s =>
      let mid := ((hcell s i).wrapAt).getD (driveU s i)
      if modeOf s i = 1 ∨ inRecess s i 0 then wrapEnd s i mid else wrapBack s i mid)
  else
    let u := (uOf s i).natAbs
    let first := (List.range 64).all (fun c => let j := 64 * t + c
      decide (j = i) || decide ((uOf s j).natAbs < u ∨ ((uOf s j).natAbs = u ∧ i < j)) || !wrapCan s j)
    if wrapCan s i ∧ wrapsIn s t < 4 ∧ first then kernelRun s t 3 (fun s => wrapBegin s i) else s

/-- R187: WRAP_STEP. -/
def execWrapStep (t : Fin 96) (c : Fin 64) (s : State) : Host.Outcome State Fault Refusal := done s (wrapStep s (64 * t + c))

/-! ## Neighbour wakes, parameters, summary -/

/-- R218: a neighbour message reaches the FIFO of the core that serves the victim tile, or is dropped. -/
def msgArrive (s : State) : State :=
  match s.trk.msgs with
  | [] => s
  | m :: rest =>
    let s1 := { s with trk := { s.trk with msgs := rest } }
    match coreFor s m.tile with
    | some k =>
      let c := coreOf s1 k
      if 16 ≤ c.fifo.length ∨ s1.trk.moving.any (fun x => decide (x.1 = m.tile)) then sumBump s1 m.src 0x2C
      else setCore s1 k { c with fifo := c.fifo ++ [(m.cell, m.du)] }
    | none => sumBump s1 m.src 0x2C

/-- R218: NEIGHBOUR_MESSAGE. -/
def execNeighbourMessage (s : State) : Host.Outcome State Fault Refusal := done s (msgArrive s)

/-- R218: one entry popped from the FIFO; level 4 is pending while it is not empty. -/
def popFifo (s : State) (k : Nat) : State := setCore s k { (coreOf s k) with fifo := (coreOf s k).fifo.tail }

/-- R189: a NEIGHBOUR wake: Δu of the oldest entry applied to the victim and loaded. -/
def neighbourWake (s : State) (t : Nat) : State :=
  match coreFor s t with
  | none => s
  | some k =>
    match (coreOf s k).fifo with
    | [] => s
    | (cell, du) :: _ => kernelRun s t 4 (fun s =>
      let i := 64 * t + cell % 64
      let s1 := popFifo s k
      if !holdable s1 i ∨ skipVictim s1 i ∨ modeBit s1 i 4 then s1
      else rebalance (loadCells (addU s1 i (sext du 24)) t [i]) i 4)

/-- R189: NEIGHBOUR. -/
def execNeighbour (t : Fin 96) (s : State) : Host.Outcome State Fault Refusal := done s (neighbourWake s t)

/-- R194: COMMIT: a HOST wake after COMMIT changes takes the parameters. -/
def commitWake (s : State) (t : Nat) : State :=
  kernelRun s t 8 (fun s => match coreFor s t with
    | some k => servedLevel s k 8
    | none => s)

/-- R194: COMMIT. -/
def execCommit (t : Fin 96) (s : State) : Host.Outcome State Fault Refusal := done s (commitWake s t)

/-- R195: the mode counts, E_MAX and SEQ of a tile's summary. -/
def summary (s : State) (t : Nat) : State :=
  let a := 0x932000 + 0x40 * t
  let cnt (p : Nat → Bool) : Nat := ((List.range 64).filter (fun c => cellPresent (fm s) (64 * t + c) && p (64 * t + c))).length
  let e := tget s.hold.eMax (0, 0) t
  let put (s : State) (o v : Nat) : State := mset s (a + o) 1 v
  let s1 := put (put (put (put (put s 4 (cnt (fun i => decide (modeOf s i = 4)))) 5 (cnt (fun i => decide (modeOf s i = 1))))
    6 (cnt (fun i => decide (modeOf s i = 2 ∨ modeOf s i = 3)))) 7 (cnt (fun i => decide (modeOf s i = 5)))) 8 (cnt (fun i => decide (modeOf s i = 0)))
  let s2 := put (put (put s1 9 (cnt (fun i => flagBit s i 2))) 0xA (cnt (fun i => flagBit s i 3))) 0xB (cnt (fun i => flagBit s i 7))
  let s3 := mset (mset s2 (a + 0xC) 2 e.1) (a + 0xE) 1 e.2
  mset { s3 with hold := { s3.hold with eMax := tset s3.hold.eMax (0, 0) t (0, 0), sumAt := tset s3.hold.sumAt 0 t s3.up } } a 4 (mget s a 4 + 1)

/-- R221: TELEM is called at each refresh, at level 8. -/
def telemHook (s : State) (t : Nat) : State :=
  match coreFor s t with
  | some k => if hooksOn s k then hookCall s k 8 0x6020 20000 .telem else s
  | none => s

/-- R195: the refresh of a tile's summary, 1 ms after the last one. -/
def summaryDue (s : State) (t : Nat) : State :=
  if s.up < tget s.hold.sumAt 0 t + 1000000 then s else kernelRun s t 8 (fun s => telemHook (regradeAll (summary s t)) t)

/-- R195: HOLD_SUMMARY_REFRESH. -/
def execHoldSummaryRefresh (t : Fin 96) (s : State) : Host.Outcome State Fault Refusal := done s (summaryDue s t)

/-! ## Records built (R181, R191, R192) -/

/-- R191: a record with no history, in a mode, at a drive phase. -/
def newRecord (s : State) (i mode : Nat) (u : Int) : State :=
  match coreFor s (i / 64) with
  | none => s
  | some k =>
    let a := 65536 * k + 0x800 + 32 * (i % 64)
    let s1 := { s with trk := { s.trk with dmem := cut s.trk.dmem a 32 } }
    let s2 := setHcell s1 i { HCell.init with tLast := picTemp s (i / 64), held := (hcell s i).held }
    let s3 := setRefs (takeDrive (setMode (hw s2 i 8 1 0xFF) i mode) i u) i
    let s4 := hw s3 i 0x12 2 (if calOf s3 (actAt i) then mget s3 (actAt i + 0xC) 2 else par s3 (i / 64) 0x20 2)
    setFlagBit s4 i 6 (calOf s4 (actAt i))

/-- R192: u from the active codes: the arm with a nonzero code. -/
def uFromCodes (s : State) (i : Nat) : Int :=
  let n := activeNow s (2 * i)
  let m := activeNow s (2 * i + 1)
  if n ≠ 0 then uOfCode n (etaUse s i 0) (rEst s (2 * i)) (chRange s (2 * i))
  else -(uOfCode m (etaUse s i 1) (rEst s (2 * i + 1)) (chRange s (2 * i + 1)) : Int)

/-- R192: a record rebuilt by measurement: lit cells in RAMP from their measured e_0, unlit ones in EMBER; where `first` is set an
uncalibrated cell starts in EMBER (R191). -/
def rebuildCell (s : State) (i : Nat) (first : Bool) : State :=
  if !cellPresent (fm s) i ∨ isRetired s i then newRecord s i 0 0
  else
    let s1 := newRecord s i 1 (uFromCodes s i)
    if owned s1 (2 * i) ∨ owned s1 (2 * i + 1) then setMode s1 i 6
    else if !lightOf s1 i ∨ (first ∧ !calOf s1 (actAt i)) then toEmber s1 i
    else
      let m := measureCell s1 i
      if balanced s1 (i / 64) m then toBalanced s1 i m
      else match knownSign s1 i with
        | some sg => toRamp s1 i m sg
        | none => probe (setMode (noteErr s1 i m.err 1) i 2) i m

/-- R192: the records of a tile rebuilt. -/
def rebuildTile (s : State) (t : Nat) (first : Bool) : State := (List.range 64).foldl (fun s c => rebuildCell s (64 * t + c) first) s

/-- R136, R137, R191: a tile that has just been released gets its records. -/
def released (old s : State) (t : Nat) : State :=
  if drvState old t ≠ 4 ∧ drvState s t = 4 then rebuildTile s t true else s

/-- R181: a landed cell's record built anew from the plan's final drive: DIR_VALID and S cleared, the first 16 wakes ahead (R191); a wrap
that the plan executed is counted (R72, R187). -/
def landRecord (s0 : State) (i : Nat) (u : Int) : State :=
  let s := if flagBit s0 i 2 then sumBump (hbump s0 i 0x1D 1) (i / 64) 0x20 else s0
  let s1 := dropDeadlines (takeDrive (setHcell s i { (hcell s i) with held := none, loN := 0, nb := 0, wrapAt := none }) i u) i
  setRefs (hw (setModeBit (setFlagBit (hw s1 i 4 2 0) i 5 false) i 4 false) i 7 1 0) i

/-- R181, R182: an unlit cell is ember from its landing on. -/
def landEmber (s : State) (i : Nat) (u : Int) : State := if modeOf s i = 6 then toEmber (landRecord s i u) i else s

/-- R181, R426: the verify hand-over of a lit changing cell: u from the plan's final drive; BALANCED where it was judged balanced, else
HOLD with windows from the seeding sample at level B. A cell that entered EMBER at its landing stays there. -/
def handOver (s : State) (i : Nat) (u : Int) (bal : Bool) : State :=
  if !holdable s i ∨ modeOf s i ≠ 6 then s
  else
    let s1 := landRecord s i u
    let m := measureCell s1 i
    if bal then toBalanced s1 i m else recentre (setMode (noteErr s1 i m.err 1) i 4) i (bandOf s1 i) m

/-- R244: at a fire the unchanged cells take the swapped efficiencies: u from the active code. -/
def takeHeld (s : State) (i : Nat) : State :=
  if (hcell s i).held.isSome then
    let s1 := setHcell s i { (hcell s i) with held := none }
    if holdable s1 i then takeDrive s1 i (uFromCodes s1 i) else s1
  else s

/-- R51, R181: a retired cell's record is OFF. -/
def holdOff (s : State) (i : Nat) : State :=
  let s1 := setHcell s i { HCell.init with held := none }
  if (coreFor s1 (i / 64)).isSome then setModeBit (setModeBit (setMode s1 i 0) i 3 false) i 4 false else s1

end Sys2Proof.Machine
end

