-- ==== Sys2Proof/Machine/CalBase.lean ====
section
/-! DEFINITION. What other blocks do to calibration: the status block and counters (R246, R247), and the end of sweeps and steers with
their return codes (R239). -/

namespace Sys2Proof.Machine

/-- R246: a tile's status block. -/
def calS (t : Nat) : Nat := 0x936000 + 0x40 * t

/-- R247: a calibration counter. -/
def calCnt (s : State) (k : Nat) : State := bump s (Reg.CAL_CNT k)

/-- R246: a bit of an 8-byte map of a cell's status block. -/
def calMap (s : State) (o i : Nat) : Bool := bit (mbyte s (calS (i / 64) + o + i % 64 / 8)) (i % 8)
def putCalMap (s : State) (o i : Nat) (b : Bool) : State :=
  let a := calS (i / 64) + o + i % 64 / 8
  mset s a 1 (putBit (mbyte s a) (i % 8) b)

/-- R239: a channel's return code. -/
def backOf (s : State) (h : Nat) : Nat × Nat × Nat := (h, codeOf s h, chRange s h)

/-- R239: the return codes of a sweep loaded as slew targets; a channel at its fault value or of a bell keeps its code. -/
def loadBack (s : State) (l : List (Nat × Nat × Nat)) : State :=
  l.foldl (fun s b => if (chanOf s b.1).atFault || owned s b.1 || decide (chRail s b.1 = 7) then s
    else slewTo (toRange s b.1 b.2.2) b.1 b.2.1) s

/-- The end of a sweep: its pass is released and its cells are free. -/
def sweepGone (s : State) (i : Nat) : State :=
  match tfind s.cal.sweeps i with
  | none => s
  | some w =>
    let s1 := match w.pass with
      | some e => passRelease s e
      | none => s
    (i :: w.path).foldl (fun s j => putCalMap s 0x18 j false)
      { s1 with cal := { s1.cal with sweeps := tdel s1.cal.sweeps i, asked := s1.cal.asked.filter (fun j => !decide (j = i)) } }

/-- R239: a sweep or steer aborted, with or without its return codes. -/
def sweepAbort (s : State) (i : Nat) (load : Bool) : State :=
  match tfind s.cal.sweeps i with
  | none => s
  | some w => calCnt (sweepGone (if load then loadBack s w.back else s) i) 5

/-- Sweeps that satisfy a test aborted. -/
def abortWhere (s : State) (p : Nat → Sweep → Bool) (load : Bool) : State :=
  (s.cal.sweeps.filter (fun e => p e.1 e.2)).foldl (fun s e => sweepAbort s e.1 load) s

/-- R239: a tile's sweeps end at a core fault, a restart, a migration. -/
def abortTile (s : State) (t : Nat) : State := abortWhere s (fun i w => decide (i / 64 = t) || w.path.any (fun j => decide (j / 64 = t))) true

/-- R239: a cell is retired: its sweep, or the steer through it, ends; the other cells return. -/
def abortCell (s : State) (c : Nat) : State := abortWhere s (fun i w => decide (i = c) || w.path.contains c) true

end Sys2Proof.Machine
end

