-- ==== Sys2Proof/Machine/Flags.lean ====
section
/-! DEFINITION. The flags of the Taruk cores (R200, R208): Z, N, V and C of a 24-bit result, and the branch conditions. -/

namespace Sys2Proof.Machine

/-- FLAGS as a number: bit 0 Z, bit 1 N, bit 2 V, bit 3 C (notes/assumptions/40). -/
def flagsOf (z n v c : Bool) : Nat := b2n z + 2 * b2n n + 4 * b2n v + 8 * b2n c

/-- A 24-bit number read as signed. -/
def s24 (x : Nat) : Int := sext x 24

/-- A signed number does not fit in 24 bits. -/
def ovf24 (x : Int) : Bool := decide (x < -(2 ^ 23)) || decide (2 ^ 23 ≤ x)

/-- Z and N of a 24-bit result. -/
def zOf (r : Nat) : Bool := decide (r % 2 ^ 24 = 0)
def nOf (r : Nat) : Bool := bit r 23

/-- C of an addition and of a subtraction (the carry of a + ¬b + 1, notes/assumptions/40). -/
def carryAdd (a b : Nat) : Bool := decide (2 ^ 24 ≤ a + b)
def carrySub (a b : Nat) : Bool := decide (b ≤ a)

/-- R219: a branch condition on FLAGS. -/
def condHolds (c : Cond) (f : Nat) : Bool :=
  let z := bit f 0
  let lt := bit f 1 != bit f 2
  match c with
  | .eq => z
  | .ne => !z
  | .lt => lt
  | .ge => !lt
  | .gt => !z && !lt
  | .le => z || lt
  | .vs => bit f 2
  | .vc => !bit f 2
  | .al => true

end Sys2Proof.Machine
end

