-- ==== Sys2Proof/Machine/Operands.lean ====
section
/-! DEFINITION. What an instruction of a Taruk core reads and writes: the register file of the running bank (R198, R199), late
writes (R205), addressing (R209, R210), memory operands (R201). -/

namespace Sys2Proof.Machine

/-- Indices of the register file of a bank: D0 to D15, ACC0 to ACC3 as multiplies see them, A, O, L, B, EPC, the REP count,
start and end, and ACC0 to ACC3 as other readers see them one instruction later (R205). -/
def ixD (n : Nat) : Nat := n
def ixAcc (n : Nat) : Nat := 16 + n
def ixA (n : Nat) : Nat := 20 + n
def ixO (n : Nat) : Nat := 28 + n
def ixL (n : Nat) : Nat := 36 + n
def ixB (n : Nat) : Nat := 44 + n
def ixEpc : Nat := 52
def ixRepN : Nat := 53
def ixRepS : Nat := 54
def ixRepE : Nat := 55
def ixAccLate (n : Nat) : Nat := 56 + n

/-- R199: a register of the running bank. -/
def rf (s : State) (k i : Nat) : Nat := tget (coreOf s k).rf 0 (64 * (coreOf s k).level + i)

/-- A register of the running bank written at once; a late write to it is overtaken. -/
def rfSet (s : State) (k i v : Nat) : State :=
  let c := coreOf s k
  let key := 64 * c.level + i
  setCore s k { c with rf := tset c.rf 0 key v, late := c.late.filter (fun l => !decide (l.kind = 0 ∧ l.key = key)) }

/-- R205: An written by a post-modify, in AG: a MOV that is still on its way writes it later, in WB. -/
def anSet (s : State) (k i v : Nat) : State :=
  let c := coreOf s k
  setCore s k { c with rf := tset c.rf 0 (64 * c.level + i) v }

/-- A register of the running bank written `n` delay slots later. -/
def rfLate (s : State) (k i v n : Nat) : State :=
  let c := coreOf s k
  setCore s k { c with late := c.late ++ [Late.mk (n + 1) 0 (64 * c.level + i) 0 v] }

/-- R205: flags reach a branch after 2 delay slots. -/
def flagLate (s : State) (k f : Nat) : State :=
  let c := coreOf s k
  setCore s k { c with late := c.late ++ [Late.mk 3 1 0 0 f] }

/-- R201, R205: a store reaches a load after 2 delay slots. -/
def storeLate (s : State) (k a n v : Nat) : State :=
  let c := coreOf s k
  setCore s k { c with late := c.late ++ [Late.mk 3 2 (a % 65536) n v] }

/-- A late write takes place. -/
def lateApply (k : Nat) (s : State) (l : Late) : State :=
  let c := coreOf s k
  if l.kind = 0 then setCore s k { c with rf := tset c.rf 0 l.key l.val }
  else if l.kind = 1 then setCore s k { c with flags := l.val }
  else dput s k l.key l.len l.val

/-- R205: one instruction passes: late writes that are due take place, in order. -/
def lateTick (s : State) (k : Nat) : State :=
  let c := coreOf s k
  let l := c.late.map (fun x => { x with n := x.n - 1 })
  let s1 := setCore s k { c with late := l.filter (fun x => decide (x.n ≠ 0)) }
  (l.filter (fun x => decide (x.n = 0))).foldl (lateApply k) s1

/-- R206: an event entry completes every late write. -/
def lateFlush (s : State) (k : Nat) : State :=
  let c := coreOf s k
  c.late.foldl (lateApply k) (setCore s k { c with late := [] })

/-- D registers: 24 bits. -/
def rdD (s : State) (k n : Nat) : Nat := rf s k (ixD n)
def wrD (s : State) (k n v : Nat) : State := rfSet s k (ixD n) (v % 2 ^ 24)
def sD (s : State) (k n : Nat) : Int := s24 (rdD s k n)

/-- R205, R207: an accumulator as the next multiply reads it, and as other readers see it. -/
def accGet (s : State) (k n : Nat) : Int := sext (rf s k (ixAcc n)) 56
def accSeen (s : State) (k n : Nat) : Int := sext (rf s k (ixAccLate n)) 56

/-- R207: an accumulator written, held at its limits with AOV. -/
def accSet (s : State) (k n : Nat) (x : Int) : State :=
  let y := satS x 56
  let s1 := rfSet s k (ixAcc n) (enc y 56)
  let s2 := rfLate s1 k (ixAccLate n) (enc y 56) 1
  if y = x then s2 else setCore s2 k { (coreOf s2 k) with aov := true }

/-- R210: the post-modify of An by On. -/
def postMod (s : State) (k n : Nat) : State :=
  let p := rf s k (ixA n)
  let o := sext (rf s k (ixO n)) 16
  let b := rf s k (ixB n)
  let l := rf s k (ixL n)
  if l ≠ 0 ∧ b ≤ p ∧ p < b + l then
    anSet s k (ixA n) (enc ((b : Int) + ((p : Int) - b + o) % (l : Int)) 16)
  else
    let s1 := anSet s k (ixA n) (enc ((p : Int) + o) 16)
    if l = 0 then s1
    else bump (setCore s1 k { (coreOf s1 k) with modout := true, modreg := n }) (Reg.TRK_CNT k 7)

/-- R209: the address of a memory operand and the state after the access. -/
def memAddr (s : State) (k : Nat) (m : MemForm) : Nat × State :=
  match m with
  | .ind n => (rf s k (ixA n), s)
  | .post n => (rf s k (ixA n), postMod s k n)
  | .disp n imm => (enc ((rf s k (ixA n) : Int) + sext imm.toNat 10) 16, s)
  | .abs a => (a.toNat, s)

/-- R219: a form of fewer than 15 bits holds neither [An+imm] nor [imm]. -/
def shortForm (m : MemForm) : Bool :=
  match m with
  | .ind _ => true
  | .post _ => true
  | .disp _ _ => false
  | .abs _ => false

/-- R201: an access of `n` bytes is aligned. -/
def aligned (a n : Nat) : Bool := decide (a % n = 0)

/-- R222: customer code stores only to the exchange area and to customer data. -/
def storeOk (s : State) (k a n : Nat) : Bool :=
  !(coreOf s k).cmode || decide (0x680 ≤ a ∧ a + n ≤ 0x700) || decide (0xC000 ≤ a ∧ a + n ≤ 0x10000)

/-- R201: a word operand: bits 23:0 of 32. -/
def wordAt (s : State) (k a : Nat) : Nat := dget s k a 4 % 2 ^ 24

end Sys2Proof.Machine
end

