-- ==== Sys2Proof/Machine/Cpu.lean ====
section
/-! DEFINITION. How a Taruk core issues an instruction: core faults (R215), hooks (R221, R222), delay slots (R205), REP blocks
(R219), event entry and return (R211 to R214), the watchdog (R212). -/

namespace Sys2Proof.Machine

/-- What an instruction did: an effect; one that also chose where the core goes on; or a fault kind of R228 (3 illegal instruction,
4 protection violation). -/
inductive Ran where
  | ok (s : State)
  | went (s : State)
  | bad (kind : Nat)

/-- R228: the program counter of a core. -/
def pcOf (s : State) (k : Nat) : Nat := (coreOf s k).pc

/-- R205: the control transfer of a core's instruction, taken after its delay slot. -/
def setCtl (s : State) (k : Nat) (c : Ctl) : State := setCore s k { (coreOf s k) with ctl := some c }

/-! ## Core faults -/

/-- R215, R239, R362: a core stops: KIND and PC, no tile I/O; CAL returns the cells under sweep or steer, and the tile waits for
migration. -/
def coreStop (s : State) (k kind pc : Nat) : State :=
  let s1 := fset (setCoreState s k 3) (Reg.TRK_STATUS k) Reg.TRK_STATUS_SPARE 0
  let s2 := fset (fset s1 (Reg.TRK_FAULT k) Reg.TRK_FAULT_KIND kind) (Reg.TRK_FAULT k) Reg.TRK_FAULT_PC pc
  let t := coreTile s k
  if t < 96 then (let s3 := abortTile s2 t; { s3 with trk := { s3.trk with migrate := s3.trk.migrate ++ [(t, k)] } }) else s2

/-- R215: a core fault of a core that runs or sleeps. -/
def coreFail (s : State) (k kind : Nat) : State :=
  if coreState s k = 1 ∨ coreState s k = 2 then
    report (coreStop s k kind (pcOf s k)) (srcCore k) (0x2F + kind) (coreTile s k) (pcOf s k)
  else s

/-! ## Hooks -/

/-- R221: the budget of a hook address. -/
def hookBudget (a : Nat) : Option Nat :=
  if a = 0x6000 then some 200 else if a = 0x6010 then some 2000 else if a = 0x6020 then some 20000 else none

/-! ## Levels (R211, R212) -/

/-- R211: the lowest pending level. -/
def nextLevel (s : State) (k : Nat) : Option Nat := ((List.range 8).map (· + 1)).find? (fun n => bit (pendOf s k) n)

/-- R211, R212: a core switches to the bank of level `n` and its handler, with EPC written there; `stack` are the levels that it preempts. A
level that no source holds any more is pending no longer (notes/assumptions/95). -/
def enterLevel (s : State) (k n : Nat) (stack : List Nat) : State :=
  let x := coreOf s k
  let y := { x with rf := tset x.rf 0 (64 * n + ixEpc) x.pc, pc := 0x20 * n, level := n, pend := putBit x.pend n false, waitOn := none,
                    stack := stack, cmode := false, since := tset (tset x.since 0 n s.up) 0 (16 + n) s.up }
  bump (setCoreState (setCore s k y) k 2) (Reg.TRK_CNT k 2)

/-- R211 to R213: the running level ends: the lowest pending level runs, or the preempted level goes on at its EPC, or the clock stops. -/
def levelEnd (s : State) (k : Nat) : State :=
  let c := coreOf s k
  match c.stack with
  | p :: rest =>
    let since := tset c.since 0 p (tget c.since 0 p + (s.up - tget c.since 0 (16 + c.level)))
    let s1 := setCore s k { c with pc := tget c.rf 0 (64 * c.level + ixEpc), level := p, stack := rest, since := since }
    match nextLevel s1 k with
    | some n => if n < p ∨ p = 0 then enterLevel (lateFlush s1 k) k n (p :: rest) else s1
    | none => s1
  | [] =>
    match nextLevel s k with
    | some n => enterLevel (lateFlush s k) k n []
    | none => setCoreState (setCore s k { c with level := 0 }) k 1

/-! ## Hooks end -/

/-- R221, R222: the hook of the running level ends, by RETH (`ok`) or at once: the stock kernel goes on where it called; a level that the core
entered for the hook ends too, with what the kernel does then. -/
def hookEnd (s : State) (k : Nat) (ok : Bool) : State :=
  let c := coreOf s k
  let w := tfind c.work c.level
  let s1 := setCore s k { c with hooks := tdel c.hooks c.level, work := tdel c.work c.level, ctl := none, cmode := false,
                                 pc := ((tfind c.hooks c.level).map (·.1)).getD c.pc }
  match w with
  | some (x, own) =>
    let s2 := hookDone (if own then levelEnd s1 k else s1) k x ok
    if x = .idle ∨ 96 ≤ coreTile s k then s2 else kernelRest s2 (coreTile s k) c.level
  | none => s1

/-- R222: customer code violates its limits or its budget: the hook ends at once, HOOK_OFF sets, a HOOK record is written. Outside a hook the
core goes on in stock code at an address that the specification does not give (notes/assumptions/107). -/
def hookFail (s : State) (k : Nat) : State :=
  let c := { (coreOf s k) with hookStop := 1 }
  let s1 := report (bump (fset (setCore s k c) (Reg.TRK_STATUS k) Reg.TRK_STATUS_HOOK_OFF 1) (Reg.TRK_CNT k 4)) (srcCore k) 0x35 (coreTile s k) c.pc
  if (tfind c.hooks c.level).isSome then hookEnd s1 k false
  else
    let d := draw s1
    setCore d.2 k { c with ctl := none, cmode := false, pc := (Config.coreValue d.1).toNat % 0x1800 * 4 }

/-- R215, R222: a violation ends the hook in customer mode and is a core fault in stock mode. -/
def violate (s : State) (k kind : Nat) : State := if (coreOf s k).cmode then hookFail s k else coreFail s k kind

/-- R201, R215: CORE_FAULT: a corrected memory error, which counts (kind 0); a memory double error or a parity error; an illegal instruction or
a protection violation, which in customer mode ends the hook (R222). -/
def faultSeen (s : State) (k kind : Nat) : State :=
  if kind = 0 then (if coreState s k = 3 then s else bump s (Reg.TRK_CNT k 5))
  else if kind ≤ 2 then coreFail s k kind
  else if kind ≤ 4 ∧ coreState s k = 2 then violate s k kind
  else s

/-- R215: CORE_FAULT. -/
def execCoreFault (k : Fin 100) (kind : Fin 6) (s : State) : Host.Outcome State Fault Refusal := done s (faultSeen s k kind)

/-- R221: customer code entered at a hook address from stock code: the hook returns to the caller of R219. With hooks off the call returns at
once. -/
def hookEnter (s : State) (k a : Nat) : State :=
  let c := coreOf s k
  match hookBudget a, c.calls with
  | some b, r :: rest =>
    if c.cmode then s
    else if !hooksOn s k then setCore s k { c with pc := r, calls := rest }
    else bump (setCore s k { c with hooks := tset c.hooks (0, 0, 0) c.level (r, 0, b), calls := rest }) (Reg.TRK_CNT k 3)
  | _, _ => s

/-! ## The next instruction -/

/-- A jump, which customer code may not make into stock code (R222). -/
def jumpTo (s : State) (k a : Nat) : State :=
  let c := coreOf s k
  if c.cmode ∧ a < 0x6000 then hookFail s k
  else
    let s1 := setCore s k { c with pc := a % 0x8000 }
    if 0x6000 ≤ a then hookEnter s1 k a else s1

/-- R219: a REP block is under way. -/
def inRep (s : State) (k : Nat) : Bool := decide (rf s k ixRepN ≠ 0 ∧ rf s k ixRepS ≤ pcOf s k ∧ pcOf s k < rf s k ixRepE)

/-- R219: the address after this instruction: the next one, or the start of a REP block again. -/
def seqNext (s : State) (k : Nat) : State :=
  let c := coreOf s k
  let n := rf s k ixRepN
  let nxt := (c.pc + 4) % 0x8000
  if n ≠ 0 ∧ nxt = rf s k ixRepE then
    if n = 1 then setCore (rfSet s k ixRepN 0) k { (coreOf (rfSet s k ixRepN 0) k) with pc := nxt }
    else
      let s1 := rfSet s k ixRepN (n - 1)
      setCore s1 k { (coreOf s1 k) with pc := rf s k ixRepS }
  else if c.cmode ∧ nxt < 0x6000 then hookFail s k
  else setCore s k { c with pc := nxt }

/-- R213: the condition of a WAIT. -/
def waitDone (s : State) (k : Nat) (w : WaitCond) : Bool :=
  match w with
  | .burst r => decide (dget s k (burstRec r + 1) 1 ≠ 0)
  | .timer n => decide (tget (coreOf s k).tcmp 0 n = 0)
  | .stage => (coreOf s k).stage.isNone

/-- R205: the control transfer of the instruction before takes place after its delay slot. -/
def takeCtl (s : State) (k : Nat) (c : Ctl) : State :=
  match c with
  | .jump a => jumpTo s k a
  | .ret =>
    match (coreOf s k).calls with
    | r :: rest => jumpTo (setCore s k { (coreOf s k) with calls := rest }) k r
    | [] =>
      let d := draw s
      jumpTo d.2 k ((Config.coreValue d.1).toNat % 0x2000 * 4)
  | .reth => if (tfind (coreOf s k).hooks (coreOf s k).level).isSome then hookEnd s k true else seqNext s k
  | .sleep => if (coreOf s k).cmode then hookFail s k else levelEnd (seqNext s k) k
  | .wait w => let s1 := seqNext s k; if waitDone s1 k w then s1 else setCore s1 k { (coreOf s1 k) with waitOn := some w }

/-! ## Issue -/

/-- R213, R377: whether the core's clock runs: STATE RUN, no WAIT whose condition is open, no die shut-down. -/
def issues (s : State) (k : Nat) : Bool :=
  decide (coreState s k = 2) && !dieShut s && (match (coreOf s k).waitOn with
    | some w => waitDone s k w
    | none => true)

/-- One cycle of the core: late writes, running time, customer mode of the fetch address, the hook's budget; a WAIT that had stopped the
clock has ended. -/
def cycle (s : State) (k : Nat) : State :=
  let s1 := lateTick s k
  let c := coreOf s1 k
  let hooks := match tfind c.hooks c.level with
    | some h => tset c.hooks (0, 0, 0) c.level (h.1, h.2.1 + 1, h.2.2)
    | none => c.hooks
  let s2 := setCore s1 k { c with waitOn := none, ctl := none, cyc := c.cyc + 1, cmode := decide (0x6000 ≤ c.pc), hooks := hooks }
  let s3 := if c.waitOn.isSome then bump s2 (Reg.TRK_CNT k 1) else s2
  if (c.cyc + 1) % 16 = 0 then bump s3 (Reg.TRK_CNT k 0) else s3

/-- R222: the hook of the running level has spent its budget. -/
def overBudget (s : State) (k : Nat) : Bool :=
  match tfind (coreOf s k).hooks (coreOf s k).level with
  | some h => decide (h.2.2 < h.2.1)
  | none => false

/-- An instruction of a core: it acts in the core's cycle, then the delay slot's transfer or the next address follows. -/
def issue (s : State) (k : Nat) (run : State → Ran) : State :=
  if !issues s k then s
  else
    let old := (coreOf s k).ctl
    let s1 := cycle s k
    if overBudget s1 k then hookFail s1 k
    else match run s1 with
      | .bad kind => violate s1 k kind
      | .went s2 => s2
      | .ok s2 => match old with
        | some c => takeCtl s2 k c
        | none => seqNext s2 k

/-- The outcome of an instruction row. -/
def cpu (s : State) (k : Nat) (run : State → Ran) : Host.Outcome State Fault Refusal := done s (issue s k run)

/-! ## Events (R211 to R214) -/

/-- R211, R212: entry to the lowest pending level, if it preempts what runs; no entry while a delay slot is due (R212), nor while the core's
clock is stopped by DOZE, NAP or a die shut-down (R377, R391). -/
def eventEnter (s : State) (k : Nat) : State :=
  match nextLevel s k with
  | none => s
  | some n =>
    let c := coreOf s k
    let asleep := decide (coreState s k = 1)
    let runs := decide (coreState s k = 2) && (decide (n < c.level) || decide (c.level = 0)) && c.ctl.isNone
    if (!asleep && !runs) ∨ !tileUp s (coreTile s k) then s
    else
      let s1 := enterLevel (lateFlush s k) k n (if asleep then [] else c.level :: c.stack)
      if asleep || c.waitOn.isSome then bump s1 (Reg.TRK_CNT k 1) else s1

/-- R212: EVENT_ENTRY. -/
def execEventEntry (k : Fin 100) (s : State) : Host.Outcome State Fault Refusal := done s (eventEnter s k)

/-- R214: a timer compare that is armed and reached makes level 3 pending and disarms. -/
def timerHit (s : State) (k n : Nat) : State :=
  let v := tget (coreOf s k).tcmp 0 n
  if v ≠ 0 ∧ 0 ≤ sext ((tcnt s + 2 ^ 32 - (v - 1)) % 2 ^ 32) 32 then
    pendLevel (setCore s k { (coreOf s k) with tcmp := tset (coreOf s k).tcmp 0 n 0 }) k 3
  else s

/-- R214: TIMER_MATCH. -/
def execTimerMatch (k : Fin 100) (n : Fin 4) (s : State) : Host.Outcome State Fault Refusal := done s (timerHit s k n)

/-- R212, R215: 100 µs of a level without RETE or SLEEP. -/
def coreDog (s : State) (k : Nat) : State :=
  let c := coreOf s k
  if coreState s k = 2 ∧ !dieShut s ∧ c.level ≠ 0 ∧ tget c.since 0 c.level + 100000 ≤ s.up then coreFail s k 5 else s

/-- R212: CORE_WATCHDOG_EXPIRY. -/
def execCoreWatchdogExpiry (k : Fin 100) (s : State) : Host.Outcome State Fault Refusal := done s (coreDog s k)

/-- R228: the status word CST (R200). -/
def cstOf (s : State) (k : Nat) : Nat :=
  let c := coreOf s k
  c.level + 16 * b2n c.cmode + 32 * c.flags + 2 ^ 16 * b2n c.modout + 2 ^ 17 * b2n c.aov + 2 ^ 18 * b2n c.sat + 2 ^ 19 * c.modreg +
    2 ^ 22 * c.cause

/-- R200: sticky bits cleared where a mask has 0. -/
def cstClear (s : State) (k keep : Nat) : State :=
  let c := coreOf s k
  setCore s k { c with modout := c.modout && bit keep 16, aov := c.aov && bit keep 17, sat := c.sat && bit keep 18 }

end Sys2Proof.Machine
end

