-- ==== Sys2Proof/Machine/CpuIo.lean ====
section
/-! DEFINITION. The I/O and tile instructions of the Taruk cores (R216 to R218). -/

namespace Sys2Proof.Machine

/-- R216, R222, R224: a tile access of a core: allowed in its mode, and reaching a tile only where the core serves one. -/
def tileIo (s : State) (k : Nat) (ok : Bool) (none_ : State) (f : Nat → State) : Ran :=
  if (coreOf s k).cmode && !ok then .bad 4
  else if coreTile s k < 96 then .ok (f (coreTile s k)) else .ok none_

/-- R216: a D register that takes a value the specification does not lay out (notes/assumptions/43). -/
def openD (s : State) (k d : Nat) : State :=
  let x := draw s
  wrD x.2 k d (Config.coreValue x.1).toNat

/-- R216: the word of an input port. -/
def inPort (s : State) (k d t p : Nat) : State :=
  if 0x180 ≤ p ∧ p < 0x200 then wrD s k d (fget s (winReg (128 * t + (p - 0x180))) Reg.MON_IN_WIN_STATE)
  else if 0x200 ≤ p ∧ p < 0x280 then wrD s k d (fget s (lastReg (128 * t + (p - 0x200))) Reg.MON_IN_LAST_SAMPLE)
  else if 0x280 ≤ p ∧ p < 0x300 then wrD s k d ((rget s (avgReg (128 * t + (p - 0x280)))).toNat % 2 ^ 24)
  else if 0x300 ≤ p ∧ p < 0x304 then wrD s k d ((rget s (Reg.MON_EXIT t (p - 0x300))).toNat % 2 ^ 24)
  else if 0x304 ≤ p ∧ p < 0x308 then wrD s k d ((rget s (Reg.MON_EXIT t (p - 0x304))).toNat / 2 ^ 24)
  else if p = 0x310 then openD (popFifo s k) k d
  else if p = 0x330 then wrD s k d (enc (picTemp s t) 24)
  else openD s k d

/-- R216, R222: IN; customer code reads ports 0x180 to 0x2FF and 0x330 only. -/
def execInp (k : Fin 100) (d : Fin 16) (port : BitVec 12) (s : State) : Host.Outcome State Fault Refusal :=
  cpu s k (fun s => tileIo s k (decide (0x180 ≤ port.toNat ∧ port.toNat < 0x300) || decide (port.toNat = 0x330)) (openD s k d)
    (fun t => inPort s k d t port.toNat))

/-- R216: the effect of an output port. -/
def outPort (s : State) (t p v : Nat) : State :=
  if p < 0x80 then pendCore s (128 * t + p) v
  else if 0x100 ≤ p ∧ p < 0x180 then winSet s (128 * t + (p - 0x100)) (v % 4096) (v / 4096 % 4096)
  else if 0x180 ≤ p ∧ p < 0x200 then inCfgWrite s (128 * t + (p - 0x180)) v
  else if 0x300 ≤ p ∧ p < 0x304 then exitWrite s t (p - 0x300) (v % 2 ^ 24)
  else if 0x304 ≤ p ∧ p < 0x308 then exitWrite s t (p - 0x304) (v % 256 * 2 ^ 24)
  else s

/-- R216: OUT. -/
def execOut (k : Fin 100) (d : Fin 16) (port : BitVec 12) (s : State) : Host.Outcome State Fault Refusal :=
  cpu s k (fun s => tileIo s k false s (fun t => outPort s t port.toNat (rdD s k d)))

/-- R123: LOAD. -/
def execLoad (k : Fin 100) (s : State) : Host.Outcome State Fault Refusal := cpu s k (fun s => tileIo s k false s (loadCore s))

/-- R216, R217: WATCH; at level 1 the request serves a bell. -/
def watchRun (s : State) (k t v : Nat) : State :=
  watchAsk s t (Req.mk (v % 128) (bits v 8 4) (bits v 12 8) (decide ((coreOf s k).level = 1)) false)

/-- R157: WATCH. -/
def execWatch (k : Fin 100) (x : Fin 16) (s : State) : Host.Outcome State Fault Refusal :=
  cpu s k (fun s => tileIo s k false s (fun t => watchRun s k t (rdD s k x)))

/-- R218: MSG: the victim's global cell in Dx (notes/assumptions/43), Δu in Dy. -/
def execMsg (k : Fin 100) (x y : Fin 16) (s : State) : Host.Outcome State Fault Refusal :=
  cpu s k (fun s => tileIo s k false s (fun t => sendMsg s t (rdD s k x / 64 % 128) (rdD s k x % 64) (rdD s k y)))

/-- R216, R361: RETIRE with codes 3 to 5; INFO is the generation of the bell in verify, or open. -/
def retireRun (s : State) (t v : Nat) : State :=
  let i := 64 * t + v % 64
  let kind := bits v 8 4
  if kind < 3 ∨ 5 < kind then s
  else
    let d := draw s
    let info := if kind = 3 then (match s.bel.bells.find? (fun b => decide (b.st = 6)) with
        | some b => b.gen
        | none => (Config.openWord d.1).toNat)
      else (Config.openWord d.1).toNat
    retireAsk (report d.2 (srcDrv t) (0x16 + kind) i info) i kind

/-- R216: RETIRE. -/
def execRetire (k : Fin 100) (x : Fin 16) (s : State) : Host.Outcome State Fault Refusal :=
  cpu s k (fun s => tileIo s k false s (fun t => retireRun s t (rdD s k x)))

/-- R216: STAGE: a slot value of 9 to 15 is an illegal instruction. -/
def stageRun (k x : Nat) (s : State) : Ran :=
  let v := rdD s k x % 16
  if 9 ≤ v then .bad 3
  else tileIo s k false s (fun _ => setCore s k { (coreOf s k) with stage := some (v + 1, rdD s k ((x + 1) % 16), s.up) })

/-- R216: STAGE. -/
def execStage (k : Fin 100) (x : Fin 16) (s : State) : Host.Outcome State Fault Refusal := cpu s k (stageRun k x)

/-- R216: POST: the word reaches BEL. -/
def execPost (k : Fin 100) (x : Fin 16) (s : State) : Host.Outcome State Fault Refusal :=
  cpu s k (fun s => tileIo s k false s (fun _ => { s with trk := { s.trk with posts := s.trk.posts ++ [(k.val, rdD s k x)] } }))

/-- R127, R216: the staging image copied to the slot of the core's tile, with its tag. -/
def stageCopy (s : State) (k : Nat) : State :=
  match (coreOf s k).stage with
  | some (v, tag, _) =>
    let s1 := setCore s k { (coreOf s k) with stage := none }
    let t := coreTile s k
    if v = 0 ∨ 96 ≤ t then s1
    else
      let b := slotBase t (v - 1)
      let m := copyRange s1.trk.dmem (65536 * k + 0x2000) 8768 s1.slotMem b
      { s1 with slotMem := wr (wr m b 3 tag) (b + 4) 1 (putBit (rb m (b + 4)) 0 true) }
  | none => s

end Sys2Proof.Machine
end

