-- ==== Sys2Proof/Machine/Cal.lean ====
section
/-! DEFINITION. Recess calibration (R229 to R247): rounds and passive measurements, sweeps and lantern steers, the swap. -/

namespace Sys2Proof.Machine

/-! ## Status, counters, STALE -/

/-- R229, R230: STALE of a cell, in both tables, the context store and the status block. -/
def setStale (s : State) (i : Nat) (b : Bool) : State :=
  let put (s : State) (a : Nat) : State := mset s a 1 (putBit (mbyte s a) 1 b)
  let s1 := put (put s (bldAt i)) (actAt i)
  putCalMap (ctxPut s1 (i / 64) (64 * (i % 64)) s1.mem (actAt i) 64) 0x20 i b

/-- R245: a swap or a retirement awaits write-back. -/
def journalDirty (s : State) : State := fset s Reg.CAL_STATUS Reg.CAL_STATUS_JOURNAL_DIRTY 1

/-- R247, R377: CAL_CTRL.EN, and no die shut-down. -/
def calOn (s : State) : Bool := decide (fget s Reg.CAL_CTRL Reg.CAL_CTRL_EN = 1) && !dieShut s

/-- R243: a tile is ready for the swap. -/
def calReady (s : State) (t : Nat) : State :=
  let s1 := if s.cal.ready.contains t then s else { s with cal := { s.cal with ready := s.cal.ready ++ [t] } }
  if (tfind s1.cal.rounds t).isSome then s1 else mset s1 (calS t + 4) 1 2

/-- R247: CAL_STATUS as it reads. -/
def calStatusView (s : State) : BitVec 32 :=
  let w := setF (rget s Reg.CAL_STATUS) Reg.CAL_STATUS_SWAP_PENDING (b2n (!s.cal.ready.isEmpty))
  setF (setF w Reg.CAL_STATUS_ROUNDS s.cal.rounds.length) Reg.CAL_STATUS_SWEEPS s.cal.sweeps.length

/-! ## Rounds and passive measurements (R231, R234, R242) -/

/-- R231: a cell eligible for a passive measurement. -/
def passable (s : State) (i : Nat) : Bool :=
  holdable s i && decide (modeOf s i = 4) && !modeBit s i 3 && flagBit s i 5 && decide (hr s i 0x17 1 ≤ par s (i / 64) 7 1)

/-- R242: a cell that a round still waits for: eligible, or on its way to HOLD until ROUND_MAX. -/
def roundWaits (s : State) (i start : Nat) : Bool :=
  let late := decide (start + 1000000 * max 1 (fget s Reg.CAL_AGE Reg.CAL_AGE_ROUND_MAX) ≤ s.up)
  holdable s i && !calMap s 0x10 i &&
    (passable s i || (!late && decide (modeOf s i = 2 ∨ modeOf s i = 3 ∨ (modeOf s i = 4 ∧ modeBit s i 3))))

/-- R242, R243: a round completes when nothing is left to wait for. -/
def roundCheck (s : State) (t : Nat) : State :=
  match tfind s.cal.rounds t with
  | none => s
  | some r =>
    if (List.range 64).any (fun c => roundWaits s (64 * t + c) r.1) then s
    else calReady (calCnt { s with cal := { s.cal with rounds := tdel s.cal.rounds t } } 1) t

/-- R242: a round of a tile begins anew at the present temperature. -/
def roundBegin (s : State) (t : Nat) : State :=
  let s1 := mset (mset s (calS t + 4) 1 1) (calS t + 0x10) 8 0
  wakeTile { s1 with cal := { s1.cal with rounds := tins s1.cal.rounds t (s1.up, picTemp s1 t) } } t 7

/-- R242: a round is started for a tile that has none in progress. -/
def roundStart (s : State) (t : Nat) : State :=
  if !calOn s ∨ !tileUsed (fm s) t ∨ (tfind s.cal.rounds t).isSome then s else roundCheck (roundBegin (calCnt s 0) t) t

/-- R242: the temperature trigger of a tile. -/
def calTrigger (s : State) (t : Nat) : State :=
  let d := picTemp s t - sext (mget s (calS t + 6) 2) 16
  if max 1 (fget s Reg.CAL_TRIG Reg.CAL_TRIG_TRIG) < d.natAbs ∧ !s.cal.ready.contains t then roundStart s t else s

/-- R242: the first release of a tile after power-on. -/
def firstRelease (old s : State) (t : Nat) : State :=
  if drvState old t ≠ 4 ∧ drvState s t = 4 ∧ !s.cal.firstRel.contains t then
    roundStart { s with cal := { s.cal with firstRel := s.cal.firstRel ++ [t] } } t
  else s

/-- R372: the tile's PIC thermometer is suspect. -/
def picSuspect (s : State) (t : Nat) : Bool := rbit s (Reg.THM_SUSP (2 + t / 32)) (t % 32)

/-- R234: TCOEF follows a φ0 written at a temperature at least 1 K from TC_T. -/
def tcoefUpdate (s : State) (i : Nat) : State :=
  let a := bldAt i
  let temp := picTemp s (i / 64)
  let dT := temp - sext (mget s (a + 0x12) 2) 16
  if fget s Reg.CAL_CTRL Reg.CAL_CTRL_TCOEF_EN = 0 ∨ picSuspect s (i / 64) ∨ dT.natAbs < 100 then s
  else
    let d := sext (enc ((mget s a 4 / 65536 : Nat) - (mget s (a + 0x10) 2 : Nat) : Int) 16) 16
    let slope := (1600 * d).tdiv dT
    let tc := sext (mget s (a + 0xC) 2) 16
    let s1 := mset s (a + 0xC) 2 (enc (satS (tc + (slope - tc) * 64 / 256) 16) 16)
    mset (mset s1 (a + 0x10) 2 (mget s1 (a + 2) 2)) (a + 0x12) 2 (enc temp 16)

/-- R229: the target phase to which calibration refers its offsets: that of BAR_NOM. -/
def thetaNom (s : State) (i : Nat) : Nat := (cellBarNom (fm s) i + 32768 * (stateNow s i % 2)) % 65536

/-- R231: φ0 of a cell measured without moving a heater, with BAR_NOM beside it (R229, notes/assumptions/99). -/
def passiveOne (s : State) (i : Nat) : State :=
  let m := measureCell s i
  let sg : Int := (knownSign s i).getD 1
  let phi := ((thetaNom s i : Int) + sg * m.err - uOf s i) % 65536
  let s1 := mset (mset (mset s (bldAt i + 2) 2 phi.toNat) (bldAt i + 4) 2 (cellBarNom (fm s) i)) (bldAt i + 0xE) 2 (enc (picTemp s (i / 64)) 16)
  putCalMap (calCnt (tcoefUpdate s1 i) 3) 0x10 i true

/-- R238: calibration work runs at level 7, in its turn. -/
def calRun (s : State) (t : Nat) (f : State → State) : State :=
  kernelRun s t 7 (fun s =>
    let s1 := f s
    match coreFor s1 t with
    | some k => servedLevel s1 k 7
    | none => s1)

/-- R242: a measurement in a round, from the cell's next scan pair; a move of more than 0.1 K restarts it. -/
def passiveMeasure (s : State) (t i c0 c1 : Nat) : State :=
  match tfind s.cal.rounds t with
  | none => s
  | some r => calRun s t (fun s =>
    if 10 < (picTemp s t - r.2).natAbs then roundBegin s t
    else if passable s i ∧ !calMap s 0x10 i then roundCheck (passiveOne (seeOuts s i c0 c1) i) t
    else roundCheck s t)

/-- R231: PASSIVE_MEASUREMENT, with the photocurrents of the scan pair. -/
def execPassiveMeasurement (t : Fin 96) (c : Fin 64) (c0 c1 : Nat) (s : State) : Host.Outcome State Fault Refusal :=
  done s (passiveMeasure s t (64 * t + c) c0 c1)

/-- R242: ROUND_MAX: cells that are still not eligible are left out; CAL stands still in a die shut-down (R377). -/
def execRoundMax (t : Fin 96) (s : State) : Host.Outcome State Fault Refusal := done s (if dieShut s then s else roundCheck s t)

/-! ## Lantern paths (R240) -/

/-- A step of a path: position key and the raw state that it needs. -/
abbrev Need := Nat × Nat

/-- R240: through stages `s ..` of a Beneš stack: each needed line bit is set at the first stage of its dimension; the dimension
`dx` of the target's own stage is kept. Answers the steps and the line reached. -/
def benesPath (topo n off goal dx : Nat) : Nat → Nat → Nat → List Need × Nat
  | 0, _, x => ([], x)
  | k + 1, s, x =>
    let d := stageDim topo n s
    let cross := decide (d ≠ dx) && decide (bit x d ≠ bit goal d)
    let r := benesPath topo n off goal dx k (s + 1) (if cross then flip x d else x)
    ((posKey s (off + lineRow d x), b2n cross) :: r.1, r.2)

/-- A line of a cell's row in a stage of dimension `d`: the one with bit `d` clear. -/
def rowLine (d r : Nat) : Nat := r % 2 ^ d + 2 ^ (d + 1) * (r / 2 ^ d)

/-- R240, topology 3: along row `a` from column `b` to column `goal`. -/
def rowPath (ports a goal : Nat) : Nat → Nat → List Need
  | 0, _ => []
  | f + 1, b => if b = goal ∨ b = a then [] else (posKey (a + b) (a - (a + b + 1 - ports)), 0) :: rowPath ports a goal f ((b + 1) % ports)

/-- R240, topology 3: down column `b` from row `a` to row `goal`. -/
def colPath (ports b goal : Nat) : Nat → Nat → List Need
  | 0, _ => []
  | f + 1, a => if a = goal ∨ a = b then [] else (posKey (a + b) (a - (a + b + 1 - ports)), 0) :: colPath ports b goal f ((a + ports - 1) % ports)

/-- The distance along a ring of rows or columns. -/
def ringDist (n x y : Nat) : Nat := (y + n - x % n) % n

/-- R240: the steps of a path from a lantern west port to a cell; none where the cell is not reachable. -/
def lanternPath (s : State) (w i : Nat) : Option (List Need) :=
  let g := fm s
  let topo := mapTopo g
  let ports := mapPorts g
  let n := log2n ports
  let x := portLine g false w
  let sc := cellStage g i
  let r := cellRow g i
  if topo = 0 ∨ topo = 1 then
    let d := stageDim topo n sc
    let p := benesPath topo n 0 (rowLine d r) d sc 0 x
    if setBit p.2 d 0 = rowLine d r then some p.1 else none
  else if topo = 2 then
    if sc = 0 then (if x = r then some [] else none)
    else
      let now := stateNow s (ag (posTab g) (posKey 0 x)) % 2
      let pl := if sc = 2 * n then now else r / (ports / 2)
      let row := r - pl * (ports / 2)
      if sc = 2 * n then
        let p := benesPath 2 n (pl * (ports / 2)) r n (2 * n - 1) 1 x
        if p.2 = r then some ((posKey 0 x, pl) :: p.1) else none
      else
        let d := stageDim 2 n sc
        let p := benesPath 2 n (pl * (ports / 2)) (rowLine d row) d (sc - 1) 1 x
        if setBit p.2 d 0 = rowLine d row then some ((posKey 0 x, pl) :: p.1) else none
  else
    let a := r + (sc + 1 - ports)
    let b := sc - a
    let row := rowPath ports x b (2 * ports) ((x + 1) % ports)
    if a = x then some row
    else if (List.range 512).any (fun e => portPresent g true e && portLantern g true e && decide (portLine g true e = b)) &&
        decide (x ≠ b) && decide (ringDist ports a x < ringDist ports b x) then
      some (row ++ [(posKey (x + b) (x - (x + b + 1 - ports)), 1)] ++ colPath ports b a (2 * ports) ((x + ports - 1) % ports))
    else none

/-- The cells that carry a circuit in the state vector in force. -/
def carries (s : State) (i : Nat) : Bool := !(circuitsThrough s (forceVec s) s.bel.forceChart i).isEmpty

/-- R240: the first lantern port whose path changes only cells that carry no circuit: the port, and the changed cells with the
state that they need. -/
def lanternFor (s : State) (i : Nat) : Option (Nat × List (Nat × Nat)) :=
  (List.range 512).findSome? (fun w =>
    if portPresent (fm s) false w && portLantern (fm s) false w && bit (portLight s w) 31 &&
        decide (20 * presentPA s (i / 64) ≤ portLightP s w * 10000) then
      match lanternPath s w i with
      | some p =>
        let ch := (p.map (fun x => (ag (posTab (fm s)) x.1, x.2))).filter (fun x => decide (stateNow s x.1 % 2 ≠ x.2))
        if ch.all (fun x => cellUsable s x.1 && holdable s x.1 && !carries s x.1) then some (w, ch) else none
      | none => none
    else none)

/-! ## Sweeps (R232, R236) -/

/-- R247: SPAN and DWELL (ns), and SPAN_TIME of R236. -/
def sweepSpan (s : State) : Nat := max 256 (fget s Reg.CAL_SWEEP Reg.CAL_SWEEP_SPAN)
def dwellNs (s : State) : Nat := 1000 * max 1 (fget s Reg.CAL_SWEEP Reg.CAL_SWEEP_DWELL)
def spanTime (s : State) : Nat := 20 * dwellNs s + 16000

/-- R236: the rank of a due cell: 0 STALE, 1 no CAL, 2 and above the age of T_SWEEP; none where it is not due. A cell that a
descriptor asked for is due. -/
def dueRank (s : State) (i : Nat) : Option Nat :=
  let a := bldAt i
  let last := mget s (a + 0x18) 4
  let age := fget s Reg.CAL_AGE Reg.CAL_AGE_SWEEP_AGE
  if bit (mbyte s a) 1 then some 0
  else if !calOf s a then some 1
  else if s.cal.asked.contains i ∨ (0 < age ∧ 60 * age < (secOf s.now + 2 ^ 32 - last) % 2 ^ 32) then some (2 + last)
  else none

/-- R236: sweeps that run in a tile, and the limit PAR. -/
def sweepsIn (s : State) (t : Nat) : Nat := (s.cal.sweeps.filter (fun e => decide (e.1 / 64 = t))).length
def sweepPar (s : State) : Nat := max 1 (min 4 (fget s Reg.CAL_CTRL Reg.CAL_CTRL_PAR))

/-- R240: the output of a cell that lantern light from a west port reaches along a path, with the cell in its present state. -/
def lanternSide (s : State) (w : Nat) (path : List (Nat × Nat)) (i : Nat) : Nat :=
  let v := BitVec.ofNat 12288 (path.foldl (fun v x => putBit v (2 * x.1) (decide (x.2 % 2 = 1))) (forceVec s).toNat)
  ((linePaths s v).findSome? (fun p => if p.1 = portLine (fm s) false w then (p.2.find? (fun h => decide (h.1 = i))).map (fun h => h.2.2) else none)).getD 0

/-- R232: the drive phase of a sweep's step: points 0 to 8 of the arm driven first, its hand-over at 9, points 10 to 18 of the other, the
return at 19. -/
def sweepU (s : State) (i arm k : Nat) : Int :=
  let u0 := driveU s i
  let other := if arm = 0 then u0 - 65536 else u0 + 65536
  let base := if k < 9 then u0 else other
  let ofs : Int := if k = 9 then 0 else ((if k < 9 then (k : Int) - 4 else (k : Int) - 14) * sweepSpan s) / 8
  if k = 19 then u0 else base + ofs

/-- The drive phase before a sweep's step. -/
def sweepFrom (s : State) (i arm k : Nat) : Int := if k = 0 then driveU s i else sweepU s i arm (k - 1)

/-- R233: the ranges of a cell's arms for a drive phase. -/
def rangesFor (s : State) (i : Nat) (u : Int) (arm : Nat) : Nat := rangeFor s (2 * i + arm) (armU arm u) (etaUse s i arm)

/-- R233: every step of a sweep keeps the victims within BEL_LAND.EXCUR; a sweep that could not waits (notes/assumptions/100). -/
def sweepFits (s : State) (i arm : Nat) : Bool :=
  (List.range 20).all (fun k => stepFits s i (rangesFor s i (sweepU s i arm k)) (sweepFrom s i arm k) (sweepU s i arm k))

/-- R236: where a cell may be swept now: in recess, or by lantern with its path. -/
def sweepWay (s : State) (i : Nat) : Option (Option (Nat × List (Nat × Nat))) :=
  if !holdable s i ∨ modeBit s i 4 ∨ s.cal.waits.any (fun e => decide (e.1 = i)) ∨ !sweepFits s i (b2n (decide (driveU s i < 0))) then none
  else if inRecess s i (spanTime s) then
    (if (List.range 64).any (fun c => wrapCan s (64 * (i / 64) + c) || modeBit s (64 * (i / 64) + c) 4) then none else some none)
  else if fget s Reg.CAL_CTRL Reg.CAL_CTRL_LANTERN_EN = 1 ∧ !carries s i then
    (match lanternFor s i with
    | some x => some (some x)
    | none => none)
  else none

/-- R236: a cell is the first of its tile's due cells that may be swept now. -/
def sweepFirst (s : State) (i : Nat) : Bool :=
  match dueRank s i with
  | none => false
  | some r => (List.range 64).all (fun c =>
      let j := 64 * (i / 64) + c
      decide (j = i) || (match dueRank s j with
        | some q => decide (r < q ∨ (r = q ∧ i < j)) || (sweepWay s j).isNone
        | none => true))

/-- R123, R187, R233: a cell under sweep goes from one drive phase to another, which its record does not take over, with the counter-loads of
its victims. -/
def sweepLoad (s : State) (i : Nat) (u0 u1 : Int) : State :=
  let t := i / 64
  let c := counterLoads s i u0 u1
  loadCells (pendDriveAt (loadCore (pendDriveAt c.1 i u1 true) t) i u1 false) t c.2

/-- R239: a bell at `t` with a chart: it truncates a span, or changes a swept cell or a cell of a lantern path. -/
def abortForBell (s : State) (t slot : Nat) : State :=
  if s.cal.sweeps.isEmpty then s else
  let v := (solve (fm s) (fun i => bit (faultSet s).toNat i) (chartOf s slot)).st
  let changes (i : Nat) : Bool := decide (stateOf v i ≠ stateNow s i)
  let cuts (w : Sweep) : Bool := match w.span with
    | some e => decide (t < e + 2000)
    | none => false
  abortWhere s (fun i w => cuts w || changes i || w.path.any changes) true

/-- R233: the victims of a channel whose KAPPA a power step of at least 5 mW refreshes. -/
def kappaVictims (s : State) (h : Nat) (dp : Int) : List (Nat × Int × Int) :=
  if fget s Reg.CAL_CTRL Reg.CAL_CTRL_KAPPA_EN = 0 ∨ dp.natAbs < 5 * 65536 then [] else
  (victimsOf s h).filterMap (fun vj =>
    let v := vj.1
    if vj.2 < 8 ∧ holdable s v ∧ lightOf s v ∧ modeOf s v = 4 ∧ hr s v 0x17 1 ≤ par s (v / 64) 7 1 then
      match knownSign s v with
      | some sg => some (8 * v + vj.2, sg * (measureCell s v).err - uOf s v, dp)
      | none => none
    else none)

/-- R233: one refresh: Δφ is the victim's change of error less the counter-load it took. -/
def kappaRefresh (s : State) (x : Nat × Int × Int) : State :=
  let v := x.1 / 8
  let j := x.1 % 8
  match knownSign s v with
  | none => s
  | some sg =>
    let dphi := sg * (measureCell s v).err - uOf s v - x.2.1
    let km := (16 * 65536 * dphi).tdiv x.2.2
    let a := bldAt v
    let s1 := if bit (mbyte s a) 3 then s
      else mset ((List.range (min 8 (cellCplN (fm s) v))).foldl (fun s n =>
        mset s (a + 0x20 + 2 * n) 2 (enc (cplKappa (fm s) (cellCplFirst (fm s) v + n)) 16)) s) a 1 (putBit (mbyte s a) 3 true)
    let k := sext (mget s1 (a + 0x20 + 2 * j) 2) 16
    mset s1 (a + 0x20 + 2 * j) 2 (enc (satS (k + (km - k) / 4) 16) 16)

/-- R172, R232, R239: a step of a sweep loaded: the hand-over counts, the first point starts the TAU bursts, the return codes are those that
CAL keeps. -/
def sweepStep (s : State) (i k : Nat) : State :=
  match tfind s.cal.sweeps i with
  | none => s
  | some w =>
    let p (s : State) (h : Nat) : Int := powOf s h (chRange s h) (codeOf s h)
    let u0 := sweepFrom s i w.arm k
    let u1 := sweepU s i w.arm k
    let s1 := if k = 19 then (let c := counterLoads s i u0 u1; loadBack (loadCells c.1 (i / 64) c.2) w.back) else sweepLoad s i u0 u1
    let s2 := if k = 9 then sumBump (hbump s1 i 0x1E 1) (i / 64) 0x1C else s1
    let tgt (h : Nat) : Int := powOf s2 h (chRange s2 h) (chanOf s2 h).target
    let vs := [2 * i, 2 * i + 1].flatMap (fun h => kappaVictims s h (tgt h - p s h))
    { s2 with cal := { s2.cal with sweeps := tins s2.cal.sweeps i { ((tfind s2.cal.sweeps i).getD w) with
        point := k, due := s2.up + dwellNs s2, vict := vs, tauAt := if k = 0 then s2.up else w.tauAt } } }

/-- R268: the pass of a sweep at a free entry; its peak and energy are left to the kernel (free values). -/
def sweepPass (s : State) (i kind : Nat) : State × Option Nat :=
  let e := ((List.range 512).find? (fun j => (passAt s (4096 + j)).isNone)).getD 0 + 4096
  let d := draw s
  let d2 := draw d.2
  let r := brokerAsk d2.2 e kind 0 (i / 64) (Config.planPeak d.1).toNat (Config.planEnergy d2.1).toNat (nowNs s) (spanTime s)
  (r.1, if r.2 = 0 then some e else none)

/-- The end of the recess span that a swept cell uses, in ns of TAI. -/
def recessEnd (s : State) (i : Nat) : Nat :=
  let ws := circuitsThrough s (forceVec s) s.bel.forceChart i
  let ends := (s.bel.openSpans.filter (fun x => x.2.begun && !x.2.ended && ws.any (fun w => bit x.2.mask.toNat w))).map
    (fun x => x.1 + x.2.ofs + x.2.len)
  ends.foldl min ((nextAfter s (nowNs s)).elim (2 ^ 80) (fun n => n.t - 2000))

/-- R376, R377, R387: new sweeps may begin: no die shut-down, no restart window, no enforced level 2. -/
def sweepsAllowed (s : State) : Bool :=
  !dieShut s && !s.restart.inWindow &&
  !(decide (2 ≤ fget s Reg.THM_STATUS Reg.THM_STATUS_LEVEL) && decide (fget s Reg.THM_STATUS Reg.THM_STATUS_ENFORCED = 1))

/-- R232, R236, R240: a sweep or steer starts on a due cell. -/
def sweepBegin (s : State) (i : Nat) : State :=
  if !sweepsAllowed s ∨ fget s Reg.CAL_CTRL Reg.CAL_CTRL_SWEEP_EN = 0 ∨ sweepPar s ≤ sweepsIn s (i / 64) ∨ !sweepFirst s i then s
  else match sweepWay s i with
  | none => s
  | some way =>
    let r := sweepPass s i (if way.isSome then 2 else 1)
    match r.2 with
    | none => { r.1 with cal := { r.1.cal with waits := tins r.1.cal.waits i (r.1.up + 100000) } }
    | some e =>
      let path := match way with
        | some x => x.2
        | none => []
      let cells := i :: path.map (·.1)
      let side := match way with
        | some x => lanternSide s x.1 x.2 i
        | none => 0
      let w := Sweep.mk (b2n (decide (driveU r.1 i < 0))) side 0 [] 0 (some e) (cells.flatMap (fun j => [backOf r.1 (2 * j), backOf r.1 (2 * j + 1)]))
        (match way with
          | some x => x.1 + 1
          | none => 0) (path.map (·.1)) (match way with
          | some _ => none
          | none => some (recessEnd r.1 i)) one 0 0 false [] []
      let s1 := cells.foldl (fun s j => putCalMap s 0x18 j true) r.1
      let s2 := path.foldl (fun s x => sweepLoad s x.1 (driveU s x.1) (driveFor s x.1 x.2 (picTemp s (x.1 / 64)))) s1
      let s3 := if way.isSome then calCnt s2 7 else s2
      sweepStep { s3 with cal := { s3.cal with sweeps := tins s3.cal.sweeps i w } } i 0

/-- R238: a sweep starts at level 7. -/
def sweepStart (s : State) (i : Nat) : State := calRun s (i / 64) (fun s => sweepBegin s i)

/-- R232: SWEEP. -/
def execSweep (t : Fin 96) (c : Fin 64) (s : State) : Host.Outcome State Fault Refusal := done s (sweepStart s (64 * t + c))

/-- R268: PASS_REQUEST_RETRY. -/
def passRetry (s : State) (i : Nat) : State :=
  match tfind s.cal.waits i with
  | some d => if d ≤ s.up then sweepStart { s with cal := { s.cal with waits := tdel s.cal.waits i } } i else s
  | none => s

/-- R268: PASS_REQUEST_RETRY. -/
def execPassRequestRetry (t : Fin 96) (c : Fin 64) (s : State) : Host.Outcome State Fault Refusal := done s (passRetry s (64 * t + c))

/-! ## The fit (R232) -/

/-- Sums of a fit over points (P in 2^-16 mW, signed e). -/
def fitSums (l : List (Nat × Int)) : Int × Int × Int × Int × Int :=
  l.foldl (fun a x => (a.1 + x.1, a.2.1 + x.2, a.2.2.1 + (x.1 : Int) * x.1, a.2.2.2.1 + (x.1 : Int) * x.2, a.2.2.2.2 + x.2 * x.2)) (0, 0, 0, 0, 0)

/-- A line through nine points: N and D of the slope, its intercept product and the scaled residual (E D − N²); none without a
positive slope. The zero is η P_z = (N Sx − D Sy) / (9 D). -/
def fitLine (l : List (Nat × Int)) : Option (Int × Int × Int × Int) :=
  let q := fitSums l
  let n : Int := l.length
  let dd := n * q.2.2.1 - q.1 * q.1
  let nn := n * q.2.2.2.1 - q.1 * q.2.1
  let ee := n * q.2.2.2.2 - q.2.1 * q.2.1
  if dd ≤ 0 ∨ nn ≤ 0 then none else some (nn, dd, nn * q.1 - dd * q.2.1, ee * dd - nn * nn)

/-- R232: |e| = η |P − P_z| by least squares: the split of the points, in order of P, between the falling and the rising side with
the least residual. -/
def fitArm (pts : List (Nat × Nat)) : Option (Int × Int × Int × Int) :=
  let l := sortBy (fun x => (x.1 : Int)) pts
  let tries := (List.range (l.length + 1)).filterMap (fun j =>
    fitLine ((List.range l.length).map (fun k => let x := l.getD k (0, 0); (x.1, if k < j then -(x.2 : Int) else x.2))))
  tries.foldl (fun b x => match b with
    | none => some x
    | some y => if x.2.2.2 * y.2.1 < y.2.2.2 * x.2.1 then some x else some y) none

/-- R232: what the fit of an arm gives: η in 1/16 turns16 per mW, and η P_z in turns16, where the residual is below 64 turns16 rms
and η within 0.5 to 2 times the map's. -/
def armResult (s : State) (i arm : Nat) (pts : List (Nat × Nat)) : Option (Nat × Int) :=
  match fitArm pts with
  | none => none
  | some f =>
    let eta := ((2 * 16 * 65536 * f.1 + f.2.1) / (2 * f.2.1)).toNat
    let nom := cellEta (fm s) i arm
    if f.2.2.2 < 4096 * 81 * f.2.1 ∧ nom ≤ 2 * eta ∧ eta ≤ 2 * nom then some (eta, f.2.2.1 / (9 * f.2.1)) else none

/-- R235: a rejected measurement; three in a row are CAL_SUSPECT and make the cell STALE. -/
def sweepReject (s : State) (i : Nat) : State :=
  let a := calS (i / 64) + 0x2C
  let s1 := mset (calCnt s 6) a 2 (min (mget s a 2 + 1) 0xFFFF)
  let n := tget s1.cal.rejs 0 i + 1
  let s2 := { s1 with cal := { s1.cal with rejs := tset s1.cal.rejs 0 i (if n = 3 then 0 else n) } }
  if n = 3 then setStale (report s2 srcCal 0x22 i 0) i true else s2

/-- R232: an accepted sweep enters the building table. -/
def sweepAccept (s : State) (i : Nat) (w : Sweep) (en es : Nat) (pn ps : Int) : State :=
  let a := bldAt i
  let t := i / 64
  let d := sext (enc (ps - pn) 16) 16
  let wasStale := bit (mbyte s a) 1
  let s1 := mset (mset (mset s (a + 2) 2 (enc (pn + d / 2) 16)) (a + 6) 2 (min en 65535)) (a + 8) 2 (min es 65535)
  let s2 := mset (mset s1 (a + 0xE) 2 (enc (picTemp s t) 16)) (a + 0x14) 2 (extDb w.ext)
  let s3 := mset (mset s2 (a + 0x16) 2 (min (mget s2 (a + 0x16) 2 + 1) 0xFFFF)) (a + 0x18) 4 (secOf s2.now)
  let s4 := if w.tauPts.length = 4 then mset s3 (a + 0xA) 2 (Config.tauFit w.tauPts).toNat else s3
  let s5 := mset (mset s4 (a + 4) 2 (cellBarNom (fm s) i)) a 1 (putBit (putBit (putBit (mbyte s4 a) 0 true) 1 false) 2 (decide (0 < w.port)))
  let s6 := putCalMap (putCalMap (calCnt (tcoefUpdate s5 i) 4) 8 i true) 0x20 i false
  let n := tget s6.cal.accs 0 t + 1
  let s7 := { s6 with cal := { s6.cal with accs := tset s6.cal.accs 0 t n, rejs := tset s6.cal.rejs 0 i 0 } }
  if 8 ≤ n ∨ wasStale then calReady s7 t else s7

/-- R232: both arms' fits judged. -/
def sweepJudge (s : State) (i : Nat) (w : Sweep) : State :=
  let first := w.pts.take 9
  let second := w.pts.drop 9
  let north := if w.arm = 0 then first else second
  let south := if w.arm = 0 then second else first
  match armResult s i 0 north, armResult s i 1 south with
  | some n, some z =>
    let th := thetaNom s i
    let pn := ((th : Int) - n.2) % 65536
    let ps := ((th : Int) + z.2 - 65536) % 65536
    if (sext (enc (pn - ps) 16) 16).natAbs ≤ 4 * fget s Reg.CAL_SWEEP Reg.CAL_SWEEP_AGREE then sweepAccept s i w n.1 z.1 pn ps
    else sweepReject s i
  | _, _ => sweepReject s i

/-- R232: x and |e| of a swept cell from mean codes of its outputs; a lantern lights one input. -/
def sweepErr (s : State) (i : Nat) (w : Sweep) (c0 c1 : Nat) : Nat × Nat :=
  let cur (o c : Nat) : Nat := refer (c * ifsPA (gainOf s (2 * i + o)) * one / 4096) (cellTap (fm s) i o)
  let o0 := cur 0 c0
  let o1 := cur 1 c1
  let m := measureCell s i
  let os := if (if w.port = 0 then m.out else w.side) = 0 then o0 else o1
  let ow := o0 + o1 - os
  let hi := if w.port = 0 then m.ps else o0 + o1
  let lo := if w.port = 0 then m.pw else 0
  let den := (o0 + o1) * (hi - lo)
  let x := if den = 0 then 0 else min one ((ow * hi - lo * os) * one / den)
  (x, asinSqrt x)

/-- R232: the mean of the last four scan pairs of a dwell. -/
def meanCode (l : List Nat) : Nat := let m := l.drop (l.length - 4); if m.isEmpty then 0 else m.foldl (· + ·) 0 / m.length

/-- R232, R233: a dwell ends: KAPPA of the victims, the point, and the next step, the fit, or the end. -/
def dwellEnd (s : State) (i : Nat) (pairs : List (Nat × Nat)) : State :=
  match tfind s.cal.sweeps i with
  | none => s
  | some w =>
    if s.up < w.due then s
    else calRun s (i / 64) (fun s =>
      let s1 := w.vict.foldl kappaRefresh s
      let k := w.point
      if k = 19 then sweepGone (sweepJudge s1 i w) i
      else if k = 9 then sweepStep s1 i 10
      else
        let arm := if k < 9 then w.arm else 1 - w.arm
        let h := 2 * i + arm
        let e := sweepErr s1 i w (meanCode (pairs.map (·.1))) (meanCode (pairs.map (·.2)))
        let w1 := { w with pts := w.pts ++ [(powOf s1 h (chRange s1 h) (codeOf s1 h), e.2)], ext := min w.ext e.1 }
        sweepStep { s1 with cal := { s1.cal with sweeps := tins s1.cal.sweeps i w1 } } i (k + 1))

/-- R232: DWELL. -/
def execDwell (t : Fin 96) (c : Fin 64) (pairs : List (BitVec 12 × BitVec 12)) (s : State) : Host.Outcome State Fault Refusal :=
  done s (dwellEnd s (64 * t + c) (pairs.map (fun p => (p.1.toNat, p.2.toNat))))

/-- R238: the kernel asks for the TAU bursts that are due on the weak outputs of the cells under sweep (notes/assumptions/104). -/
def tauAsks (s : State) : State :=
  s.cal.sweeps.foldl (fun s e => if tauDue s e.2 then tauAsk s e.1 (1 - (if e.2.port = 0 then (measureCell s e.1).out else e.2.side)) else s) s

/-! ## The swap (R243, R244) -/

/-- R244: a cell of a swapped tile: an ember cell takes the new entry at once, a held cell keeps the old efficiencies until the
next fire. `en` and `es` are the efficiencies before the swap. -/
def swapCell (s : State) (i en es : Nat) : State :=
  let m := modeOf s i
  let s1 := hw (setFlagBit s i 6 (calOf s (actAt i))) i 0x12 2 (if calOf s (actAt i) then mget s (actAt i + 0xC) 2 else par s (i / 64) 0x20 2)
  if m = 1 then
    if calOf s1 (actAt i) ∧ holdable s1 i then
      let u := driveFor s1 i (stateNow s1 i) (picTemp s1 (i / 64))
      moveCell (hw (hw s1 i 0xC 4 (enc u 18)) i 0x10 2 (enc (picTemp s1 (i / 64)) 16)) i (u - (uOf s1 i + 65536 * (hcell s1 i).carry))
    else s1
  else if 2 ≤ m ∧ m ≤ 5 then setHcell s1 i { (hcell s1 i) with held := some (en, es) }
  else s1

/-- R243: a tile's building table becomes its active table. -/
def swapTile (s : State) (t : Nat) : State :=
  let olds := (List.range 64).map (fun c => (etaUse s (64 * t + c) 0, etaUse s (64 * t + c) 1))
  let s1 := { s with mem := copyRange s.mem (bldAt (64 * t)) 0x1000 s.mem (actAt (64 * t)) }
  let s2 := ctxPut s1 t 0 s1.mem (actAt (64 * t)) 0x1000
  let a := calS t
  let s3 := mset (mset (mset s2 (a + 6) 2 (enc (picTemp s2 t) 16)) a 4 (mget s2 a 4 + 1)) (a + 0x28) 4 (secOf s2.now)
  let s4 := mset (mset s3 (a + 8) 8 0) (a + 4) 1 (if (tfind s3.cal.rounds t).isSome then 1 else 0)
  let s5 := { s4 with cal := { s4.cal with accs := tset s4.cal.accs 0 t 0 } }
  let s6 := (List.range 64).foldl (fun s c => if cellPresent (fm s) (64 * t + c) then
    swapCell s (64 * t + c) (olds.getD c (0, 0)).1 (olds.getD c (0, 0)).2 else s) s5
  wakeTile s6 t 7

/-- R243: every ready tile swaps, SWAP_INT after the swap before. -/
def calSwap (s : State) : State :=
  let okAt := match s.cal.lastSwap with
    | some x => decide (x + 10000 * fget s Reg.CAL_TRIG Reg.CAL_TRIG_SWAP_INT ≤ s.up)
    | none => true
  if !calOn s ∨ s.cal.ready.isEmpty ∨ !okAt then s
  else
    let ts := s.cal.ready
    let s0 := keepInputs s
    let s1 := ts.foldl swapTile { s0 with cal := { s0.cal with ready := [], lastSwap := some s.up } }
    let s2 := rset (calCnt s1 2) Reg.CAL_LAST_SWAP (BitVec.ofNat 32 (secOf s1.now))
    let s3 := (List.range 3).foldl (fun s k => rset s (Reg.CAL_SWAP_TILES k)
      (BitVec.ofNat 32 ((List.range 32).foldl (fun n b => putBit n b (ts.contains (32 * k + b))) 0))) s2
    journalDirty (invalAll s3 false 4)

/-- R243: CALIBRATION_SWAP. -/
def execCalibrationSwap (s : State) : Host.Outcome State Fault Refusal := done s (calSwap s)

/-! ## Descriptors (R247, R316) -/

/-- A CAL descriptor of a kind; one whose kind is not defined is refused with the first. -/
def isCal (k : Nat) (_ : State) (e : Entry) : Bool := decide (eType e = tyCal ∧ (eKind e = k ∨ (k = 0 ∧ 3 < eKind e)))

/-- R317: a CAL names used tiles only. -/
def calArgs (s : State) (e : Entry) : Bool :=
  if eKind e = 0 then (eTiles e).all (tileUsed (fm s)) else (eCells e).all (fun i => tileUsed (fm s) (i / 64))

/-- R247: a CAL past the journal. -/
def calAdmit (act : State → Entry → State) (s : State) (e : Entry) : State :=
  if !calArgs s e then notAccepted (refuse s e 0x601 0 0) e
  else
    let a := accepted s e
    answer (act a.1 e) e 0 0 0

/-- R242: ROUND. -/
def execRound (s : State) : Host.Outcome State Fault Refusal :=
  done s (admitIf s (isCal 0) (sharedGate (calAdmit (fun s e => (eTiles e).foldl roundStart s))))

/-- R247: SWEEP_REQUEST: the listed cells are due; R236 says when they are swept. -/
def execSweepRequest (s : State) : Host.Outcome State Fault Refusal :=
  done s (admitIf s (isCal 1) (sharedGate (calAdmit (fun s e => { s with cal := { s.cal with asked := (s.cal.asked ++ eCells e).eraseDups } }))))

/-- R239, R245: rounds in progress are given up. -/
def roundsDrop (s : State) (p : Nat → Bool) : State :=
  (s.cal.rounds.filter (fun r => p r.1)).foldl (fun s r =>
    mset { s with cal := { s.cal with rounds := tdel s.cal.rounds r.1 } } (calS r.1 + 4) 1 (if s.cal.ready.contains r.1 then 2 else 0)) s

/-- R239: ABORT: the work on the listed cells; none listed is all calibration work, rounds included. -/
def execAbort (s : State) : Host.Outcome State Fault Refusal :=
  done s (admitIf s (isCal 2) (sharedGate (calAdmit (fun s e =>
    let hit (j : Nat) : Bool := (eCells e).isEmpty || (eCells e).contains j
    let s1 := abortWhere (if (eCells e).isEmpty then roundsDrop s (fun _ => true) else s) (fun i w => hit i || w.path.any hit) true
    { s1 with cal := { s1.cal with asked := s1.cal.asked.filter (fun j => !hit j), waits := s1.cal.waits.filter (fun x => !hit x.1) } }))))

/-- R247: MARK_STALE. -/
def execMarkStale (s : State) : Host.Outcome State Fault Refusal :=
  done s (admitIf s (isCal 3) (sharedGate (calAdmit (fun s e => (eCells e).foldl (fun s i => setStale s i true) s))))

end Sys2Proof.Machine
end

