-- ==== Sys2Proof/Machine/SolveRun.lean ====
section
/-! DEFINITION. Solves in the pipeline (R82, R106, R107, R112): lanes, cross-check duplicates and route checks. -/

namespace Sys2Proof.Machine

/-- R26, R27, R391: the pipeline runs: no restart window, no die shut-down, not in DOZE or NAP. -/
def pipeRuns (s : State) : Bool :=
  s.boot.powered && !s.restart.inWindow && decide (fget s Reg.THM_STATUS Reg.THM_STATUS_DIE_SHUT = 0) &&
  decide (fget s Reg.GLB_PSTATE Reg.GLB_PSTATE_STATE < 2)

/-- R90: bells that the pipeline works on: those after a restart window, and every repair fire. -/
def windowed (s : State) (b : Bell) : Bool := !b.repair && decide (b.t ≤ s.bel.skipTo)
def liveOrder (s : State) : List Bell := (fireOrder s).filter (fun b => !windowed s b)

/-- R82: the run-ahead. -/
def runAhead (s : State) : Nat := let n := fget s Reg.BEL_CTRL Reg.BEL_CTRL_RUNAHEAD; if n = 0 then 1 else min n 8

/-- The first bells up to a count; repair fires are taken along. -/
def takeBells : Nat → List Bell → List Bell
  | _, [] => []
  | n, b :: r => if b.repair then b :: takeBells n r else match n with
    | 0 => []
    | m + 1 => b :: takeBells m r

/-- R82: the bells within the run-ahead. -/
def aheadBells (s : State) : List Bell := takeBells (runAhead s) (liveOrder s)

/-! ## Lanes -/

def laneOf (s : State) (l : Nat) : Option Lane := if l = 0 then s.bel.laneA else s.bel.laneB
def setLane (s : State) (l : Nat) (x : Option Lane) : State :=
  if l = 0 then { s with bel := { s.bel with laneA := x } } else { s with bel := { s.bel with laneB := x } }
def laneOk (s : State) (l : Nat) : Bool := rbit s Reg.RTS_STATUS l
def laneIdle (s : State) (l : Nat) : Bool := laneOk s l && (laneOf s l).isNone
def laneKind (s : State) (l : Nat) : Option Nat := (laneOf s l).map (fun x => x.kind)

/-- R106: the bells and repairs whose solve waits, in order of deadline. -/
def waitingSolves (s : State) : List Bell :=
  (aheadBells s).filter (fun b => decide (b.st = 1) &&
    [0, 1].all (fun l => match laneOf s l with
      | some x => !(decide (x.kind = 0 ∧ x.bell = b.idx))
      | none => true))

/-- R107: a ready solve abandons a duplicate; the next solve is duplicated in its place. -/
def dropDuplicate (s : State) : State :=
  [0, 1].foldl (fun s l => if laneKind s l = some 2 then { (setLane s l none) with bel := { (setLane s l none).bel with xcheckDue := true } } else s) s

/-- R112: a solve that finds no idle lane abandons the route check, which starts again later. -/
def dropCheck (s : State) : State := [0, 1].foldl (fun s l => if laneKind s l = some 1 then setLane s l none else s) s

/-- R80, R110: the chart that a bell fires, with its slot; a repair fire's is the one in force at its instant. -/
def chartFor (s : State) (b : Bell) : BitVec 8192 × Nat :=
  if b.repair then
    match (liveOrder s).reverse.find? (fun x => !x.repair && decide (x.t < b.t)) with
    | some p => (chartOf s p.slot, p.slot)
    | none => (s.bel.forceChart, s.bel.forceSlot.getD 0x400)
  else (chartOf s b.slot, b.slot)

/-- R66, R106: a solve starts on a lane with a snapshot of the fault set, as it was at the bell's cut-off at the latest; every 256th solve
of a bell or a repair, duplicates and route checks not counted, is to be duplicated (R107, notes/assumptions/89). -/
def startSolve (s : State) (l : Nat) (b : Bell) : State :=
  let c := chartFor s b
  let n := s.bel.solveCount + 1
  let s1 := setLane s l (some (Lane.mk 0 b.idx s.up (faultSet (inputsOf s b)) c.2 c.1))
  { s1 with bel := { s1.bel with solveCount := n,
                                 xcheckDue := decide (fget s Reg.RTS_CTRL Reg.RTS_CTRL_XCHECK = 1) && (s1.bel.xcheckDue || decide (n % 256 = 0)) } }

/-- R106: SOLVE_START: the waiting solve with the earliest deadline takes lane 0 where it is free. -/
def solveStart (s : State) : State :=
  match waitingSolves s with
  | [] => s
  | b :: _ =>
    if !pipeRuns s then s
    else
      let s1 := dropDuplicate s
      if laneIdle s1 0 then startSolve s1 0 b
      else if laneIdle s1 1 then startSolve s1 1 b
      else
        let s2 := dropCheck s1
        if laneIdle s2 0 then startSolve s2 0 b else if laneIdle s2 1 then startSolve s2 1 b else s

/-- R106: SOLVE_START. -/
def execSolveStart (s : State) : Host.Outcome State Fault Refusal := done s (solveStart s)

/-- R106: the work of a lane is complete 5.1 µs after its start. -/
def laneDue (s : State) (l kind : Nat) : Option Lane :=
  match laneOf s l with
  | some x => if x.kind = kind ∧ x.at_ + 5100 ≤ s.up then some x else none
  | none => none

/-- R107: a lane marked failed. -/
def failLane (s : State) (l : Nat) : State :=
  if laneOk s l then fset (rput s Reg.RTS_STATUS l false) Reg.BEL_STATUS Reg.BEL_STATUS_LANES (fget s Reg.BEL_STATUS Reg.BEL_STATUS_LANES - 1)
  else s

/-- R114: a delivered solve counted. -/
def countSolve (s : State) (l : Nat) (x : Solution) : State :=
  let s1 := bump (bump s (Reg.RTS_CNT l)) (Reg.RTS_CNT (1 + x.pass))
  if x.unroute.isEmpty then s1 else bump s1 (Reg.RTS_CNT 6)

/-- The solution of a lane's work. -/
def laneSol (s : State) (x : Lane) : Solution := solve (fm s) (fun i => bit x.fault.toNat i) x.chart

/-- R106, R107: a solve is delivered, or its trace check fails the lane and the solve waits again. -/
def solveDone (s : State) (l : Nat) (bad : Option Nat) : State :=
  match laneDue s l 0 with
  | none => s
  | some x =>
    let s1 := setLane s l none
    match bad with
    | some w => report (bump (failLane s1 l) (Reg.RTS_CNT 9)) (srcRts l) 0x38 x.slot w
    | none =>
      let sol := laneSol s x
      match bellAt s1 x.bell with
      | some b => putBell (countSolve s1 l sol) { b with st := 2, sol := some sol }
      | none => countSolve s1 l sol

/-- R106: SOLVE_COMPLETE. -/
def execSolveComplete (l : Fin 2) (traceFail : Option (Fin 512)) (s : State) : Host.Outcome State Fault Refusal :=
  done s (solveDone s l (traceFail.map (·.val)))

/-- R107: XCHECK_DUPLICATE: the duplicate starts with its original on the idle other lane while nothing waits. -/
def xcheckStart (s : State) : State :=
  if !s.bel.xcheckDue ∨ !(waitingSolves s).isEmpty ∨ !s.bel.checks.isEmpty then s
  else match [0, 1].find? (fun l => match laneOf s l with
      | some x => decide (x.kind = 0 ∧ x.at_ = s.up) && laneIdle s (1 - l)
      | none => false) with
    | some l =>
      let s1 := setLane s (1 - l) ((laneOf s l).map (fun x => { x with kind := 2 }))
      { s1 with bel := { s1.bel with xcheckDue := false } }
    | none => s

/-- R107: XCHECK_DUPLICATE. -/
def execXcheckDuplicate (s : State) : Host.Outcome State Fault Refusal := done s (xcheckStart s)

/-- R107: XCHECK_COMPLETE: a mismatch names the failing lane and the first differing cell. -/
def xcheckDone (s : State) (bad : Option (Nat × Nat)) : State :=
  match [0, 1].find? (fun l => (laneDue s l 2).isSome) with
  | none => s
  | some l =>
    let slot := ((laneOf s l).map (fun x => x.slot)).getD 0x400
    let s1 := setLane s l none
    match bad with
    | some (f, c) => report (bump (failLane s1 f) (Reg.RTS_CNT 9)) (srcRts f) 0x39 slot c
    | none => s1

/-- R107: XCHECK_COMPLETE. -/
def execXcheckComplete (bad : Option (Fin 2 × Fin 6144)) (s : State) : Host.Outcome State Fault Refusal :=
  done s (xcheckDone s (bad.map (fun x => (x.1.val, x.2.val))))

/-! ## Route checks (R112) -/

/-- R319: the record of a route check. -/
def checkRec (s : State) (c : Check) (status aux detail : Nat) : State :=
  pushRec s { dst := c.src, order := c.order, status := status, typ := c.typ, kind := 0, sqIndex := c.idx, aux := aux,
              sec := secOf c.tIn, ns := nsOf c.tIn, detail := detail, owed := true, reserved := false }

/-- A refused check leaves the queue; the refusal is counted. -/
def checkRefuse (s : State) (c : Check) (status : Nat) : State :=
  let s1 := match refuseIdx status with
    | some k => bump s (Reg.BEL_REFUSE k)
    | none => s
  checkRec s1 c status 0 0

/-- R112, R376: ROUTE_CHECK_START: the oldest check starts on an idle lane, lane 1 where both are, while no solve waits. -/
def checkStart (s : State) : State :=
  match s.bel.checks with
  | [] => s
  | c :: rest =>
    if !pipeRuns s ∨ !(waitingSolves s).isEmpty ∨ [0, 1].any (fun l => decide (laneKind s l = some 1)) ∨
       (2 ≤ fget s Reg.THM_STATUS Reg.THM_STATUS_LEVEL ∧ fget s Reg.THM_STATUS Reg.THM_STATUS_ENFORCED = 1) then s
    else
      let s1 := dropDuplicate s
      let x := Lane.mk 1 0 s.up (faultSet s) c.slot (chartOf s c.slot)
      if !laneIdle s1 1 && !laneIdle s1 0 then s
      else if !loaded s c.slot then checkRefuse { s with bel := { s.bel with checks := rest } } c 0x203
      else if laneIdle s1 1 then setLane s1 1 (some x) else setLane s1 0 (some x)

/-- R112: ROUTE_CHECK_START. -/
def execRouteCheckStart (s : State) : Host.Outcome State Fault Refusal := done s (checkStart s)

/-- R107, R112: ROUTE_CHECK_COMPLETE: the result area and the record; or the trace fails the lane, and the check starts again. -/
def checkDone (s : State) (bad : Option Nat) : State :=
  match [0, 1].find? (fun l => (laneDue s l 1).isSome), s.bel.checks with
  | some l, c :: rest =>
    match laneOf s l, bad with
    | none, _ => s
    | some x, some w => if pipeRuns s then report (bump (failLane (setLane s l none) l) (Reg.RTS_CNT 9)) (srcRts l) 0x38 x.slot w else s
    | some x, none =>
      if !pipeRuns s then s else
      let sol := laneSol s x
      let s1 := countSolve { (setLane s l none) with bel := { (setLane s l none).bel with checks := rest } } l sol
      let bmp := sol.unroute.foldl (fun n w => putBit n w true) 0
      let s2 := { s1 with mem := wbytes (cut s1.mem 0x930800 64) 0x930800 (leBytes bmp 64) }
      let s3 := mset (mset (mset s2 0x930840 8 c.order) 0x930848 2 sol.unroute.length) 0x93084A 1 sol.pass
      checkRec s3 c 0 sol.pass sol.unroute.length
  | _, _ => s

/-- R112: ROUTE_CHECK_COMPLETE. -/
def execRouteCheckComplete (traceFail : Option (Fin 512)) (s : State) : Host.Outcome State Fault Refusal :=
  done s (checkDone s (traceFail.map (·.val)))

/-- R112: ROUTE_CHECK_TIMEOUT: a check that has not completed within its 10 ms is refused. -/
def checkTimeout (s : State) : State :=
  match s.bel.checks.find? (fun c => decide (c.deadline ≤ s.now)) with
  | none => s
  | some c =>
    if s.restart.inWindow then s else
    let s1 := if s.bel.checks.head? = some c then dropCheck s else s
    checkRefuse { s1 with bel := { s1.bel with checks := s1.bel.checks.erase c } } c 0x103

/-- R112: ROUTE_CHECK_TIMEOUT. -/
def execRouteCheckTimeout (s : State) : Host.Outcome State Fault Refusal := done s (checkTimeout s)

end Sys2Proof.Machine
end

