-- ==== Sys2Proof/Machine/Plan.lean ====
section
/-! DEFINITION. Plan and stage (R68 to R74, R121): the outgoing state, the changing cells, the entries of every tile, and the
staging of an image. The samples that the planning kernel chooses are free values within the limits of R69 and R70. -/

namespace Sys2Proof.Machine

/-! ## The outgoing state -/

/-- The unfired bell or repair before a bell. -/
def predOf (s : State) (b : Bell) : Option Bell := (liveOrder s).reverse.find? (fun x => decide (x.t < b.t))

/-- R24, R68: the chart and the states that precede a bell: its predecessor's, or what is in force. -/
def outgoing (s : State) (b : Bell) : BitVec 8192 × BitVec 12288 :=
  match predOf s b with
  | some p => ((chartFor s p).1, match p.sol with
    | some x => x.st
    | none => forceVec s)
  | none => (s.bel.forceChart, forceVec s)

/-- R24, R239: the changing cells of a bell, in ascending order: present cells not retired whose state code differs; with a repair fire the
cells that it stopped. -/
def changing (s : State) (b : Bell) (sol : Solution) : List Nat :=
  let old := (outgoing s b).2
  (List.range 6144).filter (fun i => cellUsable s i && (decide (stateOf old i ≠ stateOf sol.st i) || (b.repair && s.cal.stopped.contains i)))

/-- R24: the west ports whose circuit a bell changes. -/
def changedPorts (s : State) (b : Bell) (sol : Solution) : List Nat :=
  let o := outgoing s b
  let c := (chartFor s b).1
  let ps := linePaths s sol.st
  let diff (i : Nat) : Bool := decide (stateOf o.2 i ≠ stateOf sol.st i)
  (List.range 512).filter (fun w => decide (chartEast o.1 w ≠ chartEast c w) ||
    ((chartEast c w).isSome && ps.any (fun p => decide (p.1 = portLine (fm s) false w) && p.2.any (fun h => diff h.1))))

/-- R127: the slot of a tile that a generation's image lies in. -/
def slotFor (s : State) (t gen : Nat) : Option Nat := (List.range 8).find? (fun k => slotValid s t k && decide (slotGen s t k = gen))

/-- R68, R238: the outgoing range and code of a channel: what the last planned bell before leaves, else what plays, what a sweep or steer
of its cell returns to, or what is output or approached now. -/
def outCode (s : State) (b : Bell) (h : Nat) : Nat × Nat :=
  let planned := (liveOrder s).reverse.findSome? (fun x =>
    if x.t < b.t ∧ 4 ≤ x.st then
      ((x.plan.map (·.entries)).getD []).findSome? (fun e => if e.h = h ∧ e.mode ≠ 3 then some (e.rng, e.fin) else none)
    else none)
  let back := s.cal.sweeps.findSome? (fun w => w.2.back.findSome? (fun x => if x.1 = h then some (x.2.2, x.2.1) else none))
  match planned, (chanOf s h).play, back with
  | some x, _, _ => x
  | none, some p, _ => (if p.mode = 3 then chRange s h else p.rng, p.fin)
  | none, none, some x => x
  | none, none, none => (chRange s h, if slewing s h then (chanOf s h).target else codeOf s h)

/-! ## Final codes -/

/-- R229: the efficiency of an arm in the table in force for a plan. -/
def etaTab (s : State) (i arm : Nat) : Nat := if calOf s (actAt i) then mget s (actAt i + 6 + 2 * arm) 2 else cellEta (fm s) i arm

/-- R133, R171: range and code of an arm for |u|, for a plan. -/
def planCode (s : State) (i arm u : Nat) : Nat × Nat :=
  let h := 2 * i + arm
  let lo := codeRaw u (etaTab s i arm) (rEst s h) 0
  if lo < 0xF000 then (0, min lo (vmaxCode s 0 (rEst s h)))
  else (1, min (min 0xFFFF (codeRaw u (etaTab s i arm) (rEst s h) 1)) (vmaxCode s 1 (rEst s h)))

/-- R35, R72, R239: a changing cell keeps its drive: its routing stays, no wrap is pending, and no repair fire stopped it. -/
def keepsDrive (s : State) (b : Bell) (sol : Solution) (i : Nat) : Bool :=
  decide (stateOf (outgoing s b).2 i % 2 = stateOf sol.st i % 2) && !flagBit s i 2 && !(b.repair && s.cal.stopped.contains i)

/-- R34, R68, R72: the final range and code of a changing cell's channel: the target on the arm that R34 selects, a pending wrap with it. -/
def finalCode (s : State) (b : Bell) (sol : Solution) (h : Nat) : Nat × Nat :=
  let i := h / 2
  let o := outCode s b h
  if keepsDrive s b sol i then o
  else
    let u := driveFor s i (stateOf sol.st i) (picTemp s (i / 64))
    if (if h % 2 = 0 then 0 < u else u < 0) then planCode s i (h % 2) u.natAbs else (o.1, 0)

/-! ## Entries -/

/-- R69: the power of an entry's channel at a tick of the fire, in 2^-16 mW. -/
def entryPow (s : State) (e : PEntry) (k : Nat) : Nat :=
  let o := 6 * e.wave
  if k < o then e.outP else powOf s e.h e.rng (if k < o + 32 then e.smp.getD (k - o) e.fin else e.fin)

/-- R69: the kick excess of an entry at a tick. -/
def entryExcess (s : State) (e : PEntry) (k : Nat) : Nat := entryPow s e k - e.base

/-- R71: the total excess of a plan at each of its 38 ticks. -/
def planExcess (s : State) (es : List PEntry) : List Nat := (List.range 38).map (fun k => (es.map (fun e => entryExcess s e k)).foldl (· + ·) 0)

/-- R71, R89: the peak of a plan in units of 10 mW and its energy in units of 10 nJ, rounded up. -/
def planPeakOf (s : State) (es : List PEntry) : Nat := divUp ((planExcess s es).foldl max 0) 655360
def planEnergyOf (s : State) (es : List PEntry) : Nat := divUp ((planExcess s es).foldl (· + ·) 0) 32768000

/-- What remains of the limits of R69 while a plan is made: for each changing cell the power in 2^-16 mW at its 32 samples and the energy in
2^-16 mW × tick, and for the fire the power at each tick; with the state that the free values are drawn from. -/
structure Kick where
  st : State
  cells : Tab (List Nat × Nat)
  glob : List Nat
  deriving DecidableEq, Repr

/-- R69: the limits of a bell's cells at the start, with a total limit at every tick. -/
def kickInit (s : State) (b : Bell) (cells : List Nat) (glob : Nat) : Kick :=
  let p := b.pCell * 65536
  { st := s, glob := List.replicate 38 glob,
    cells := cells.map (fun i => (i, ((List.range 32).map (fun k => if k < 6 then p / 10 else p / 40), b.eCell * 5 * 65536))) }

/-- R69: the excess that the cells `cs` (cell, wave) still allow at a tick. -/
def kickLeft (w : Kick) (cs : List (Nat × Nat)) (k : Nat) : Nat :=
  min (w.glob.getD k 0) ((cs.map (fun c =>
    let x := tget w.cells ([], 0) c.1
    if k < 6 * c.2 then 0 else min (x.1.getD (k - 6 * c.2) 0) x.2)).foldl (· + ·) 0)

/-- R69: an excess taken from the cells' limits, in their order. -/
def kickSpend (w : Kick) (cs : List (Nat × Nat)) (k x : Nat) : Kick :=
  let r := cs.foldl (fun (acc : Tab (List Nat × Nat) × Nat) c =>
    let y := tget acc.1 ([], 0) c.1
    let n := if k < 6 * c.2 then 0 else min acc.2 (min (y.1.getD (k - 6 * c.2) 0) y.2)
    (tins acc.1 c.1 (y.1.set (k - 6 * c.2) (y.1.getD (k - 6 * c.2) 0 - n), y.2 - n), acc.2 - n)) (w.cells, x)
  { w with cells := r.1, glob := w.glob.set k (w.glob.getD k 0 - x) }

/-- A free code from `lo` to `hi`. -/
def drawCode (w : Kick) (lo hi : Nat) : Kick × Nat :=
  let d := draw w.st
  ({ w with st := d.2 }, lo + (Config.planSample d.1).toNat % (hi - lo + 1))

/-- R68, R69: 32 free samples of a changing cell's channel, with an excess within what the cell's limits still allow. -/
def kickSamples (w : Kick) (cell wave h rng base : Nat) : Kick × List Nat :=
  (List.range 32).foldl (fun (acc : Kick × List Nat) j =>
    let k := j + 6 * wave
    let d := drawCode acc.1 0 (codeUpTo acc.1.st h rng (base + kickLeft acc.1 [(cell, wave)] k))
    (kickSpend d.1 [(cell, wave)] k (powOf d.1.st h rng d.2 - base), acc.2 ++ [d.2])) (w, [])

/-- R68, R72: the entry of a changing cell's channel: 32 samples and a final code; a cell that keeps its drive keeps its codes throughout. -/
def moverEntry (w : Kick) (b : Bell) (sol : Solution) (wave h : Nat) : Kick × PEntry :=
  let s := w.st
  let o := outCode s b h
  let f := finalCode s b sol h
  let po := powOf s h o.1 o.2
  let base := max po (powOf s h f.1 f.2)
  let k := if keepsDrive s b sol (h / 2) then (w, List.replicate 32 o.2) else kickSamples w (h / 2) wave h f.1 base
  (k.1, PEntry.mk h 2 wave f.1 f.2 k.2 po base)

/-! ## Counter-kicks (R70) -/

/-- R68: what is left at a fire of the phase that an entry of the fire before moved through a lag of gain `g`, `dt` ns after that fire. -/
def residue (s : State) (g : Int) (tau dt : Nat) (e : PEntry) : Int :=
  let f := (powOf s e.h e.rng e.fin : Int)
  let x := (lagRun (lagShare tau 20) (g * (e.outP - f)) ((List.range 38).map (fun k => g * ((entryPow s e k : Int) - f)))).getLastD 0
  x - (lagShare tau (dt - 760) : Int) * x / (one : Int)

/-- R68: the fire before a bell: the time since it in ns, and its entries. -/
def firesBefore (s : State) (b : Bell) : Nat × List PEntry :=
  match predOf s b with
  | some p => (b.t - p.t, (p.plan.map (·.entries)).getD [])
  | none => match s.bel.played with
    | some p => (b.t - p.1, p.2)
    | none => (0, [])

/-- R68, R70: what the coupling entries of a victim add to its phase at each of 32 ticks, in 2^-20 turns16, one list for each entry: the lags
of the moved channels and the residues of the fire before. -/
def couplings (s : State) (b : Bell) (es : List PEntry) (v : Nat) : List (List Int) :=
  let old := firesBefore s b
  (List.range (cellCplN (fm s) v)).map (fun j =>
    let n := cellCplFirst (fm s) v + j
    let tau := cplTau (fm s) n
    let g := kappaOf s v j
    let rest := ((old.2.filter (fun e => decide (e.h = cplAggr (fm s) n))).map (residue s g tau old.1)).foldl (· + ·) 0
    let tgt := match es.find? (fun e => decide (e.h = cplAggr (fm s) n)) with
      | some e => (List.range 32).map (fun k => g * ((entryPow s e k : Int) - e.outP))
      | none => List.replicate 32 0
    lagRun (lagShare tau 20) rest tgt)

/-- The sums over the lists of the parts that a choice takes, tick by tick. -/
def sumTicks (f : Int → Int) (l : List (List Int)) : List Int := (List.range 32).map (fun k => (l.map (fun x => f (x.getD k 0))).foldl (· + ·) 0)

/-- R70: the codes of a victim's channel of arm `arm`: free as far as the predicted phase with the disturbance `c` stays within ±`lim`
(2^-20 turns16) and the excess within what the causing cells still allow. -/
def counterCodes (w : Kick) (v arm rng base : Nat) (lim : Int) (x0 : Int) (c : List Int) (cause : List (Nat × Nat)) : Kick × List Nat :=
  let h := 2 * v + arm
  let eta := max 1 (etaTab w.st v arm)
  let a := max 1 (lagShare (tauOf w.st v) 20)
  let sg : Int := if arm = 0 then 1 else -1
  let r := (List.range 32).foldl (fun (acc : (Kick × Int) × List Nat) k =>
    let x := acc.1.2
    let need (y : Int) : Int := (base : Int) + (x + (y - x) * (one : Int) / (a : Int)) / (eta : Int)
    let d := c.getD k 0
    let top := need (if arm = 0 then lim - d else lim + d)
    let low := need (if arm = 0 then -lim - d else d - lim)
    let hi := codeUpTo acc.1.1.st h rng (min top.toNat (base + kickLeft acc.1.1 cause k))
    let lo := codeUpTo acc.1.1.st h rng low.toNat
    let n := drawCode acc.1.1 (min hi (if powOf acc.1.1.st h rng lo < low.toNat then lo + 1 else lo)) hi
    let p := powOf n.1.st h rng n.2
    ((kickSpend n.1 cause k (p - base), lagStep a x ((eta : Int) * ((p : Int) - base))), acc.2 ++ [n.2])) ((w, sg * x0), [])
  (r.1.1, r.2)

/-- R70: the unchanged lit cells that the moved channels disturb, each with the causing cells and their waves. -/
def victimsFor (s : State) (cells : List (Nat × Nat)) (es : List PEntry) : List (Nat × List (Nat × Nat)) :=
  let moved := (es.filter (fun e => e.smp.any (fun x => decide (powOf s e.h e.rng x ≠ e.outP)) || decide (powOf s e.h e.rng e.fin ≠ e.outP))).map (·.h)
  (List.range 6144).filterMap (fun v =>
    let hit := ((List.range (cellCplN (fm s) v)).map (fun j => cplAggr (fm s) (cellCplFirst (fm s) v + j))).filter moved.contains
    if cellUsable s v ∧ lightOf s v ∧ !(cells.map (·.1)).contains v ∧ !hit.isEmpty then
      some (v, cells.filter (fun c => (hit.map (· / 2)).contains c.1)) else none)

/-- R68, R70: the counter-kicks of a victim: its driven arm (notes/assumptions/91), or both arms where both stand at 0: there the north arm
carries what raises the phase and the south arm what lowers it, each within half the limit. The final code stays. -/
def counterKick (w : Kick) (b : Bell) (es : List PEntry) (mode v : Nat) (cause : List (Nat × Nat)) : Kick × List PEntry :=
  let s := w.st
  let lim : Int := (fget s Reg.BEL_LAND Reg.BEL_LAND_EXCUR : Int) * 2 ^ 20
  let cs := couplings s b es v
  let oN := outCode s b (2 * v)
  let oS := outCode s b (2 * v + 1)
  let old := firesBefore s b
  let rest := ((old.2.filter (fun e => decide (e.h / 2 = v))).map (fun e =>
    residue s ((if e.h % 2 = 0 then 1 else -1) * (etaTab s v (e.h % 2) : Int)) (tauOf s v) old.1 e)).foldl (· + ·) 0
  let one (w : Kick) (arm : Nat) (o : Nat × Nat) (lim x0 : Int) (c : List Int) : Kick × PEntry :=
    let p := powOf s (2 * v + arm) o.1 o.2
    let k := counterCodes w v arm o.1 p lim x0 c cause
    (k.1, PEntry.mk (2 * v + arm) mode 0 o.1 o.2 k.2 p p)
  if oN.2 = 0 ∧ oS.2 = 0 then
    let n := one w 0 oN (lim / 2) (max rest 0) (sumTicks (fun x => min x 0) cs)
    let z := one n.1 1 oS (lim / 2) (min rest 0) (sumTicks (fun x => max x 0) cs)
    (z.1, [n.2, z.2])
  else
    let k := if oN.2 ≠ 0 then one w 0 oN lim rest (sumTicks id cs) else one w 1 oS lim rest (sumTicks id cs)
    (k.1, [k.2])

/-- R68 to R70: the entries of a plan for changing cells with their waves, with a total limit at every tick. -/
def planEntries (s : State) (b : Bell) (sol : Solution) (cells : List (Nat × Nat)) (glob : Nat) : State × List PEntry :=
  let a := cells.foldl (fun (acc : Kick × List PEntry) c =>
    let e0 := moverEntry acc.1 b sol c.2 (2 * c.1)
    let e1 := moverEntry e0.1 b sol c.2 (2 * c.1 + 1)
    (e1.1, acc.2 ++ [e0.2, e1.2])) (kickInit s b (cells.map (·.1)) glob, [])
  let r := (victimsFor s cells a.2).foldl (fun (acc : Kick × List PEntry) x =>
    let k := counterKick acc.1 b a.2 3 x.1 x.2
    (k.1, acc.2 ++ k.2)) a
  (r.1.st, r.2)

/-- R71: a plan's excess scaled by g / p: every sample above the entry's base. -/
def scaleEntry (s : State) (g p : Nat) (e : PEntry) : PEntry :=
  { e with smp := e.smp.map (fun x =>
      let pw := powOf s e.h e.rng x
      if pw ≤ e.base then x else codeUpTo s e.h e.rng (e.base + (pw - e.base) * g / p)) }

/-- R121, R253: an entry selects KICK: no hold rail admits its largest code. -/
def selectsKick (s : State) (e : PEntry) : Bool :=
  let t := e.h / 128
  (List.range 4).all (fun k => decide (topCode (railMV s k) (marginMV s t) e.rng (rEst s e.h) < e.smp.foldl max e.fin))

/-- R127: the bytes of an entry; a counter-kick's samples are offsets from its final code. -/
def entryBytes (e : PEntry) : List Nat :=
  let w (k : Nat) : Nat := let x := e.smp.getD k 0; if e.mode = 3 then enc (satS ((x : Int) - e.fin) 16) 16 else x
  leBytes (e.mode + 4 * e.wave + 8 * e.rng + 65536 * e.fin) 4 ++ (List.range 32).flatMap (fun k => leBytes (w k) 2)

/-- R127: an image of a tile written to the staging area of its core. -/
def putImage (s : State) (k gen waves : Nat) (es : List PEntry) : State :=
  let a := 65536 * k + 0x2000
  let m0 := wr (cut s.trk.dmem a 8768) a 4 gen
  let m1 := wr m0 (a + 4) 1 (if waves = 2 then 2 else 0)
  let m2 := es.foldl (fun m e => wbytes m (a + 0x40 + 68 * (e.h % 128)) (entryBytes e)) m1
  { s with trk := { s.trk with dmem := m2 } }

/-! ## The plan -/

/-- R71: the peak that a bell's plan keeps to, in units of 10 mW: its grant, or REPAIR for a repair fire. -/
def grantOf (s : State) (b : Bell) : Nat :=
  if b.repair then 10 * fget s Reg.PWR_POOL Reg.PWR_POOL_REPAIR
  else match passAt s b.idx with
    | some p => p.peak
    | none => 0

/-- R68 to R71: a plan: one wave where its peak keeps to the grant, else two; a repair fire's two-wave plan above REPAIR is scaled. -/
def makePlan (s : State) (b : Bell) (sol : Solution) : State × Plan :=
  let cells := changing s b sol
  let g := grantOf s b
  let put (x : State) (w : Nat) (waved : List (Nat × Nat)) (es : List PEntry) (sc : Bool) : State × Plan :=
    (x, { waves := w, peak := planPeakOf s es, energy := planEnergyOf s es, cells := waved, tiles := (es.map (fun e => e.h / 128)).eraseDups,
          scaled := sc, kick := es.any (selectsKick s), entries := es,
          drives := cells.map (fun i => (i, if keepsDrive s b sol i then driveU s i else driveFor s i (stateOf sol.st i) (picTemp s (i / 64)))) })
  let solo := cells.map (fun i => (i, 0))
  let a := planEntries s b sol solo (if b.repair ∨ b.twoWave then 2 ^ 64 else g * 655360)
  if planPeakOf s a.2 ≤ g ∨ !(b.repair || b.twoWave) then put a.1 1 solo a.2 false
  else
    let pairs := (List.range cells.length).map (fun j => (cells.getD j 0, j % 2))
    let d := planEntries a.1 b sol pairs (if b.repair then 2 ^ 64 else g * 655360)
    let p := planPeakOf s d.2
    if b.repair ∧ g < p then put d.1 2 pairs (d.2.map (scaleEntry s g p)) true else put d.1 2 pairs d.2 false

/-- R73: a free staging slot of a tile. -/
def freeSlot (s : State) (t : Nat) : Option Nat := (List.range 8).find? (fun k => !slotValid s t k)

/-- R225: a tile's core can plan: live, with no staging copy in progress, and a slot is free. -/
def canPlan (s : State) (t : Nat) : Bool :=
  match coreFor s t with
  | some k => (decide (coreState s k = 1) || decide (coreState s k = 2)) && (coreOf s k).stage.isNone && (freeSlot s t).isSome &&
      !s.trk.moving.any (fun m => decide (m.1 = t))
  | none => false

/-- R202, R203: BEL delivers a plan's inputs to a core: the state vector at 0x1000, the outgoing code and range of each channel of the tile at
0x1600, the predecessor profiles at 0x1800 (notes/assumptions/98). -/
def planInputs (s : State) (k : Nat) (b : Bell) (t : Nat) : State :=
  let a := 65536 * k + 0x1000
  let d := draw (extAccess s k)
  let codes := (List.range 128).flatMap (fun c => let o := outCode s b (128 * t + c); leBytes o.2 2 ++ leBytes o.1 2)
  let body := leBytes (match b.sol with
    | some x => x.st.toNat
    | none => 0) 1536 ++ codes ++ (List.range 2048).map (fun j => (Config.planProfile d.1 j).toNat)
  { d.2 with trk := { d.2.trk with dmem := wbytes d.2.trk.dmem a body } }

/-- R73, R180: BEL's request reaches a tile's core with the plan's inputs; it builds the image of the plan for the tile and begins its staging. -/
def stageTile (s : State) (b : Bell) (p : Plan) (t : Nat) : State :=
  match coreFor s t, freeSlot s t with
  | some k, some v =>
    let s1 := planInputs (bellWake s t) k b t
    let s2 := putImage s1 k b.gen p.waves (p.entries.filter (fun e => decide (e.h / 128 = t)))
    setCore s2 k { (coreOf s2 k) with stage := some (v + 1, b.gen % 2 ^ 24, s2.up) }
  | _, _ => s

/-- R66, R68 to R73: a bell planned from the state of its cut-off at the latest, or with the plan that it keeps (R67): an image in every
tile with a changed or counter-kicked channel, and its staging begun. -/
def planBell (s : State) (b : Bell) (sol : Solution) : State :=
  let r := match b.plan with
    | some p => (s, p)
    | none => makePlan (inputsOf s b) b sol
  let p := r.2
  if !p.tiles.all (canPlan s) then s
  else
    let s1 := p.tiles.foldl (fun s t => stageTile s b p t) { s with draws := r.1.draws }
    putBell s1 { b with plan := some p, st := if p.tiles.isEmpty then 4 else 3, inval := b.inval && !p.tiles.isEmpty, stagedTiles := [] }

/-- R67: a planned bell's tile whose copy a core fault lost, and whose core can make it again. -/
def lostTile (s : State) (b : Bell) (p : Plan) : Option Nat :=
  p.tiles.find? (fun t => !b.stagedTiles.contains t && canPlan s t)

/-- R68, R82: PLAN_REQUEST: the next bell in the run-ahead whose solve is complete and whose predecessors are staged. -/
def planNext (s : State) : State :=
  if !pipeRuns s then s
  else match (aheadBells s).find? (fun b => decide (b.st < 4)) with
    | none => s
    | some b => match b.st, b.sol, b.plan with
      | 2, some x, _ => planBell s b x
      | 3, _, some p => (match lostTile s b p with
        | some t => stageTile s b p t
        | none => s)
      | _, _, _ => s

/-- R68: PLAN_REQUEST. -/
def execPlanRequest (s : State) : Host.Outcome State Fault Refusal := done s (planNext s)

/-- R73, R216: STAGE_COMPLETE: the copy ends; a slot whose generation is not a bell's any more is freed. -/
def stageEnd (s : State) (k : Nat) : State :=
  match (coreOf s k).stage with
  | none => s
  | some (v, tag, _) =>
    let t := coreTile s k
    let s1 := stageCopy s k
    if v = 0 ∨ 96 ≤ t then s1
    else match s1.bel.bells.find? (fun b => decide (b.gen % 2 ^ 24 = tag ∧ b.gen = slotGen s1 t (v - 1))) with
      | none => slotFree s1 t (v - 1)
      | some b => match b.plan with
        | none => s1
        | some p =>
          let got := (b.stagedTiles ++ [t]).eraseDups
          let all := p.tiles.all got.contains
          if b.st = 3 then putBell s1 { b with stagedTiles := got, st := if all then 4 else 3, inval := b.inval && !all } else s1

/-- R73: STAGE_COMPLETE. -/
def execStageComplete (k : Fin 100) (s : State) : Host.Outcome State Fault Refusal := done s (stageEnd s k)

end Sys2Proof.Machine
end

