-- ==== Sys2Proof/Machine/Fire.lean ====
section
/-! DEFINITION. Arm, fire, verify and completion of a bell (R75 to R81, R86 to R90, R161, R426). -/

namespace Sys2Proof.Machine

/-! ## KICK pre-raise (R253) -/

/-- R253, R254: KICK_PRE_RAISE: from t = −5 µs for a bell whose plan is not complete or selects KICK; not out of service, where no bell
fires (notes/assumptions/112). -/
def preRaise (s : State) : State :=
  match (fireOrder s).find? (fun b => inService s && decide (b.t ≤ nowNs s + 5000) &&
      !s.pwr.wins.any (fun w => decide (w = (b.idx, b.t + 1700))) && (decide (b.st < 3) || (b.plan.map (·.kick)).getD true)) with
  | some b => kickRaise s b.idx (b.t + 1700)
  | none => s

/-- R253: KICK_PRE_RAISE. -/
def execKickPreRaise (s : State) : Host.Outcome State Fault Refusal := done s (preRaise s)

/-! ## Predicted light and landing windows (R161, R426) -/

/-- R161: a circuit at a cell: cell, west port, predicted power at a 0 dB tap (pA, 96 fractional bits), side left. -/
structure Cross where
  cell : Nat
  west : Nat
  pw : Nat
  side : Nat
  deriving DecidableEq, Repr

/-- R161: a circuit followed from the west port; light ends at a retired cell. -/
def crossGo (s : State) (w pw : Nat) : Nat → Bool → List Hop → List Cross
  | _, _, [] => []
  | il, first, h :: r =>
    let il' := if first then il else il + cellIL (fm s) h.1
    if isRetired s h.1 then []
    else Cross.mk h.1 w (pw * pow10i (-(il' : Int))) h.2.2 :: crossGo s w pw il' false r

/-- R161: every circuit of a chart at every cell that it crosses. -/
def crossings (s : State) (v : BitVec 12288) (ch : BitVec 8192) : List Cross :=
  let ps := linePaths s v
  (List.range 512).flatMap (fun w =>
    if (chartEast ch w).isSome then
      match ps.find? (fun p => decide (p.1 = portLine (fm s) false w)) with
      | some p => crossGo s w (portLightP s w * 10000) 0 true p.2
      | none => []
    else [])

/-- R426: the circuits at a cell, strongest first. -/
def atCell (cs : List Cross) (i : Nat) : List Cross := sortBy (fun c => -(c.pw : Int)) (cs.filter (fun c => decide (c.cell = i)))

/-- R78, R161, R426: a cell is lit, and judged from its outputs: not balanced. -/
def litCell (s : State) (cs : List Cross) (i : Nat) : Bool :=
  match atCell cs i with
  | c :: _ => decide (presentPA s (i / 64) * one ≤ unrefer c.pw (cellTap (fm s) i 0))
  | [] => false
def judgedCell (s : State) (cs : List Cross) (i : Nat) : Bool :=
  litCell s cs i && (match atCell cs i with
    | c :: d :: _ => decide (d.pw * 256 ≤ par s (i / 64) 7 1 * c.pw)
    | _ => true)

/-- R161, R426: the current of a cell's dark output at the landing tolerance. -/
def darkCur (s : State) (cs : List Cross) (i : Nat) : Nat :=
  let tol := fget s Reg.BEL_LAND Reg.BEL_LAND_TOL
  match atCell cs i with
  | c :: r =>
    let f := match r with
      | d :: _ => if d.pw = 0 then sinSq tol else rhoAt tol d.pw c.pw
      | [] => sinSq tol
    unrefer (fmul c.pw f) (cellTap (fm s) i (1 - c.side))
  | [] => 0

/-- R77, R161: the landing windows of a judged cell. -/
def landWindows (s : State) (cs : List Cross) (i : Nat) : State :=
  match atCell cs i with
  | c :: _ =>
    let t := i / 64
    let tol := fget s Reg.BEL_LAND Reg.BEL_LAND_TOL
    let s1 := putWin s (2 * i + c.side) (strongWin (unrefer c.pw (cellTap (fm s) i c.side)) tol (fget s (Reg.MON_THR t) Reg.MON_THR_MARGIN))
    putWin s1 (2 * i + 1 - c.side) (weakWin (darkCur s cs i) (floorOf s t))
  | [] => s

/-- R162: the floor binds in the dark window of a cell. -/
def floorBinds (s : State) (cs : List Cross) (i : Nat) : Bool :=
  let d := darkCur s cs i
  decide (4096 * d / (ifsPA (gainFor d) * one) < floorOf s (i / 64))

/-! ## Arm and fire -/

/-- R159: FROZEN of the port lights of a first-stage cell. -/
def freezePort (s : State) (i : Nat) (b : Bool) : State :=
  (List.range 512).foldl (fun s w => if portPresent (fm s) false w ∧ portCell (fm s) false w = i then
    mset s (0x931000 + 4 * w) 4 (putBit (portLight s w) 30 b) else s) s

/-- R75, R180: a staged bell armed: its ranks, its landing windows, its trimmed pass; its cells are OWNED, and the hold work on every cell with
an entry is abandoned. -/
def armBell (s : State) (b : Bell) (p : Plan) (sol : Solution) : State :=
  let cs := crossings s sol.st (chartFor s b).1
  let cells := p.cells.map (·.1)
  let jd := cells.filter (judgedCell s cs)
  let s0 := ((p.entries.map (fun e => e.h / 2)).eraseDups).foldl abandonHold (p.tiles.foldl bellWake s)
  let s1 := p.tiles.foldl (fun s t => match slotFor s t b.gen with
    | some k => armTile s t k b.gen
    | none => s) s0
  let s2 := jd.foldl (fun s i => landWindows s cs i) s1
  let s3 := cells.foldl (fun s i => setMode (freezePort s i true) i 6) s2
  let s4 := if b.repair then s3 else passTrim s3 b.idx p.peak p.energy
  putBell s4 { b with st := 5, ver := { Verify.init with judged := jd } }

/-- R75: ARM: from t = −0.5 µs (notes/assumptions/117). -/
def armNext (s : State) : State :=
  match (liveOrder s).head? with
  | none => s
  | some b =>
    if !pipeRuns s ∨ !inService s ∨ b.st ≠ 4 ∨ nowNs s + 500 < b.t then s
    else match b.plan, b.sol with
      | some p, some sol => armBell s b p sol
      | _, _ => s

/-- R75: ARM. -/
def execArm (s : State) : Host.Outcome State Fault Refusal := done s (armNext s)

/-- The bits of a list of ports. -/
def portBits (l : List Nat) : BitVec 512 := BitVec.ofNat 512 (l.foldl (fun n w => putBit n w true) 0)

/-- R76, R113, R155, R196, R244: an armed bell fires: the strobe, the scan of its ranks, the averaging of the inputs of cells with an entry,
the chart and the states in force, its energy, its spans, the swapped efficiencies of unchanged cells where its plan took the swap. -/
def fireBell (s : State) (b : Bell) (p : Plan) (sol : Solution) (seen : List (Nat × List (Nat × Bool))) : State :=
  let c := chartFor s b
  let chg := (List.range 512).filter (fun w => decide (chartEast s.bel.forceChart w ≠ chartEast c.1 w) ||
    ((chartEast c.1 w).isSome && (linePaths s sol.st).any (fun q => decide (q.1 = portLine (fm s) false w) &&
      q.2.any (fun h => decide (stateOf (forceVec s) h.1 ≠ stateOf sol.st h.1)))))
  let s0 := p.tiles.foldl (fun s t => monFire (strobe s t false) seen t) s
  let s1 := ((p.entries.map (fun e => e.h / 2)).eraseDups).foldl (fun s i => avgRestart (avgRestart s (2 * i)) (2 * i + 1)) s0
  let s2 := { s1 with mem := wbytes (cut s1.mem 0x930000 1536) 0x930000 (leBytes sol.st.toNat 1536) }
  let s3 := rset s2 Reg.RTS_IMG_GEN (BitVec.ofNat 32 b.gen)
  let s4 := { s3 with bel := { s3.bel with sol := some sol, forceChart := c.1, forceSlot := if c.2 < 1024 then some c.2 else none,
                                           lastFire := some b.t, openSpans := s3.bel.openSpans ++ b.spans.map (fun x => (b.t, x)),
                                           forceSrc := if b.repair then s3.bel.forceSrc else some b.src, played := some (b.t, p.entries) },
                        cal := { s3.cal with stopped := if b.repair then [] else s3.cal.stopped } }
  let s5 := if b.repair then binAdd s4 (binOf b.t) p.energy else passPlay s4 b.idx
  let cells := p.cells.map (·.1)
  let took := match b.held with
    | some x => decide (x.cal = slice s.mem 0x940000 0x60000)
    | none => true
  let s6 := if took then (s5.hold.cells.map (·.1)).foldl (fun s i => if cells.contains i then s else takeHeld s i) s5 else s5
  putBell (portWarns s6) { b with st := 6, ver := { b.ver with changed := portBits chg } }

/-- R23, R76: FIRE at the bell's instant, in service (notes/assumptions/117). -/
def fireNext (s : State) (seen : List (Nat × List (Nat × Bool))) : State :=
  match (liveOrder s).head? with
  | none => s
  | some b =>
    if !pipeRuns s ∨ !inService s ∨ b.st ≠ 5 ∨ nowNs s < b.t then s
    else match b.plan, b.sol with
      | some p, some sol => fireBell s b p sol seen
      | _, _ => s

/-- R76: FIRE; `seen` is what the bursts that the strobe aborts had seen, by pair. -/
def execFire (seen : List (Fin 384 × List (Nat × Bool))) (s : State) : Host.Outcome State Fault Refusal :=
  done s (fireNext s (seen.map (fun x => (x.1.val, x.2))))

/-! ## Landing (R77 to R79) -/

/-- R77, R151: a cell has landed: its channels are no longer owned, its port light follows again, and the core clears its exits. -/
def landCell (s : State) (i : Nat) : State := clearExits (freezePort (disown s i) i false) i

/-- R181: the drive phase at which a plan leaves a changing cell (notes/assumptions/119). -/
def planDrive (p : Plan) (i : Nat) : Int := ((p.drives.find? (fun x => decide (x.1 = i))).map (·.2)).getD 0

/-- R78, R182: an unlit cell has landed when its final codes are loaded, and is held as ember from then on. -/
def landUnlit (s : State) (p : Plan) (i : Nat) : State := landEmber (landCell s i) i (planDrive p i)

/-- R78: the lit circuits of a bell: light at the first-stage cell. -/
def litCircuits (s : State) (cs : List Cross) : List (List Cross) :=
  (List.range 512).filterMap (fun w =>
    let l := cs.filter (fun c => decide (c.west = w))
    match l with
    | c :: _ => if presentPA s (c.cell / 64) * one ≤ unrefer c.pw (cellTap (fm s) c.cell 0) then some l else none
    | [] => none)

/-- R78: of the failing cells, those that are nearest the west port on some lit circuit, or reached whole on one. -/
def charged (circuits : List (List Cross)) (failing : List Nat) : List Nat :=
  failing.filter (fun i => circuits.any (fun l =>
    match l.find? (fun c => failing.contains c.cell) with
    | some c => decide (c.cell = i)
    | none => false) || !circuits.any (fun l => l.any (fun c => decide (c.cell = i))))

/-- R77: a cell's comparators at its landing instant: both inputs report IN. -/
def inWindow (s : State) (i : Nat) : Bool :=
  [2 * i, 2 * i + 1].all (fun j => decide (fget s (winReg j) Reg.MON_IN_WIN_STATE = 1))

/-- R67, R78, R79, R360: a failing cell's record, and its retirement at its instant of the budget. -/
def landRetire (s : State) (gen i due : Nat) : State := retireAt (report s (srcDrv (i / 64)) 0x19 i gen) i 3 due

/-- R79, R81, R157: the kernel asks for a burst on the dark output of a lit changing cell, for the bell (notes/assumptions/106). -/
def watchCell (s : State) (cs : List Cross) (i : Nat) : State :=
  match atCell cs i, freeRec s (i / 64) with
  | c :: _, some r => watchAsk s (i / 64) (Req.mk (2 * (i % 64) + 1 - c.side) r (i % 64) true false)
  | _, _ => s

/-- R81: after the last check every lit changing cell that landed is sampled once. -/
def seedWatch (s : State) (cs : List Cross) (cells : List Nat) : State :=
  (cells.filter (judgedCell s cs)).foldl (fun s i => watchCell s cs i) s

/-- R77, R78, R79: the check of a wave at `inst` ns: unlit and balanced cells have landed when their codes were loaded. With RETRY_EN the
failures of both waves are charged at the last check, without it each wave's at its own. -/
def waveCheck (s : State) (b : Bell) (p : Plan) (sol : Solution) (w inst : Nat) : State :=
  let cs := crossings s sol.st s.bel.forceChart
  let v := b.ver
  let mine := ((p.cells.filter (fun c => decide (c.2 = w))).map (·.1)).filter (fun i => !isRetired s i && !v.landed.contains i)
  let open_ := mine.filter (judgedCell s cs)
  let failing := open_.filter (fun i => !inWindow s i)
  let failed := v.failed ++ failing
  let good := mine.filter (fun i => !failing.contains i)
  let more := decide (w = 0 ∧ p.waves = 2)
  let retryEn := decide (fget s Reg.BEL_CTRL Reg.BEL_CTRL_RETRY_EN = 1)
  let fix := !(b.repair && p.scaled)
  let ch := charged (litCircuits s cs) failed
  let first := if retryEn then (if more then [] else ch) else ch.filter failing.contains
  let beyond := if retryEn then (if more then [] else failed.filter (fun i => !ch.contains i)) else failing.filter (fun i => !ch.contains i)
  let s1 := good.foldl (fun s i => if litCell s cs i then landCell s i else landUnlit s p i) s
  let s2 := (open_.filter (floorBinds s cs)).foldl (fun s i => monCnt s (i / 64) 5) s1
  let s3 := if fix && !retryEn then first.foldl (fun s i => landRetire s b.gen i (b.t + inst + 20)) s2 else s2
  let lit := good.filter open_.contains
  let last := if good.isEmpty then v.landLast else max v.landLast (if lit.isEmpty then inst - 40 else inst)
  let retry := if fix && retryEn then first else []
  let hand := if fix then (if retryEn then [] else beyond) else failing
  let v1 := { v with failed := failed, judged := v.judged ++ lit, landed := v.landed ++ good, landLast := last, retry := v.retry ++ retry,
                     beyond := v.beyond ++ (if fix && retryEn then beyond else []), nRetry := v.nRetry + retry.length, passOn := v.passOn ++ hand }
  let st : Nat := if more then 1 else if v1.retry.isEmpty then 5 else 2
  let s4 := hand.foldl (fun s i => disown s i) s3
  let s5 := if st = 2 then retry.foldl (fun s i => watchCell s cs i) s4 else if st = 5 then seedWatch s4 cs v1.judged else s4
  putBell s5 { b with ver := { v1 with stage := st } }

/-- R79: the check of the retry at t = +1,680 ns. -/
def retryCheck (s : State) (b : Bell) (sol : Solution) : State :=
  let v := b.ver
  let cs := crossings s sol.st s.bel.forceChart
  let cells := (v.retry ++ v.beyond).filter (fun i => !isRetired s i)
  let good := cells.filter (inWindow s)
  let bad := cells.filter (fun i => !inWindow s i)
  let s1 := good.foldl (fun s i => if v.retry.contains i then report (landCell s i) (srcDrv (i / 64)) 0x18 i b.gen else landCell s i) s
  let s2 := bad.foldl (fun s i => landRetire s b.gen i (b.t + 1700)) s1
  let s3 := seedWatch s2 cs (v.judged ++ good)
  putBell s3 { b with ver := { v with judged := v.judged ++ good, landed := v.landed ++ good, landLast := if good.isEmpty then v.landLast else 1680,
                                      stage := 5 } }

/-- The fired bell whose verify is next: in fire order, not cut off. -/
def verifying (s : State) (p : Nat → Bool) : Option Bell :=
  (sortBy (fun b => (b.t : Int)) s.bel.bells).find? (fun b => decide (b.st = 6) && !s.bel.cutOff.contains b.idx && p b.ver.stage)

/-- R77, R151: LANDING_CHECK at +680 ns, +800 ns or +1,680 ns: the comparators follow the photocurrents of that instant, and their STATE is
read unfiltered. -/
def landingCheck (s0 : State) (cur : List (Nat × Nat)) : State :=
  match verifying s0 (fun st => decide (st = 0 ∨ st = 1 ∨ st = 4)) with
  | none => s0
  | some b =>
    match b.plan, b.sol with
    | some p, some sol =>
      let s := p.tiles.foldl bellWake (cur.foldl (fun s c => cmpSee s c.1 c.2 0) s0)
      let b1 := (bellAt s b.idx).getD b
      if b.ver.stage = 0 ∧ b.t + 680 ≤ nowNs s then waveCheck s b1 p sol 0 680
      else if b.ver.stage = 1 ∧ b.t + 800 ≤ nowNs s then waveCheck s b1 p sol 1 800
      else if b.ver.stage = 4 ∧ b.t + 1680 ≤ nowNs s then retryCheck s b1 sol
      else s0
    | _, _ => s0

/-- R77: LANDING_CHECK. -/
def execLandingCheck (cur : List (Fin 12288 × Nat)) (s : State) : Host.Outcome State Fault Refusal :=
  done s (landingCheck s (cur.map (fun c => (c.1.val, c.2))))

/-! ## Retry (R79, R129) -/

/-- R79: the entries of a retry: ABS at wave offset 0 for both channels of every retried cell, from and to the final codes of the bell, and
for the counter-kicks that they cause, within the limits of R69 for each cell and the trimmed peak at every tick. -/
def retryEntries (s : State) (b : Bell) (p : Plan) (cells : List Nat) : State × List PEntry :=
  let b1 := { b with t := b.t + 1000 }
  let w0 := kickInit s b cells (p.peak * 655360)
  let a := (cells.flatMap (fun i => [2 * i, 2 * i + 1])).foldl (fun (acc : Kick × List PEntry) h =>
    match p.entries.find? (fun e => decide (e.h = h)) with
    | none => acc
    | some e =>
      let f := powOf s h e.rng e.fin
      let k := kickSamples acc.1 (h / 2) 0 h e.rng f
      (k.1, acc.2 ++ [PEntry.mk h 2 0 e.rng e.fin k.2 f f])) (w0, [])
  let own := p.cells.map (·.1)
  let r := ((victimsFor s (cells.map (fun i => (i, 0))) a.2).filter (fun x => !own.contains x.1)).foldl (fun (acc : Kick × List PEntry) x =>
    let k := counterKick acc.1 b1 a.2 2 x.1 x.2
    (k.1, acc.2 ++ k.2)) a
  (r.1.st, r.2)

/-- R127, R129: the retry slot of a tile written and armed. -/
def retryTile (s : State) (b : Bell) (t : Nat) (es : List PEntry) : State :=
  let base := slotBase t 8
  let m0 := wr (wr (cut s.slotMem base 8768) base 4 b.gen) (base + 4) 1 1
  let m1 := es.foldl (fun m e => wbytes m (base + 0x40 + 68 * (e.h % 128)) (entryBytes e)) m0
  let s1 := rset { s with slotMem := m1 } (Reg.DRV_RETRY_GEN t) (BitVec.ofNat 32 b.gen)
  fset s1 (Reg.DRV_ARM t) Reg.DRV_ARM_RVALID 1

/-- R90, R129: RETRY_ARM at t = +960 ns; none in a restart window. -/
def retryArm (s : State) : State :=
  match verifying s (fun st => decide (st = 2)) with
  | none => s
  | some b =>
    match b.plan with
    | none => s
    | some p =>
      if nowNs s < b.t + 960 ∨ !pipeRuns s then s
      else
        let es := retryEntries s b p (b.ver.retry.filter (fun i => !isRetired s i))
        let tiles := (es.2.map (fun e => e.h / 128)).eraseDups
        let s1 := tiles.foldl (fun s t => retryTile (bellWake s t) b t (es.2.filter (fun e => decide (e.h / 128 = t)))) es.1
        putBell s1 { b with ver := { b.ver with stage := 3, rTiles := tiles, rEnergy := planEnergyOf s es.2 } }

/-- R129: RETRY_ARM. -/
def execRetryArm (s : State) : Host.Outcome State Fault Refusal := done s (retryArm s)

/-- R79, R90, R266: RETRY_STROBE at t = +1,000 ns: the retry plays, and its energy is added. -/
def retryStrobe (s : State) : State :=
  match verifying s (fun st => decide (st = 3)) with
  | none => s
  | some b =>
    if nowNs s < b.t + 1000 ∨ !pipeRuns s then s
    else
      let s1 := b.ver.rTiles.foldl (fun s t => strobe s t true) s
      let s2 := if b.repair then binAdd s1 (binOf b.t) b.ver.rEnergy else passAdd s1 b.idx b.ver.rEnergy
      putBell s2 { b with ver := { b.ver with stage := 4 } }

/-- R79: RETRY_STROBE. -/
def execRetryStrobe (s : State) : Host.Outcome State Fault Refusal := done s (retryStrobe s)

/-! ## Completion (R81, R87 to R90) -/

/-- R89: a bell report at the next index. -/
def writeReport (s : State) (b : Bell) (status gen nCells waves peak energy nUnroute : Nat) (dark : BitVec 512) : State × Nat :=
  let w := rget s Reg.BEL_REPORT_LAST
  let idx := if getF w Reg.BEL_REPORT_LAST_VALID = 0 then 0 else (getF w Reg.BEL_REPORT_LAST_INDEX + 1) % 256
  let a := 0x920000 + 256 * idx
  let v := b.ver
  let s0 := { s with mem := cut s.mem a 256 }
  let s1 := mset (mset (mset (mset s0 a 8 (if b.repair then 0 else b.order)) (a + 8) 8 (b.t / 1000000000)) (a + 0x10) 4 (b.t % 1000000000)) (a + 0x16) 2 status
  let s2 := mset (mset (mset (mset s1 (a + 0x18) 4 gen) (a + 0x1C) 2 nCells) (a + 0x1E) 1 waves) (a + 0x1F) 1 b.nInval
  let s3 := mset (mset (mset (mset s2 (a + 0x20) 4 peak) (a + 0x24) 4 energy) (a + 0x28) 2 v.nRetry) (a + 0x2A) 2 v.retired.length
  let s4 := mset (mset (mset s3 (a + 0x2C) 2 nUnroute) (a + 0x2E) 2 (min v.nExcur 65535)) (a + 0x30) 4 v.landLast
  let s5 := mset (mset s4 (a + 0x40) 64 v.changed.toNat) (a + 0x80) 64 dark.toNat
  let s6 := (List.range 16).foldl (fun s j => mset s (a + 0xC0 + 2 * j) 2 (v.retired.getD j 0xFFFF)) s5
  (rset s6 Reg.BEL_REPORT_LAST (setF (setF w Reg.BEL_REPORT_LAST_INDEX idx) Reg.BEL_REPORT_LAST_VALID 1), idx)

/-- R87, R342: the outcome record of a bell to its ring, and copies to its twins' rings; a repair's to ring 0 of every linked port. -/
def outcomeRec (s : State) (b : Bell) (status idx gen : Nat) : State :=
  let r : Rec := { dst := b.src, order := b.order, status := status, typ := if b.now then tyNow else tyBell, kind := 1, sqIndex := 0xFFFF,
                   aux := idx, sec := b.t / 1000000000, ns := b.t % 1000000000, detail := gen, owed := true, reserved := false }
  if b.repair then
    [0, 1].foldl (fun s p => if fget s (Reg.HIF_PSTATUS p) Reg.HIF_PSTATUS_LINK = 1 ∧ fget s (Reg.HIF_RING_CFG p 0) Reg.HIF_RING_CFG_EN = 1 then
      pushRec s { r with dst := 16 * p, order := 0, typ := 0, kind := 2, detail := 0, owed := false, reserved := true } else s) s
  else b.twins.foldl (fun s d => pushRec s { r with dst := d, owed := false }) (pushRec s r)

/-- The slots, the outcome counter, the notice and the entry of a completed bell. -/
def completeBell (s : State) (b : Bell) (status idx gen waves nUnroute : Nat) (dark : BitVec 512) : State :=
  let k := if status = 0x301 then 0 else if status = 0x302 then 1 else if status = 0x303 then 2 else 3
  let s1 := bump (outcomeRec s b status idx gen) (Reg.BEL_OUTCOME k)
  let s2 := if b.quiet then s1 else notice s1 (noticeBody (if b.repair then 4 else 3) waves status (if b.repair then 0 else b.order) b.t gen
    nUnroute b.ver.retired.length b.ver.landLast b.ver.changed dark)
  dropBell (slotsFree s2 b.gen) b.idx

/-- The west ports whose circuit of a solution crosses a cell of a kind. -/
def portsThrough (s : State) (v : BitVec 12288) (ch : BitVec 8192) (p : Nat → Bool) : List Nat :=
  let ps := linePaths s v
  (List.range 512).filter (fun w => (chartEast ch w).isSome &&
    ps.any (fun q => decide (q.1 = portLine (fm s) false w) && q.2.any (fun h => p h.1)))

/-- R31: the host port that owns a bell's circuits: of its ring, or the SPI port's host. -/
def ownerPort (s : State) (src : Nat) : Nat := if src = 32 then fget s Reg.LEG_CTRL Reg.LEG_CTRL_AS else src / 16 % 2

/-- R31, R89: the circuits interrupted by faults that a report of a bell names: those of its host, all for a repair fire, and those of no
bell; they are named once. -/
def takeLost (s : State) (b : Bell) : State × List Nat :=
  let mine (x : Nat × Nat) : Bool := b.repair || decide (x.1 = 2 ∨ x.1 = ownerPort s b.src)
  ({ s with bel := { s.bel with lost := s.bel.lost.filter (fun x => !mine x) } }, (s.bel.lost.filter mine).map (·.2))

/-- R81: verify is complete: the pairs are released, the cells pass to the hold path, and the bell is reported. -/
def verifyEnd (s : State) (b : Bell) (p : Plan) (sol : Solution) (cutoff : Bool) : State :=
  let v := b.ver
  let cells := p.cells.map (·.1)
  let bad (i : Nat) : Bool := isRetired s i || v.retry.contains i || v.beyond.contains i || v.passOn.contains i ||
    (cutoff && cells.contains i && !v.landed.contains i)
  let late := portsThrough s sol.st s.bel.forceChart (isRetired s)
  let lost := takeLost s b
  let dark := v.dark ||| portBits (sol.unroute ++ portsThrough s sol.st s.bel.forceChart bad ++ lost.2)
  let degraded := cutoff || !v.retry.isEmpty || !v.retired.isEmpty || !v.passOn.isEmpty || !sol.unroute.isEmpty || !late.isEmpty || decide (0 < v.nExcur)
  let status := if b.repair then 0x303 else if degraded then 0x302 else 0x301
  let cs := crossings s sol.st s.bel.forceChart
  let s1 := if cutoff then lost.1 else p.tiles.foldl (fun s t => bellWake (monRelease s t) t) lost.1
  let s2 := cells.foldl (fun s i => if isRetired s i then s else
    (let s3 := landCell s i
     if cutoff then s3 else handOver s3 i (planDrive p i) (litCell s cs i && !judgedCell s cs i))) s1
  let r := writeReport s2 b status b.gen cells.length p.waves p.peak p.energy sol.unroute.length dark
  completeBell r.1 b status r.2 b.gen p.waves sol.unroute.length dark

/-- R158: a pair of the tiles still has a request of the bell to serve. -/
def seedsOpen (s : State) (tiles : List Nat) : Bool :=
  tiles.any (fun t => (List.range 4).any (fun q =>
    let x := pairGet s (4 * t + q)
    x.queue.any (·.bell) || (x.burst.map (fun y => y.1.bell)).getD false))

/-- R81, R90, R158: VERIFY_COMPLETE: every changing cell has landed, is retired, or passes on, and the seeding samples are taken, or it is
+2.0 µs; a cut-off verify is reported as it stands, and a bell fired after a restart waits for the SKIPPED records. -/
def verifyDone (s : State) : State :=
  match (sortBy (fun b => (b.t : Int)) s.bel.bells).find? (fun b => decide (b.st = 6)) with
  | none => s
  | some b =>
    match b.plan, b.sol with
    | some p, some sol =>
      let cutoff := s.bel.cutOff.contains b.idx
      let v := b.ver
      if !pipeRuns s ∨ (!cutoff && (fireOrder s).any (windowed s)) then s
      else if cutoff then verifyEnd { s with bel := { s.bel with cutOff := s.bel.cutOff.filter (fun x => !decide (x = b.idx)) } } b p sol true
      else if v.stage = 5 ∧ p.cells.all (fun c => v.landed.contains c.1 || isRetired s c.1 || v.passOn.contains c.1) ∧
          (!seedsOpen s p.tiles ∨ b.t + 2000 ≤ nowNs s) then verifyEnd s b p sol false
      else s
    | _, _ => s

/-- R81: VERIFY_COMPLETE. -/
def execVerifyComplete (s : State) : Host.Outcome State Fault Refusal := done s (verifyDone s)

/-- R266: PASS_RELEASE: at t = +1.7 µs a bell's pass is released. -/
def passEnd (s : State) : State :=
  match s.pwr.passes.find? (fun p => decide (p.kind = 0 ∧ p.start + 1700 ≤ nowNs s) &&
      !(s.bel.bells.any (fun b => decide (b.idx = p.entry ∧ b.st < 6)))) with
  | some p => passRelease s p.entry
  | none => s

/-- R266: PASS_RELEASE. -/
def execPassRelease (s : State) : Host.Outcome State Fault Refusal := done s (passEnd s)

/-- R286: the pulses that preceded a bell that is skipped. -/
def orphans (s : State) (t : Nat) : State :=
  (List.range 8).foldl (fun s n =>
    if s.tmu.pulses.contains (t, n) then bump (rput s (Reg.TMU_BELL_TRIM n) 16 true) (Reg.TMU_CNT 4) else s) s

/-- R26, R27, R90: BELL_SKIP: the next bell whose instant has passed unfired in a restart window or out of service. A repair fire that has
not fired out of service goes without a record. -/
def skipNext (s : State) : State :=
  match (fireOrder s).head? with
  | none => s
  | some b =>
    if !pipeRuns s ∨ !s.bel.cutOff.isEmpty ∨ nowNs s < b.t ∨ (inService s ∧ !windowed s b) then s
    else if b.repair then dropBell (slotsFree (abandonSolve s b.idx) b.gen) b.idx
    else
      let ch := chartOf s b.slot
      let dark := portBits ((List.range 512).filter (fun w => (chartEast ch w).isSome))
      let b1 := { b with ver := Verify.init }
      let r := writeReport (orphans (abandonSolve s b.idx) b.t) b1 0x304 0 0 0 0 0 0 dark
      completeBell (slotsFree r.1 b.gen) b1 0x304 r.2 0 0 0 dark

/-- R26, R90: BELL_SKIP. -/
def execBellSkip (s : State) : Host.Outcome State Fault Refusal := done s (skipNext s)

/-! ## Recess spans (R86) -/

/-- R86: the tiles that a recess group's circuits cross. -/
def spanTiles (s : State) (mask : BitVec 512) : List Nat :=
  ((linePaths s (forceVec s)).flatMap (fun p => match portOfLine s p.1 with
    | some w => if bit mask.toNat w then p.2.map (fun h => h.1 / 64) else []
    | none => [])).eraseDups

/-- R86: the mask of a recess group. -/
def groupMask (s : State) (g : Nat) : BitVec 512 :=
  BitVec.ofNat 512 ((List.range 16).foldl (fun n w => n + (rget s (Reg.BEL_RGRP_MASK g w)).toNat * 2 ^ (32 * w)) 0)

/-- R86: the end of a span: its stated end, or 2 µs before the next fire after its start. -/
def spanEndAt (s : State) (x : Nat × Span) : Nat :=
  let stated := x.1 + x.2.ofs + x.2.len
  match (liveOrder s).find? (fun b => decide (x.1 < b.t)) with
  | some b => min stated (b.t - 2000)
  | none => stated

/-- R86: no later fire has ended a span, nor is one less than 2 µs away, and its stated end lies ahead. -/
def spanOpen (s : State) (x : Nat × Span) : Bool :=
  decide (nowNs s < spanEndAt s x) && !(s.bel.lastFire.elim false (fun f => decide (x.1 < f)))

/-- R180, R194: a RECESS wake of a tile. -/
def recessWake (s : State) (t : Nat) : State := wakeTile (snapParams s t) t 6

/-- R86: SPAN_START: a span begins at T + offset with its group's mask of now; the cores concerned wake (level 6). -/
def spanStart (s : State) : State :=
  match findIdx1 (fun x => !x.2.begun && decide (x.1 + x.2.ofs ≤ nowNs s) && spanOpen s x) s.bel.openSpans with
  | none => s
  | some j =>
    match s.bel.openSpans[j]? with
    | none => s
    | some x =>
      let m := groupMask s x.2.group
      let s1 := { s with bel := { s.bel with openSpans := s.bel.openSpans.set j (x.1, { x.2 with begun := true, mask := m }) } }
      (spanTiles s1 m).foldl recessWake s1

/-- R86: SPAN_START. -/
def execSpanStart (s : State) : Host.Outcome State Fault Refusal := done s (spanStart s)

/-- R86, R239: SPAN_END: the span is over; sweeps that used it return their cells. -/
def spanEnd (s : State) : State :=
  match s.bel.openSpans.find? (fun x => !spanOpen s x) with
  | none => s
  | some x =>
    let s1 := { s with bel := { s.bel with openSpans := s.bel.openSpans.erase x } }
    if x.2.begun then
      let s2 := abortWhere s1 (fun i w => w.span.isSome && (circuitsThrough s1 (forceVec s1) s1.bel.forceChart i).any (fun p => bit x.2.mask.toNat p)) true
      (spanTiles s2 x.2.mask).foldl recessWake s2
    else s1

/-- R86: SPAN_END. -/
def execSpanEnd (s : State) : Host.Outcome State Fault Refusal := done s (spanEnd s)

end Sys2Proof.Machine
end

