-- ==== Sys2Proof/Machine/HostRows.lean ====
section
/-! DEFINITION. The commands of the host ports: doorbells, fetches, DMA failures, interrupts, status block, PCIe resets and
link events, configuration requests (R302 to R315, R329). -/

namespace Sys2Proof.Machine

/-- R309, R311: SQ_TAIL: a write to the doorbell page, its offset an operand. -/
def execSqTail (p : Fin 2) (g : Fin 16) (ofs : BitVec 12) (v : BitVec 32) (be : BitVec 4) (s : State) :
    Host.Outcome State Fault Refusal := done s (doorbell s p g ofs.toNat v.toNat be.toNat)

/-- R309, R312: CQ_HEAD: likewise. -/
def execCqHead (p : Fin 2) (g : Fin 16) (ofs : BitVec 12) (v : BitVec 32) (be : BitVec 4) (s : State) :
    Host.Outcome State Fault Refusal := done s (doorbell s p g ofs.toNat v.toNat be.toNat)

/-- R322: the fetch of the source chosen: its first descriptor and those that still would be chosen; the SPI port's
descriptor is taken from its queue at once, as one of the host port that LEG_CTRL.AS names (R331). -/
def fetchIssue (s : State) : State :=
  let s0 := countRed s
  match choose s0 99 0 with
  | none => s0
  | some i =>
    let s1 := charge s0 i
    if i = 32 then
      match s1.spi.queue with
      | [] => s1
      | e :: rest =>
        let s2 := { s1 with spi := { s1.spi with queue := rest },
                            hif := { s1.hif with fetched := s1.hif.fetched ++
                              [{ e with port := fget s1 Reg.LEG_CTRL Reg.LEG_CTRL_AS, tIssue := s1.now, tFetch := s1.now }] } }
        advance (fset s2 Reg.LEG_STATUS Reg.LEG_STATUS_QLEN rest.length) 32
    else
      let p := i / 16
      let r := i % 16
      let head := fget s1 (Reg.HIF_RING_STAT p r) Reg.HIF_RING_STAT_HEAD
      let lim := min (fget s1 (Reg.HIF_RING_CFG p r) Reg.HIF_RING_CFG_BATCH + 1) (min (sqSize s1 i - head)
        (maxRead s1 p / (if fget s1 (Reg.HIF_RING_CFG p r) Reg.HIF_RING_CFG_FMT = 1 then 32 else 64)))
      let b := batchMore i lim 8 1 s1
      let s2 := setRing b.2 i { (ringOf b.2 i) with flight := some (b.1, b.2.now) }
      emit (fset s2 (Reg.HIF_RING_STAT p r) Reg.HIF_RING_STAT_ACTIVE 1) (.fetch p r head b.1)

/-- R322: DESCRIPTOR_FETCH_ISSUE. -/
def execDescriptorFetchIssue (s : State) : Host.Outcome State Fault Refusal := done s (fetchIssue s)

/-- R326: the arrival times of the next `n` visible descriptors, and the doorbells left. -/
def takeDoors : Nat → List (Nat × Nat) → List Nat × List (Nat × Nat)
  | 0, l => ([], l)
  | n + 1, [] => let r := takeDoors n []
    (0 :: r.1, r.2)
  | n + 1, (k, t) :: l =>
    let r := takeDoors n (if k ≤ 1 then l else (k - 1, t) :: l)
    (t :: r.1, r.2)

/-- The format 1 half of a fetched entry, or all of a format 2 one. -/
def descData (fmt1 : Bool) (d : BitVec 512) : BitVec 512 := if fmt1 then BitVec.ofNat 512 (d.toNat % 2 ^ 256) else d

/-- R318: the order number of a new descriptor, and the per-source count. -/
def newOrder (s : State) (src : Nat) (fmt1 : Bool) (raw : BitVec 512) : Nat × State :=
  if fmt1 then
    let k := if src = 32 then 2 else src / 16
    let c := tget s.hif.f1Count 0 k
    (order1 src c (dB raw 4 4), { s with hif := { s.hif with f1Count := tset s.hif.f1Count 0 k (c + 1) } })
  else (dB raw 8 8, s)

/-- A descriptor of a ring becomes an entry on its way to admission. -/
def addEntry (s : State) (i idx tIssue door : Nat) (fmt1 : Bool) (raw : BitVec 512) : State × Entry :=
  let o := newOrder s i fmt1 raw
  let e := Entry.mk raw fmt1 i (i / 16) idx tIssue s.now door o.1 none false false 0 none none o.2.hif.entrySeq 0 [] 0
  ({ o.2 with hif := { o.2.hif with fetched := o.2.hif.fetched ++ [e], entrySeq := o.2.hif.entrySeq + 1 } }, e)

/-- R19, R311: a fetch completes: HEAD advances, the records are owed, and the descriptors go on in ring order. -/
def fetchComplete (s : State) (i : Nat) (data : List (BitVec 512)) : State :=
  let p := i / 16
  let r := i % 16
  match (ringOf s i).flight with
  | none => s
  | some (n, t0) =>
    let g := ringOf s i
    let dr := takeDoors n g.doors
    let head := fget s (Reg.HIF_RING_STAT p r) Reg.HIF_RING_STAT_HEAD
    let fmt1 := decide (fget s (Reg.HIF_RING_CFG p r) Reg.HIF_RING_CFG_FMT = 1)
    let s1 := setRing s i { g with flight := none, doors := dr.2 }
    let s2 := fset (fset s1 (Reg.HIF_RING_STAT p r) Reg.HIF_RING_STAT_ACTIVE 0) (Reg.HIF_RING_STAT p r) Reg.HIF_RING_STAT_HEAD
      ((head + n) % sqSize s i)
    let s3 := setOwed (bumpN (bumpN s2 (Reg.HIF_PCNT p 0) n) (Reg.HIF_RING_CNT p r) n) i (owed s2 i + n)
    let s4 := sblkTouch (depthNote s3 i) p
    let made := (List.range n).foldl (fun (acc : State × List Entry) j =>
      let a := addEntry acc.1 i ((head + j) % sqSize s i) t0 (dr.1.getD j 0) fmt1 (descData fmt1 (data.getD j 0))
      (a.1, acc.2 ++ [a.2])) (s4, [])
    slotsNote (advance (pairAll made.1 made.2) i)

/-- R19: DESCRIPTOR_FETCH_COMPLETE: no effect where the ring has no fetch in flight. -/
def execDescriptorFetchComplete (p : Fin 2) (r : Fin 16) (data : List (BitVec 512)) (s : State) :
    Host.Outcome State Fault Refusal := done s (fetchComplete s (16 * p + r) data)

/-- R304: the ring's CHART whose image is being fetched. -/
def imageEntry (s : State) (i : Nat) : Option Entry := s.hif.fetched.find? (fun e => decide (e.src = i) && e.imgWait)

/-- R304: a failed DMA read: counted and recorded; a descriptor fetch stops the ring, an image fetch marks its CHART. -/
def dmaFail (s : State) (i : Nat) (image timeout : Bool) (status : Nat) (poison : Bool) : State :=
  let p := i / 16
  let r := i % 16
  let act := if image then (imageEntry s i).isSome else (ringOf s i).flight.isSome
  if !act then s else
  let s1 := bump s (Reg.HIF_PCNT p (if timeout then 5 else 6))
  let s2 := report s1 (srcHif p) (if timeout then 0x48 else 0x49) (if image then 0x10 else r)
    (if timeout then 0 else if poison then 0x100 else status % 8)
  if image then
    match imageEntry s2 i with
    | none => s2
    | some e => slotsNote (advance (putEntry s2 { e with imgErr := true, imgWait := false }) i)
  else
    let s3 := setRing s2 i { (ringOf s2 i) with flight := none }
    slotsNote (regradeAll (fset (fset s3 (Reg.HIF_RING_STAT p r) Reg.HIF_RING_STAT_ACTIVE 0) (Reg.HIF_RING_STAT p r)
      Reg.HIF_RING_STAT_ERR (if timeout then 2 else 3)))

/-- R304: DMA_READ_FAILURE. -/
def execDmaReadFailure (p : Fin 2) (r : Fin 16) (image timeout : Bool) (status : BitVec 3) (poison : Bool) (s : State) :
    Host.Outcome State Fault Refusal := done s (dmaFail s (16 * p + r) image timeout status.toNat poison)

/-- R109: the image of a ring's CHART arrives. -/
def imageComplete (s : State) (i : Nat) (img : BitVec 8192) : State :=
  match imageEntry s i with
  | none => s
  | some e => slotsNote (advance (putEntry s { e with img := some img, imgWait := false }) i)

/-- R109: CHART_IMAGE_FETCH_COMPLETE. -/
def execChartImageFetchComplete (p : Fin 2) (r : Fin 16) (img : BitVec 8192) (s : State) :
    Host.Outcome State Fault Refusal := done s (imageComplete s (16 * p + r) img)

/-- R329: a completion ring's message is due: COUNT records, or TIME µs after the oldest. -/
def irqDue (s : State) (i : Nat) : Bool :=
  let g := ringOf s i
  let a := Reg.HIF_RING_IRQ (i / 16) (i % 16)
  let time := fget s a Reg.HIF_RING_IRQ_TIME
  decide (0 < g.irqN) && (decide (max 1 (fget s a Reg.HIF_RING_IRQ_COUNT) ≤ g.irqN) || decide (g.irqAt + 1000 * time ≤ s.up))

/-- R329: the message of a completion ring. -/
def sendIrq (s : State) (i : Nat) : State :=
  if irqDue s i then
    msix (setRing s i { (ringOf s i) with irqN := 0 }) (i / 16) (fget s (Reg.HIF_RING_CFG (i / 16) (i % 16)) Reg.HIF_RING_CFG_VEC)
  else s

/-- R329: COMPLETION_INTERRUPT. -/
def execCompletionInterrupt (p : Fin 2) (r : Fin 16) (s : State) : Host.Outcome State Fault Refusal := done s (sendIrq s (16 * p + r))

/-- R315: the 128 bytes of the status block. -/
def sblkBytes (s : State) (p : Nat) : List Nat :=
  let pt := portOf s p
  leBytes (pt.sblkSeq + 1) 4 ++ leBytes (b2n (halted s)) 4 ++
  ((List.range 16).flatMap (fun r => leBytes (fget s (Reg.HIF_RING_STAT p r) Reg.HIF_RING_STAT_HEAD) 2)) ++ leBytes 0 8 ++
  ((List.range 16).flatMap (fun i => leBytes (tget pt.streams Stream.init i).ofs 4)) ++ leBytes 0 16

/-- R315: the coalesced write of the status block. -/
def sblkWrite (s : State) (p : Nat) : State :=
  let pt := portOf s p
  if pt.sblkDirty.isNone ∨ fget s (Reg.HIF_SBLK_LO p) Reg.HIF_SBLK_LO_EN = 0 ∨ !portUp s p then s else
  setPort (emit s (.statusBlock p (sblkBytes s p))) p { pt with sblkDirty := none, sblkSeq := (pt.sblkSeq + 1) % 2 ^ 32 }

/-- R315: STATUS_BLOCK_WRITE. -/
def execStatusBlockWrite (p : Fin 2) (s : State) : Host.Outcome State Fault Refusal := done s (sblkWrite s p)

/-! ## Host-domain resets and the link (R306) -/

/-- R15, R306: the listed registers of a port take their H values. -/
def resetPortRegs (s : State) (p : Nat) : State :=
  let lo := 0x010000 + 0x4000 * p
  let f (e : Nat × BitVec 32) : Nat × BitVec 32 :=
    match findReg e.1 with
    | some row => if lo ≤ e.1 ∧ e.1 < lo + 0x4000 then (e.1, resetFields (·.h) row e.2) else e
    | none => e
  { s with regs := ((s.regs.map f).filter (fun e => decide (e.2 ≠ resetWord e.1))) }

/-- The source of a discarded ring: no record reaches it. -/
def deadSrc (p i : Nat) : Nat := if i < 32 ∧ i / 16 = p then 64 + i else i

/-- R306: a host-domain reset of one port; its configuration registers start anew. -/
def hostReset (s : State) (p : Nat) : State :=
  let s1 := resetPortRegs s p
  let pt := portOf s1 p
  let s2 := setPort s1 p { pt with msixEn := false, msixMask := false, sblkDirty := none, streams := [], faultWait := false, cfg := [] }
  { s2 with
    hif := { s2.hif with
      rings := s2.hif.rings.filterMap (fun r => if r.1 < 32 ∧ r.1 / 16 = p then
          (let g := { r.2 with tail := 0, doors := [], flight := none, irqN := 0 }
           if g = Ring.init then none else some (r.1, g)) else some r),
      waiting := s2.hif.waiting.filter (fun r => !decide (r.dst < 32 ∧ r.dst / 16 = p)),
      fetched := (s2.hif.fetched.filter (fun e => !decide (e.src < 32 ∧ e.port = p) || e.tIn.isSome)).map
        (fun e => { e with src := deadSrc p e.src }) },
    bel := { s2.bel with
      bells := s2.bel.bells.map (fun b => { b with src := deadSrc p b.src, twins := b.twins.filter (fun i => !decide (i < 32 ∧ i / 16 = p)) }),
      checks := s2.bel.checks.map (fun c => { c with src := deadSrc p c.src }) },
    dual := { s2.dual with twinWait := s2.dual.twinWait.map (fun d => (d.1, deadSrc p d.2.1, d.2.2)) } }

/-- R306, R332: PERST: the host domain, and the link with it. -/
def perstPort (s : State) (p : Nat) : State :=
  let s1 := hostReset s p
  regradeAll (fset (fset (fset s1 (Reg.HIF_PSTATUS p) Reg.HIF_PSTATUS_LINK 0) (Reg.HIF_PSTATUS p) Reg.HIF_PSTATUS_SPEED 0)
    (Reg.HIF_PSTATUS p) Reg.HIF_PSTATUS_WIDTH 0)

/-- R421: before power-on reset has released, PERST is ignored. -/
def execPerst (p : Fin 2) (s : State) : Host.Outcome State Fault Refusal := done s (if s.boot.powered then perstPort s p else s)

/-- R306: FUNCTION_LEVEL_RESET; the link stays. -/
def execFunctionLevelReset (p : Fin 2) (s : State) : Host.Outcome State Fault Refusal :=
  done s (regradeAll (fset (hostReset s p) (Reg.HIF_PSTATUS p) Reg.HIF_PSTATUS_FLR_BUSY 1))

/-- R306: FUNCTION_LEVEL_RESET_COMPLETE. -/
def execFunctionLevelResetComplete (p : Fin 2) (s : State) : Host.Outcome State Fault Refusal :=
  done s (fset s (Reg.HIF_PSTATUS p) Reg.HIF_PSTATUS_FLR_BUSY 0)

/-- R306: D3HOT_ENTRY. -/
def execD3hotEntry (p : Fin 2) (s : State) : Host.Outcome State Fault Refusal :=
  done s (fset s (Reg.HIF_PSTATUS p) Reg.HIF_PSTATUS_D3 1)

/-- R306: D3HOT_EXIT: a host-domain reset where No_Soft_Reset is 0; otherwise the owed records are written. -/
def d3Exit (s : State) (p : Nat) : State :=
  if fget s (Reg.HIF_PSTATUS p) Reg.HIF_PSTATUS_D3 = 0 then s
  else
    let s1 := if (portOf s p).noSoftReset then s else hostReset s p
    regradeAll (flushPort (fset s1 (Reg.HIF_PSTATUS p) Reg.HIF_PSTATUS_D3 0) p)

/-- R306: D3HOT_EXIT. -/
def execD3hotExit (p : Fin 2) (s : State) : Host.Outcome State Fault Refusal := done s (d3Exit s p)

/-- R306: the link is down. -/
def linkDown (s : State) (p : Nat) : State :=
  fset (fset (fset s (Reg.HIF_PSTATUS p) Reg.HIF_PSTATUS_LINK 0) (Reg.HIF_PSTATUS p) Reg.HIF_PSTATUS_SPEED 0)
    (Reg.HIF_PSTATUS p) Reg.HIF_PSTATUS_WIDTH 0

/-- R302, R332: a trained link shows its speed and width; the owed records are written in order. -/
def linkUp (s : State) (p speed width : Nat) : State :=
  flushPort (fset (fset (fset s (Reg.HIF_PSTATUS p) Reg.HIF_PSTATUS_LINK 1) (Reg.HIF_PSTATUS p) Reg.HIF_PSTATUS_SPEED speed)
    (Reg.HIF_PSTATUS p) Reg.HIF_PSTATUS_WIDTH width) p

/-! ## Configuration requests (R302, R305) -/

/-- The config registers of R302 that its table gives; the others are the boot image's or the specification's (free). -/
def configWord (s : State) (p reg : Nat) : BitVec 32 :=
  match tfind (portOf s p).cfg reg with
  | some w => w
  | none =>
    if reg = 0 then BitVec.ofNat 32 (0x6512 * 65536 + bits (Config.configSpace 0).toNat 0 16)
    else if reg = 8 then BitVec.ofNat 32 (0x118000 * 256 + bits (Config.configSpace 8).toNat 0 8)
    else if reg = 0x3C then BitVec.ofNat 32 ((Config.configSpace 0x3C).toNat &&& 0xFFFF00FF)
    else Config.configSpace (4096 * p + reg)

/-- A word with the bytes of another under byte enables. -/
def mergeBytes (old new be : Nat) : Nat :=
  (List.range 4).foldl (fun acc j => acc + (if bit be j then bits new (8 * j) 8 else bits old (8 * j) 8) * 2 ^ (8 * j)) 0

/-- The offset presumed for the MSI-X capability (notes/assumptions/14). -/
def msixCap : Nat := 0xB0

/-- R308: vectors that were held pending are sent once nothing masks them. -/
def msixRelease (s : State) (p : Nat) : State :=
  (List.range 64).foldl (fun s v =>
    if rbit s (Reg.HIF_MSIX_PBA p (v / 32)) (v % 32) ∧ (portOf s p).msixEn ∧ !(portOf s p).msixMask ∧
       fget s (Reg.HIF_MSIX_CTRL p v) Reg.HIF_MSIX_CTRL_MASK = 0 ∧ portUp s p
    then msix (rput s (Reg.HIF_MSIX_PBA p (v / 32)) (v % 32) false) p v else s) s

/-- R305: a configuration request: retry status before boot has loaded the configuration space; a read answers, a write
stores its enabled bytes, and MSI-X Enable and Function Mask act. -/
def configAccess (s : State) (p : Nat) (wr : Bool) (reg v be : Nat) : State :=
  if !s.boot.powered then emit s (.config p true 0)
  else
    let a := reg / 4 * 4
    if !wr then emit s (.config p false (configWord s p a))
    else
      let w := mergeBytes (configWord s p a).toNat v be
      let pt := portOf s p
      let pt1 := if a = 0 ∨ a = 8 then pt else { pt with cfg := tins pt.cfg a (BitVec.ofNat 32 w) }
      let pt2 := if a = msixCap then { pt1 with msixEn := bit w 31, msixMask := bit w 30 } else pt1
      msixRelease (setPort (emit s (.config p false 0)) p pt2) p

/-- R305: CONFIGURATION_REQUEST. -/
def execConfigurationRequest (p : Fin 2) (wr : Bool) (reg : BitVec 12) (v : BitVec 32) (be : BitVec 4) (s : State) :
    Host.Outcome State Fault Refusal := done s (configAccess s p wr reg.toNat v.toNat be.toNat)

end Sys2Proof.Machine
end

