-- ==== Sys2Proof/Machine/Repair.lean ====
section
/-! DEFINITION. Retirement and re-route (R51, R80, R360), un-retirement (R54), core migration (R225, R362, R363), release with its
records and its round (R137, R242), and the timetable descriptors with the calibration that they end (R239). -/

namespace Sys2Proof.Machine

/-! ## Retirement -/

/-- R51, R360: a present cell leaves the fabric, with its kind; a cell already retired stays as it is. -/
def retireCell (s : State) (i kind : Nat) : State :=
  if !cellUsable s i then s
  else
    let s1 := setRetired s i true kind
    let s2 := faultValue (faultValue s1 (2 * i)) (2 * i + 1)
    let s3 := holdOff (disown (cmpDisable s2 i) i) i
    let s4 := freezePort (bump (abortCell s3 i) (Reg.FLT_CNT 4)) i false
    { s4 with bel := { s4.bel with bells := s4.bel.bells.map (fun b =>
      if b.st = 6 ∧ (b.plan.map (fun p => p.cells.any (fun c => decide (c.1 = i)))).getD false ∧ !b.ver.landed.contains i then
        { b with ver := { b.ver with retired := b.ver.retired ++ [i] } } else b) } }

/-- R80: circuits of the solution in force just before an instant run through a cell; a bell before it that is not yet solved gets the
solution of its chart with the fault set of its cut-off. -/
def carriedBefore (s : State) (tr : Nat) (cells : List Nat) : Bool :=
  match (liveOrder s).reverse.find? (fun b => decide (b.t < tr)) with
  | some b =>
    let x := b.sol.getD (solve (fm s) (fun i => bit (faultSet (inputsOf s b)).toNat i) (chartFor s b).1)
    cells.any (fun i => !(circuitsThrough s x.st (chartFor s b).1 i).isEmpty)
  | none => cells.any (fun i => !(circuitsThrough s (forceVec s) s.bel.forceChart i).isEmpty)

/-- R187, R239: a cell is held at its present codes until a repair fire lands it (notes/assumptions/119). -/
def holdStopped (s : State) (i : Nat) : State :=
  let s1 := freeze (freeze s (2 * i)) (2 * i + 1)
  let s2 := setHcell (if modeBit s1 i 4 then setModeBit s1 i 4 false else s1) i { (hcell s1 i) with wrapAt := none }
  { s2 with cal := { s2.cal with stopped := (s2.cal.stopped ++ [i]).eraseDups } }

/-- R187, R239: the sweeps and the wraps whose span a repair fire at `tr` truncates stop, and their cells are held. -/
def stopForRepair (s : State) (tr : Nat) : State :=
  let cuts (w : Sweep) : Bool := match w.span with
    | some e => decide (tr < e + 2000)
    | none => false
  let cells := (s.cal.sweeps.filter (fun e => cuts e.2)).flatMap (fun e => e.1 :: e.2.path)
  let late := s.bel.openSpans.filter (fun x => x.2.begun && !x.2.ended && decide (tr < x.1 + x.2.ofs + x.2.len + 2000))
  let wraps := (List.range 6144).filter (fun i => modeBit s i 4 && decide (modeOf s i ≠ 1) &&
    (circuitsThrough s (forceVec s) s.bel.forceChart i).any (fun w => late.any (fun x => bit x.2.mask.toNat w)))
  (cells ++ wraps).foldl holdStopped (abortWhere s (fun _ w => cuts w) false)

/-- R80: a repair fire scheduled. -/
def addRepair (s : State) (tr : Nat) (cells : List Nat) : State :=
  let g := newGen s
  let b := Bell.mk s.bel.repairIdx 0 tr 0 g.1 1 false false 0 [] false 0 0 s.now 0 none none [] Verify.init [] true cells false
    (fget s Reg.BEL_KICK Reg.BEL_KICK_P_CELL) (fget s Reg.BEL_KICK Reg.BEL_KICK_E_CELL) none
  stopForRepair (addBell { g.2 with bel := { g.2.bel with repairIdx := g.2.bel.repairIdx + 1 } } b) tr

/-- R26, R27: the pipeline stands still: a restart window, a die shut-down, no supply. DOZE and NAP end with the retirement (R392). -/
def pipeHeld (s : State) : Bool :=
  !s.boot.powered || s.restart.inWindow || decide (fget s Reg.THM_STATUS Reg.THM_STATUS_DIE_SHUT = 1)

/-- R80: the re-route of retirements at this moment: by a bell, by a pending repair fire, by a new one, or none is needed. -/
def reroute (s : State) (cells : List Nat) : State :=
  let tx := nowNs s
  if cells.isEmpty then s
  else if pipeHeld s then { s with bel := { s.bel with reroutes := s.bel.reroutes ++ cells } }
  else if !inService s then s
  else if (timetable s).any (fun b => decide (tx + 12000 ≤ b.t ∧ b.t ≤ tx + 14000) && !windowed s b) then s
  else match (fireOrder s).find? (fun b => b.repair && decide (tx + 12000 ≤ b.t ∧ b.st < 5)) with
    | some b => putBell s { b with covers := b.covers ++ cells }
    | none =>
      let prev := ((liveOrder s).filter (fun b => decide (b.t < tx + 12000))).foldl (fun m b => max m b.t) (s.bel.lastFire.getD 0)
      let tr := gridUp (max (tx + 12000) (prev + 2000))
      if (timetable s).any (fun b => decide (tr ≤ b.t ∧ b.t < tr + 2000) && !windowed s b) then s
      else if carriedBefore s tr cells then addRepair s tr cells else s

/-- R392: a retirement takes the device back to RUN. -/
def retireWake (s : State) : State := wakeFor s 2

/-- R31: the circuits in force through a cell are interrupted: the owner's next report names them. -/
def noteLost (s : State) (i : Nat) : State :=
  let o := match s.bel.forceSrc with
    | some src => ownerPort s src
    | none => 2
  { s with bel := { s.bel with lost := (s.bel.lost ++ (circuitsThrough s (forceVec s) s.bel.forceChart i).map (fun w => (o, w))).eraseDups } }

/-- R67, R360: the requests that are due make one fault set change at the present drive tick edge. -/
def retirement (s : State) : State :=
  let q := s.bel.retireQ.filter (fun x => decide (x.2.2 ≤ nowNs s))
  if q.isEmpty then s
  else
    let new := ((q.map (·.1)).filter (cellUsable s)).eraseDups
    let s0 := new.foldl noteLost (keepInputs { s with bel := { s.bel with retireQ := s.bel.retireQ.filter (fun x => !decide (x.2.2 ≤ nowNs s)) } })
    let s1 := q.foldl (fun s x => retireCell s x.1 x.2.1) s0
    if new.isEmpty then s1 else retireWake (reroute (invalAll (journalDirty s1) true 3) new)

/-- R360: RETIREMENT. -/
def execRetirement (s : State) : Host.Outcome State Fault Refusal := done s (retirement s)

/-! ## Un-retirement (R54) -/

/-- R54, R141: a cell returns to service as ember at its nominal codes, with a stale entry. -/
def unRetireCell (s : State) (i : Nat) : State :=
  let s1 := bump (setRetired (keepInputs s) i false 0) (Reg.FLT_CNT 5)
  let s2 := restoreChan (restoreChan s1 (2 * i)) (2 * i + 1)
  let u0 := uOfCode (cellNom (fm s) i 0) (etaUse s2 i 0) (rEst s2 (2 * i)) (b2n (cellNomHi (fm s) i))
  let u1 := uOfCode (cellNom (fm s) i 1) (etaUse s2 i 1) (rEst s2 (2 * i + 1)) (b2n (cellNomHi (fm s) i))
  let u : Int := if cellNom (fm s) i 0 ≠ 0 then (u0 : Int) else -(u1 : Int)
  let s3 := setStale (newRecord s2 i 1 u) i true
  let s4 := if drvState s3 (i / 64) = 4 then toEmber s3 i else s3
  invalAll (journalDirty s4) true 3

/-- R54: a MAINT of the un-retire kind past the journal. -/
def unRetireAdmit (s : State) (e : Entry) : State :=
  let i := eMaintCell e
  if !cellPresent (fm s) i ∨ !isRetired s i then notAccepted (refuse s e 0x601 0 0) e
  else
    let a := accepted s e
    answer (unRetireCell a.1 i) e 0 0 0

/-- R54: UN_RETIRE; a MAINT whose KIND is not defined is refused here. -/
def execUnRetire (s : State) : Host.Outcome State Fault Refusal :=
  done s (admitIf s (fun _ e => decide (eType e = tyMaint ∧ eKind e ≠ 1)) (sharedGate unRetireAdmit))

/-! ## Core migration -/

/-- R362: the spare that takes a tile: the lowest core of the pool whose self-test passed. -/
def spareFor (s : State) : Option Nat :=
  (List.range 100).find? (fun k => decide (fget s (Reg.TRK_STATUS k) Reg.TRK_STATUS_SPARE = 1) && decide (coreState s k ≠ 3) &&
    !s.trk.unfitCores.contains k)

/-- R67, R83: a migration: every unarmed bell before its cut-off gets a new generation and is staged again, tile t from the same inputs and
so with the same plan; past its cut-off a bell keeps its generation, and only tile t's lost copy is made again. -/
def replanTile (s : State) : State :=
  (fireOrder s).foldl (fun s b => invalidateK s false true 6 b) s

/-- R363: no spare: the tile has no core, and its cells are retired with kind 8 and one record. -/
def noSpare (s : State) (t k : Nat) : State :=
  let s1 := report (setTmap s t 0xFF) srcRepair 0x78 t k
  let cells := ((List.range 64).map (fun c => 64 * t + c)).filter (cellUsable s1)
  let s2 := fset s1 (Reg.TRK_STATUS k) Reg.TRK_STATUS_TILE 0xFF
  { s2 with bel := { s2.bel with retireQ := s2.bel.retireQ ++ cells.map (fun i => (i, 8, gridAfter s.now)) } }

/-- R211, R225: the requests that a tile's sources hold are delivered to the spare. -/
def movePend (s : State) (k p : Nat) : State := setCore s p { (coreOf s p) with pend := (coreOf s p).pend ||| (coreOf s k).pend }

/-- R225, R362: MIGRATION: the oldest waiting tile gets its spare. -/
def migrate (s : State) : State :=
  match s.trk.migrate, s.trk.moving with
  | (t, k) :: rest, none =>
    let s1 := { s with trk := { s.trk with migrate := rest } }
    let s2 := roundsDrop s1 (fun u => decide (u = t))
    let s3 := { s2 with mem := copyRange s2.mem (actAt (64 * t)) 0x1000 s2.mem (bldAt (64 * t)) }
    (match spareFor s3 with
    | none => noSpare s3 t k
    | some p =>
      let s4 := fset (fset (setTmap s3 t p) (Reg.TRK_STATUS p) Reg.TRK_STATUS_TILE t) (Reg.TRK_STATUS p) Reg.TRK_STATUS_SPARE 0
      let s5 := movePend (fset s4 (Reg.TRK_STATUS k) Reg.TRK_STATUS_TILE 0xFF) k p
      replanTile { (bump s5 (Reg.FLT_CNT 3)) with trk := { s5.trk with moving := some (t, p, s5.up) } })
  | _, _ => s

/-- R362: MIGRATION. -/
def execMigration (s : State) : Host.Outcome State Fault Refusal := done s (migrate s)

/-- R202, R225: a core enters bank 0 at 0x0000 with a cause; requests stay. -/
def coreEnter (s : State) (k cause : Nat) : State :=
  setCoreState (setCore s k { Core.init with cause := cause, pend := (coreOf s k).pend, fifo := (coreOf s k).fifo }) k 2

/-- R225, R192: MIGRATION_COMPLETE: the context copied, the customer code, entry at bank 0 with CAUSE 2, the records rebuilt; the latched exits
keep level 2 pending. -/
def migrateEnd (s : State) : State :=
  match s.trk.moving with
  | none => s
  | some (t, k, _) =>
    let s1 := { s with trk := { s.trk with moving := none, dmem := copyRange s.trk.ctx (2 ^ 14 * t) 16384 s.trk.dmem (65536 * k + 0x8000),
                                           imem := copyRange s.trk.imem (65536 * 100) 65536 s.trk.imem (65536 * k) } }
    let s2 := kernelBlock (coreEnter { s1 with trk := { s1.trk with dmem := copyRange s1.trk.ctx (2 ^ 14 * t + 0x2040) 64 s1.trk.dmem (65536 * k + 0x700) } } k 2) k
    if drvState s2 t = 4 then rebuildTile s2 t false else s2

/-- R225: MIGRATION_COMPLETE. -/
def execMigrationComplete (s : State) : Host.Outcome State Fault Refusal := done s (migrateEnd s)

/-! ## Release (R136, R137) -/

/-- R137, R191, R242: a tile that was just released gets its records and its first round. -/
def afterRelease (old s : State) (t : Nat) : State := firstRelease old (released old s t) t

/-- R136: PARKED: the last park slew of a tile is complete. -/
def execParked (t : Fin 96) (s : State) : Host.Outcome State Fault Refusal := done s (afterRelease s (parkDone s t) t)

/-! ## Timetable descriptors -/

/-- R239: calibration work that an accepted bell ends. -/
def calForBell (act : State → Entry → State) (order : Entry → Nat) (s : State) (e : Entry) : State :=
  let s1 := act s e
  let at_ (x : State) : Option Bell := x.bel.bells.find? (fun b => !b.repair && decide (b.order = order e))
  match at_ s1 with
  | some b => if (at_ s).map (fun x => (x.t, x.slot, x.gen)) = some (b.t, b.slot, b.gen) then s1 else abortForBell s1 b.t b.slot
  | none => s1

/-- R56: BELL; a descriptor whose type is not defined is refused here. -/
def execBell (s : State) : Host.Outcome State Fault Refusal :=
  done s (admitIf s (fun _ e => decide (eType e = tyBell ∨ eType e = 0)) (sharedGate (calForBell bellAdmit (·.order))))

/-- R57: NOW. -/
def execNow (s : State) : Host.Outcome State Fault Refusal := done s (admitIf s (isType tyNow) (sharedGate (calForBell nowAdmit (·.order))))

/-- R58: AMEND. -/
def execAmend (s : State) : Host.Outcome State Fault Refusal := done s (admitIf s (isType tyAmend) (sharedGate (calForBell amendAdmit eTarget)))

/-- R59: CANCEL. -/
def execCancel (s : State) : Host.Outcome State Fault Refusal := done s (admitIf s (isType tyCancel) (sharedGate cancelAdmit))

/-! ## Host links (R302, R348) -/

/-- R302: PCIE_LINK_DOWN. -/
def execPcieLinkDown (p : Fin 2) (s : State) : Host.Outcome State Fault Refusal := done s (regradeAll (linkDown s p))

/-- R302: PCIE_LINK_UP. -/
def execPcieLinkUp (p : Fin 2) (speed width : BitVec 3) (s : State) : Host.Outcome State Fault Refusal :=
  done s (regradeAll (linkUp s p speed.toNat width.toNat))

end Sys2Proof.Machine
end

