-- ==== Sys2Proof/Machine/Tmu.lean ====
section
/-! DEFINITION. The time unit (R272 to R288): setting time, sources and their selection, the servo, holdover, PPS, bell outputs and the
scheduling of roll calls. -/

namespace Sys2Proof.Machine

/-! ## Time and the drive grid -/

/-- R20: the next drive tick edge after now, in 2^-40 ns. -/
def tickAfter (s : State) : Nat := (s.now / (20 * q40) + 1) * (20 * q40)

/-- R274: device TAI takes `v` (2^-40 ns) at the next drive tick edge. -/
def loadTime (s : State) (v : Nat) : State := { s with tmu := { s.tmu with setDue := some (tickAfter s, v) } }

/-- R214, R274: a forward change of device TAI between two counts of drive ticks matches every compare that it passes (notes/assumptions/116). -/
def timersPass (s : State) (old new : Nat) : State :=
  (List.range 100).foldl (fun s k => (List.range 4).foldl (fun s n =>
    let v := tget (coreOf s k).tcmp 0 n
    if v ≠ 0 ∧ old < new ∧ (v - 1 + 2 ^ 32 - old % 2 ^ 32) % 2 ^ 32 ≤ new - old then
      pendLevel (setCore s k { (coreOf s k) with tcmp := tset (coreOf s k).tcmp 0 n 0 }) k 3
    else s) s) s

/-- R274: a set or step whose edge has come; the PPS references and the open KICK windows move with the scale, and the compares that it
passes match (notes/assumptions/116). -/
def applySet (s : State) : State :=
  match s.tmu.setDue with
  | some (e, v) =>
    if e ≤ s.now then
      let d : Int := ((v : Int) - e) / 2 ^ 24
      let s1 := { s with now := v + (s.now - e),
                         tmu := { s.tmu with setDue := none, ppsAt := s.tmu.ppsAt.map (fun x => (x.1, (x.2 + d).toNat)) },
                         pwr := { s.pwr with wins := s.pwr.wins.map (fun w => (w.1, ((w.2 : Int) + d / 65536).toNat)) } }
      timersPass s1 (e / (20 * q40)) (v / (20 * q40))
    else s
  | none => s

/-- R281: the timetable is empty: no bell pends and none is in verify. -/
def timetableEmpty (s : State) : Bool := decide (pendingBells s = 0) && s.bel.bells.all (fun b => b.repair || decide (b.st < 6))

/-- The servo's state (R280) and the selected source. -/
def servo (s : State) : Nat := fget s Reg.TMU_STATUS Reg.TMU_STATUS_SERVO
def setServo (s : State) (v : Nat) : State :=
  fset { s with tmu := { s.tmu with inN := 0, outN := 0 } } Reg.TMU_STATUS Reg.TMU_STATUS_SERVO v
def srcNow (s : State) : Nat := fget s Reg.TMU_STATUS Reg.TMU_STATUS_SRC
def setSrc (s : State) (k : Nat) : State := fset s Reg.TMU_STATUS Reg.TMU_STATUS_SRC k
def stepped (s : State) : Bool := decide (fget s Reg.TMU_STATUS Reg.TMU_STATUS_STEPPED = 1)
def setStepped (s : State) : State := fset s Reg.TMU_STATUS Reg.TMU_STATUS_STEPPED 1
def qualified (s : State) (k : Nat) : Bool := bit (fget s Reg.TMU_STATUS Reg.TMU_STATUS_QUAL) k
def freqSynce (s : State) : Bool := decide (fget s Reg.TMU_STATUS Reg.TMU_STATUS_FREQ_SYNCE = 1)

/-! ## Rate (R282, R283) -/

/-- R282: the applied rate correction, in 2^-40, shown in TMU_SV1, with its history of the last 257 s. -/
def setRho (s : State) (r : Int) : State :=
  let h := (s.up, r) :: s.tmu.hist
  let old := h.findIdx (fun x => decide (x.1 + 257000000000 ≤ s.up))
  rset { s with rho := r, tmu := { s.tmu with hist := h.take (old + 1) } } (Reg.TMU_SV 1) (BitVec.ofNat 32 (enc r 32))

/-- The rate's integral over up times `[a, b)`, from a history with the newest change first; the last change reaches to `e`. -/
def rhoSum (a b : Nat) : Nat → List (Nat × Int) → Int
  | _, [] => 0
  | e, (t, r) :: l => r * max 0 ((min b e : Int) - (max a t : Int)) + rhoSum a b t l

/-- R283: the mean rate over the HO_AVG seconds that end 2 s before now (what there is of them). -/
def rhoMean (s : State) : Int :=
  let b := s.up - 2000000000
  let a := b - 1000000000 * max 1 (fget s Reg.TMU_HO Reg.TMU_HO_HO_AVG)
  if a < b then rhoSum a b s.up s.tmu.hist / (b - a : Int) else 0

/-- R283: entry to HOLDOVER on the loss of source `k`. -/
def holdoverIn (s : State) (k : Nat) : State :=
  let s1 := setServo s 5
  let s2 := setRho s1 (if freqSynce s1 then 0 else rhoMean s1)
  let x := (s.tmu.smps.head?).getD 0
  let s3 := { s2 with tmu := { s2.tmu with hoAt := s.up, hoX := x.natAbs, hoSrc := k, integ := 0 } }
  report (bump s3 (Reg.TMU_CNT 2)) srcTmu 0x59 k 0

/-- R283: t of a holdover, in ns. -/
def hoNs (s : State) : Nat := s.up - s.tmu.hoAt

/-- R283: the seconds in holdover, and the estimate in ns. -/
def hoSec (s : State) : Nat := min (hoNs s / 1000000000) 0xFFFFFF
def hoErr (s : State) : Nat :=
  let t := hoNs s
  min 0xFFFFFFFF ((s.tmu.hoX * 10 ^ 24 + fget s Reg.TMU_OSC Reg.TMU_OSC_RATE_UNC * t * 65536 * 10 ^ 12 +
    fget s Reg.TMU_OSC Reg.TMU_OSC_DRIFT * t * t * 65536 / 2) / (65536 * 10 ^ 24))

/-- R283: HOLDOVER ends; its figures stay. -/
def holdoverOut (s : State) : State :=
  let s1 := rset (fset s Reg.TMU_HO Reg.TMU_HO_HO_SEC (hoSec s)) Reg.TMU_HO_ERR (BitVec.ofNat 32 (hoErr s))
  report (setServo s1 3) srcTmu 0x59 s.tmu.hoSrc 1

/-! ## Selection (R278) -/

/-- R278: priorities and the forced source. -/
def prioOf (s : State) (k : Nat) : Nat := bits (rget s Reg.TMU_SRC_PRIO).toNat (4 * k) 4
def forcedSrc (s : State) : Option Nat :=
  let f := fget s Reg.TMU_CTRL Reg.TMU_CTRL_FORCE_SRC
  if f ≤ 5 then some f else none

/-- R278: the source that selection prefers. -/
def bestSrc (s : State) : Option Nat :=
  match forcedSrc s with
  | some k => if qualified s k then some k else none
  | none => minBy (fun k => (prioOf s k : Int)) ((List.range 6).filter (fun k => qualified s k && decide (prioOf s k < 15)))

/-- R278, R280: a source is selected. -/
def select (s : State) (k : Nat) : State :=
  let old := srcNow s
  let s1 := setSrc { s with tmu := { s.tmu with smps := [], lastAt := none } } k
  let s2 := if old < 6 ∧ old ≠ k then bump s1 (Reg.TMU_CNT 1) else s1
  match servo s2 with
  | 0 => setServo s2 1
  | 5 => holdoverOut s2
  | _ => s2

/-- R280: no source is left: FREERUN before the first lock, HOLDOVER after it. -/
def unselect (s : State) : State :=
  let old := srcNow s
  let s1 := setSrc s 7
  let s2 := match servo s with
    | 0 => s1
    | 5 => s1
    | _ => if stepped s then holdoverIn s1 old else
        setRho (setServo { s1 with tmu := { s1.tmu with smps := [], integ := 0 } } 0) 0
  if fget s2 Reg.TMU_CMD_STATUS Reg.TMU_CMD_STATUS_LAST = 1 then fset s2 Reg.TMU_CMD_STATUS Reg.TMU_CMD_STATUS_LAST 2 else s2

/-- R278: the selected source is left if it is not the forced one, not qualified or disabled; without one the best is taken at once. -/
def reselect (s : State) : State :=
  let cur := srcNow s
  let keep := decide (cur < 6) && qualified s cur && (match forcedSrc s with | some k => decide (k = cur) | none => decide (prioOf s cur < 15))
  if keep then s
  else match bestSrc s with
    | some k => select s k
    | none => if cur < 6 then unselect s else s

/-- R277: a source is lost. -/
def srcLost (s : State) (k : Nat) : State :=
  let s0 := { s with tmu := { s.tmu with qualN := tset s.tmu.qualN 0 k 0, qualAt := tset s.tmu.qualAt 0 k 0 } }
  if qualified s k then
    let s1 := rput s0 Reg.TMU_STATUS (8 + k) false
    reselect (report s1 srcTmu 0x58 k (servo s))
  else s0

/-- R277, R278: a source becomes qualified. -/
def srcGained (s : State) (k : Nat) : State :=
  if qualified s k then s
  else
    let s1 := rput { s with tmu := { s.tmu with qualAt := tset s.tmu.qualAt 0 k s.up } } Reg.TMU_STATUS (8 + k) true
    if srcNow s1 = 7 ∨ (forcedSrc s1).isSome then reselect s1 else s1

/-- R278: a better source has stayed qualified for WTR. -/
def waitToRestore (s : State) : State :=
  match bestSrc s with
  | some k =>
    if srcNow s < 6 ∧ k ≠ srcNow s ∧ tget s.tmu.qualAt 0 k + 1000000000 * fget s Reg.TMU_CTRL Reg.TMU_CTRL_WTR ≤ s.up then select s k else s
  | none => s

/-- R278: WAIT_TO_RESTORE. -/
def execWaitToRestore (s : State) : Host.Outcome State Fault Refusal := done s (waitToRestore s)

/-! ## The servo (R280 to R282) -/

/-- R281: the step threshold and the lock threshold, in 2^-16 ns. -/
def stepMin (s : State) : Nat := 20 * 65536 * fget s Reg.TMU_STEP Reg.TMU_STEP_STEP_MIN
def lockThr (s : State) : Nat := 2 * 65536 * fget s Reg.TMU_SERVO Reg.TMU_SERVO_LOCK_THR

/-- R281: the servo steps device TAI by -m (2^-16 ns) at the next edge. -/
def stepBy (s : State) (m : Int) : State :=
  let s1 := loadTime s ((tickAfter s : Int) - m * 2 ^ 24).toNat
  let s2 := { s1 with tmu := { s1.tmu with smps := [] } }
  let s3 := bump (setStepped (setServo s2 3)) (Reg.TMU_CNT 0)
  if fget s3 Reg.TMU_CMD_STATUS Reg.TMU_CMD_STATUS_LAST = 1 then fset s3 Reg.TMU_CMD_STATUS Reg.TMU_CMD_STATUS_LAST 0 else s3

/-- R282: I and ρ from a sample x taken `ts` µs after the previous one. -/
def rateUpdate (s : State) (x : Int) (ts : Nat) : State :=
  let kp := fget s Reg.TMU_SERVO Reg.TMU_SERVO_KP
  let ki := fget s Reg.TMU_SERVO Reg.TMU_SERVO_KI
  let lim : Int := max 1 (fget s Reg.TMU_SERVO Reg.TMU_SERVO_MAXRATE) * 2 ^ 40 / 1000000
  let i : Int := if freqSynce s ∨ servo s = 5 then 0 else s.tmu.integ + ki * x * ts
  let p : Int := if servo s = 2 then 0 else kp * x * 4000000
  let r := -((p + i) * 2 ^ 14 / 10 ^ 15)
  setRho { s with tmu := { s.tmu with integ := i } } (max (-lim) (min lim r))

/-- R280: the state that a sample leads to in LOCKING and LOCKED. -/
def lockUpdate (s : State) (x : Int) : State :=
  if servo s = 3 then
    let n := if x.natAbs ≤ lockThr s then s.tmu.inN + 1 else 0
    if 16 ≤ n then setServo s 4 else { s with tmu := { s.tmu with inN := n } }
  else if servo s = 4 then
    let n := if 2 * lockThr s < x.natAbs then s.tmu.outN + 1 else 0
    if 4 ≤ n then setServo s 3 else { s with tmu := { s.tmu with outN := n } }
  else s

/-- R281: ACQUIRE has its 8 samples: lock by rate, step, or wait for an empty timetable. -/
def acquired (s : State) : State :=
  if servo s = 1 ∧ 8 ≤ s.tmu.smps.length then
    let m := median s.tmu.smps
    if m.natAbs < stepMin s then setStepped (setServo s 3)
    else if timetableEmpty s then stepBy s m
    else setServo s 2
  else s

/-- R282: an offset sample of the selected source enters the servo. -/
def servoSample (s : State) (x : Int) (at_ : Nat) : State :=
  let ts := match s.tmu.lastAt with | some a => (at_ - a) / 1000 | none => 0
  let s1 := { s with tmu := { s.tmu with smps := (x :: s.tmu.smps).take 8, lastAt := some at_ } }
  let s2 := rset s1 (Reg.TMU_SV 0) (BitVec.ofNat 32 (enc (satS (x / 4096) 32) 32))
  acquired (lockUpdate (rateUpdate s2 x ts) x)

/-- R277, R282: OFFSET_SAMPLE: the oldest waiting sample of source k. Eight in a row qualify a PTP source. -/
def offsetSample (s : State) (k : Nat) : State :=
  match s.tmu.waiting.find? (fun x => decide (x.1 = k)) with
  | none => s
  | some w =>
    let s1 := { s with tmu := { s.tmu with waiting := s.tmu.waiting.erase w } }
    let n := tget s1.tmu.qualN 0 k + 1
    let s2 := if k < 4 ∧ fget s1 (Reg.ETH_STATUS k) Reg.ETH_STATUS_PTP_STATE = 9 then
        let s2 := { s1 with tmu := { s1.tmu with qualN := tset s1.tmu.qualN 0 k (min n 8) } }
        if 8 ≤ n then srcGained s2 k else s2
      else s1
    if srcNow s2 = k then servoSample s2 w.2.1 w.2.2 else s2

/-- R282: OFFSET_SAMPLE. -/
def execOffsetSample (k : Fin 6) (s : State) : Host.Outcome State Fault Refusal := done s (offsetSample s k)

/-- R281: TIME_STEP: in STEP_WAIT with an empty timetable the servo steps by the median of the 8 newest samples. -/
def timeStep (s : State) : State :=
  if servo s = 2 ∧ timetableEmpty s ∧ 8 ≤ s.tmu.smps.length then stepBy s (median s.tmu.smps) else s

/-- R281: TIME_STEP. -/
def execTimeStep (s : State) : Host.Outcome State Fault Refusal := done s (timeStep s)

/-! ## PPS inputs (R277, R287) -/

/-- R284: a timestamp of now in 2^-16 ns: a whole number of 50 ps, with the device's own contribution of at most 0.5 ns. -/
def stamp (s : State) : Int × State :=
  let d := draw s
  let e : Int := ((Config.stampError d.1).toNat % 21 : Int) - 10
  (((s.now * 20 / q40 : Int) + e) * 65536 / 20, d.2)

/-- R277: an edge's device time lies 1 s ± 100 µs after `p`, all in 2^-16 ns. -/
def ppsInWindow (p t : Int) : Bool := decide ((t - p - 65536 * 1000000000).natAbs ≤ 65536 * 100000)

/-- R277: the seconds of an edge: TMU_PPSm_SEC if written since, else the previous edge's plus 1; for a first edge device time's. -/
def ppsSeconds (s : State) (m : Nat) : Nat :=
  if s.tmu.ppsSecW.contains m then (rget s (Reg.TMU_PPS_SEC m)).toNat + secOf s.now / 2 ^ 32 * 2 ^ 32
  else match tfind s.tmu.ppsSec m with
    | some v => v + 1
    | none => (nowNs s + 500000000) / 1000000000

/-- R277: PPS_EDGE: the edge is timestamped, checked against its window, and gives an offset sample. -/
def ppsEdge (s : State) (m : Nat) (falling : Bool) : State :=
  let cfg := Reg.TMU_PPS_CFG m
  if fget s cfg Reg.TMU_PPS_CFG_EN = 0 ∨ falling ≠ decide (fget s cfg Reg.TMU_PPS_CFG_EDGE = 1) then s
  else
    let st := stamp s
    let t := st.1 - sext (fget s cfg Reg.TMU_PPS_CFG_DELAY) 16 * 65536 / 20
    let s1 := st.2
    let sec := ppsSeconds s1 m
    let accept (s : State) (n : Nat) : State :=
      { s with tmu := { s.tmu with
          ppsAt := tins s.tmu.ppsAt m t.toNat, ppsSec := tins s.tmu.ppsSec m sec, ppsSecW := s.tmu.ppsSecW.erase m,
          ppsMiss := tset s.tmu.ppsMiss 0 m 0, qualN := tset s.tmu.qualN 0 (4 + m) (min n 3) } }
    match tfind s1.tmu.ppsAt m with
    | none => accept s1 0
    | some p =>
      if ppsInWindow p t then
        let n := tget s1.tmu.qualN 0 (4 + m) + 1
        let s2 := accept s1 n
        let s3 := { s2 with tmu := { s2.tmu with waiting := s2.tmu.waiting ++ [(4 + m, t - 65536 * 1000000000 * sec, s.up)] } }
        if 3 ≤ n then srcGained s3 (4 + m) else s3
      else
        let s2 := bump s1 (Reg.TMU_CNT 7)
        if qualified s2 (4 + m) then s2 else accept s2 0

/-- R277: PPS_EDGE. -/
def execPpsEdge (m : Fin 2) (falling : Bool) (s : State) : Host.Outcome State Fault Refusal := done s (ppsEdge s m falling)

/-- R277: PPS_WINDOW_EXPIRY: a window has passed without an edge; two in a row lose the source. -/
def ppsExpiry (s : State) (m : Nat) : State :=
  match tfind s.tmu.ppsAt m with
  | none => s
  | some p =>
    if 65536 * nowNs s ≤ p + 65536 * 1000100000 then s
    else
      let n := tget s.tmu.ppsMiss 0 m + 1
      let s1 := { s with tmu := { s.tmu with ppsMiss := tset s.tmu.ppsMiss 0 m n, ppsAt := tins s.tmu.ppsAt m (p + 65536 * 1000000000),
                                             qualN := tset s.tmu.qualN 0 (4 + m) 0 } }
      if 2 ≤ n then srcLost { s1 with tmu := { s1.tmu with ppsAt := tdel s1.tmu.ppsAt m, ppsMiss := tset s1.tmu.ppsMiss 0 m 0 } } (4 + m)
      else s1

/-- R277: PPS_WINDOW_EXPIRY. -/
def execPpsWindowExpiry (m : Fin 2) (s : State) : Host.Outcome State Fault Refusal := done s (ppsExpiry s m)

/-! ## Outputs (R286, R287) -/

/-- R286, R287: a trim in 2^-40 ns: units of 50 ps, held to ±200. -/
def fineOf (w : BitVec 32) : Int := max (-200) (min 200 (sext (w.toNat % 65536) 16)) * (q40 : Int) / 20

/-- R287: the PPS output's edges. -/
def ppsEdgeOut (s : State) (on : Bool) (t : Nat) : State :=
  emit s (.ppsOut (on ≠ decide (fget s Reg.TMU_PPS_OUT Reg.TMU_PPS_OUT_POL = 1)) t)

/-- R287: PPS_OUT: the pulse of a second that has begun, and its end after WIDTH. -/
def ppsOutput (s : State) : State :=
  let s1 := match s.tmu.ppsEnd with
    | some e => if e ≤ s.now then ppsEdgeOut { s with tmu := { s.tmu with ppsEnd := none } } false e else s
    | none => s
  let sec := secOf s1.now
  let at_ := ((sec * 1000000000 * q40 : Nat) + fineOf (rget s1 Reg.TMU_PPS_TRIM)).toNat
  let squelched := decide (fget s1 Reg.TMU_CTRL Reg.TMU_CTRL_PPS_SQUELCH = 1) && decide (servo s1 < 3)
  if sec = s1.tmu.ppsLast ∨ s1.now < at_ then s1
  else
    let s2 := { s1 with tmu := { s1.tmu with ppsLast := sec } }
    if fget s2 Reg.TMU_PPS_OUT Reg.TMU_PPS_OUT_EN = 0 ∨ squelched then s2
    else
      let w := max 1 (fget s2 Reg.TMU_PPS_OUT Reg.TMU_PPS_OUT_WIDTH)
      ppsEdgeOut { s2 with tmu := { s2.tmu with ppsEnd := some (at_ + w * 1000 * q40) } } true at_

/-- R287: PPS_OUT. -/
def execPpsOut (s : State) : Host.Outcome State Fault Refusal := done s (ppsOutput s)

/-- R286: whether a bell output pulses for a bell. -/
def pulseFor (s : State) (n : Nat) (b : Bell) : Bool :=
  match fget s (Reg.TMU_BELL_CFG n) Reg.TMU_BELL_CFG_SEL with
  | 1 => !b.repair
  | 2 => !b.repair && bit b.outmask n
  | 3 => b.repair
  | 4 => true
  | _ => false

/-- R286: the start of a pulse (2^-40 ns) and whether it is a short-lead pulse. -/
def pulseStart (s : State) (n : Nat) (b : Bell) : Nat × Bool :=
  let cfg := Reg.TMU_BELL_CFG n
  let nom := b.t * q40 - 20 * q40 * min 800 (fget s cfg Reg.TMU_BELL_CFG_LEAD)
  if b.repair ∧ nom < b.tIn then (b.tIn + 100 * q40, true)
  else ((nom + fineOf (rget s (Reg.TMU_BELL_TRIM n))).toNat, false)

/-- R286: the instant at which the pipeline ran again after the last restart (2^-40 ns); 0 before any. -/
def resumedAt (s : State) : Nat := (s.bel.skipTo - 12000) * q40

/-- R286: an edge of a bell output. -/
def bellEdge (s : State) (n : Nat) (on : Bool) (t : Nat) : State :=
  emit s (.bellOut n (on ≠ decide (fget s (Reg.TMU_BELL_CFG n) Reg.TMU_BELL_CFG_POL = 1)) t)

/-- R286: the pulse that has run its width ends. -/
def pulseEnd (s : State) (n : Nat) : State :=
  match tfind s.tmu.bellEnd n with
  | some e => if e ≤ s.now then bellEdge { s with tmu := { s.tmu with bellEnd := tdel s.tmu.bellEnd n } } n false e else s
  | none => s

/-- R286: a pulse starts; one that is still asserted ends a tick earlier. A start inside a restart window waits for the pipeline. -/
def pulseBegin (s : State) (n : Nat) (b : Bell) : State :=
  let p := pulseStart s n b
  let late := decide (s.restart.taiAt ≤ p.1) && decide (p.1 < resumedAt s)
  let at_ := if late then resumedAt s else p.1
  let s1 := if (tfind s.tmu.bellEnd n).isSome then bellEdge s n false (at_ - 20 * q40) else s
  let w := max 1 (fget s (Reg.TMU_BELL_CFG n) Reg.TMU_BELL_CFG_WIDTH)
  let keep := s1.tmu.pulses.filter (fun x => decide (nowNs s ≤ x.1 + 1000000))
  let s2 := { s1 with tmu := { s1.tmu with pulses := (b.t, n) :: keep, bellEnd := tins s1.tmu.bellEnd n (at_ + 20 * w * q40) } }
  let s3 := bump (bellEdge s2 n true at_) (Reg.TMU_CNT 3)
  if late ∨ p.2 then bump s3 (Reg.TMU_CNT 5) else s3

/-- R286: BELL_PULSE: the end that is due, then the pulse that is due. -/
def bellPulse (s : State) (n : Nat) : State :=
  let s1 := pulseEnd s n
  let isDue (b : Bell) : Bool := pulseFor s1 n b && !s1.tmu.pulses.contains (b.t, n) && decide ((pulseStart s1 n b).1 ≤ s1.now) &&
    (b.repair || decide (s1.bel.skipTo < b.t))
  if s1.restart.inWindow then s1
  else match minBy (fun b => (b.t : Int)) (s1.bel.bells.filter isDue) with
    | some b => pulseBegin s1 n b
    | none => s1

/-- R286: BELL_PULSE. -/
def execBellPulse (n : Fin 8) (s : State) : Host.Outcome State Fault Refusal := done s (bellPulse s n)

/-! ## Commands (R274, R281, R288) -/

/-- R274, R288: a time in registers: seconds and nanoseconds, in ns. -/
def timeIn (s : State) (reg : Nat → Nat) : Nat :=
  ((rget s (reg 1)).toNat + (rget s (reg 2)).toNat * 2 ^ 32) * 1000000000 + (rget s (reg 0)).toNat

/-- TMU_CMD_STATUS.LAST. -/
def setLast3 (s : State) (v : Nat) : State := fset s Reg.TMU_CMD_STATUS Reg.TMU_CMD_STATUS_LAST v

/-- R274: SET. -/
def setTime (s : State) : State :=
  if servo s = 0 ∧ timetableEmpty s ∧ (rget s (Reg.TMU_SET 0)).toNat ≤ 999999999 then
    setLast3 (loadTime s (timeIn s Reg.TMU_SET * q40)) 0
  else setLast3 s 2

/-- R281: STEP asks for one further step. -/
def askStep (s : State) : State :=
  if srcNow s < 6 ∧ qualified s (srcNow s) then setLast3 (setServo { s with tmu := { s.tmu with smps := [] } } 2) 1 else setLast3 s 2

/-- R288: RC_ARM. -/
def armRollCall (s : State) : State :=
  let t := timeIn s Reg.TMU_RC
  let n := (rget s (Reg.TMU_RC 0)).toNat
  if n % 20 ≠ 0 ∨ 999999999 < n ∨ t * q40 < s.now + 100 * q40 then fset s Reg.TMU_RC_STATUS Reg.TMU_RC_STATUS_REFUSED 1
  else fset (fset { s with tmu := { s.tmu with rcAt := some (t, false) } } Reg.TMU_RC_STATUS Reg.TMU_RC_STATUS_REFUSED 0)
    Reg.TMU_RC_STATUS Reg.TMU_RC_STATUS_ARMED 1

/-- R288: RC_NOW: the first tick edge at least 40 ns ahead. -/
def rollCallNow (s : State) : State :=
  { s with tmu := { s.tmu with rcNow := some (s.tmu.rcNow.getD (gridAfter (s.now + 40 * q40))) } }

/-- R300: RC_STOP stops periodic roll calls; a single one that is armed stays. -/
def stopRollCalls (s : State) : State :=
  match s.tmu.rcAt with
  | none => s
  | some (_, again) =>
    if again ∨ rget s Reg.TMU_RC_PERIOD ≠ 0 then
      fset { s with tmu := { s.tmu with rcAt := none } } Reg.TMU_RC_STATUS Reg.TMU_RC_STATUS_ARMED 0
    else s

/-- R300: a write of TMU_CMD. -/
def tmuCmd (s : State) (v : Nat) : State :=
  let s1 := if bit v 0 then setTime s else s
  let s2 := if bit v 1 then askStep s1 else s1
  let s3 := if bit v 2 then armRollCall s2 else s2
  let s4 := if bit v 3 then rollCallNow s3 else s3
  if bit v 4 then stopRollCalls s4 else s4

/-! ## Reads (R273, R275) -/

/-- R273: the requesters with a capture of their own; the SPI port uses the maintenance port's (notes/assumptions/50). -/
def capOf (m : Master) : Nat :=
  match m with
  | .hostA => 0
  | .hostB => 1
  | .sup => 2
  | .mnt => 3
  | .leg => 3

/-- R273: a read of TMU_NOW0 captures the counter as it stands in this cycle. -/
def captureNow (s : State) (m : Master) : State :=
  let c := s.now
  let put (l : Tab Nat) (k v : Nat) : Tab Nat := tset l 0 (4 * capOf m + k) v
  { s with tmu := { s.tmu with caps := put (put (put (put s.tmu.caps 0 (nsOf c)) 1 (fracOf c)) 2 (secOf c % 2 ^ 32)) 3 (secOf c / 2 ^ 32 % 2 ^ 32) } }

/-- R273: what a read of TMU_NOWk returns. -/
def nowWord (s : State) (m : Master) (k : Nat) : BitVec 32 := BitVec.ofNat 32 (tget s.tmu.caps 0 (4 * capOf m + k))

end Sys2Proof.Machine
end

