-- ==== Sys2Proof/Machine/Clock.lean ====
section
/-! DEFINITION. What the device does when no command waits: its clocks advance (R1, R6, R272). -/

namespace Sys2Proof.Machine

/-- R392: a power-state exit that is due has reached RUN, and scan and averaging restart (R166). -/
def wakeDue (s : State) : State :=
  match s.boot.pstWake with
  | some w => if w ≤ s.up then
      monResume (fset { s with boot := { s.boot with pstWake := none } } Reg.GLB_PSTATE Reg.GLB_PSTATE_STATE 0)
    else s
  | none => s

/-- R136: boot firmware loads the park codes of the tiles in ZERO (notes/assumptions/17). -/
def parkLoads (s : State) : State := (List.range 96).foldl parkLoad s

/-- R6, R272: one core clock (2 ns) passes: device TAI advances at its rate, a SET or step whose edge has come applies (R274), the kernels
ask for the TAU bursts that are due (R238); the empty queue stays empty (notes/assumptions/2). -/
def idle (s : State) : State :=
  tauAsks <| parkLoads <| wakeDue <| applySet { s with now := ((s.now : Int) + 2 * q40 + 2 * s.rho).toNat, up := s.up + 2 }

end Sys2Proof.Machine
end

