-- ==== Sys2Proof/Machine/Eth.lean ====
section
/-! DEFINITION. The network ports (R279, R289 to R295): links, PTP messages, SyncE and its ESMC, ARP and neighbour discovery. -/

namespace Sys2Proof.Machine

/-! ## Ports -/

/-- A port's state beyond its registers. -/
def eport (s : State) (e : Nat) : EPort := tget s.eth EPort.init e
def setEport (s : State) (e : Nat) (x : EPort) : State := { s with eth := tset s.eth EPort.init e x }

/-- R301: a counter of a port. -/
def ethCnt (s : State) (e k : Nat) : State := bump s (Reg.ETH_CNT e k)

/-- R289: the link is up on an enabled port. -/
def ethUp (s : State) (e : Nat) : Bool :=
  decide (fget s (Reg.ETH_CTRL e) Reg.ETH_CTRL_EN = 1) && decide (fget s (Reg.ETH_STATUS e) Reg.ETH_STATUS_LINK = 1)

/-- R301: the port's MAC address. -/
def macOf (s : State) (e : Nat) : Nat := (rget s (Reg.ETH_MAC e 1)).toNat % 65536 * 2 ^ 32 + (rget s (Reg.ETH_MAC e 0)).toNat

/-- R293, R299: the supervisor's firmware runs: booted, no restart window, no die shut-down. -/
def fwRuns (s : State) : Bool :=
  s.boot.powered && !s.restart.inWindow && decide (fget s Reg.THM_STATUS Reg.THM_STATUS_DIE_SHUT = 0)

/-- R301: a field of ETH_PTP_CFG as it is in force. -/
def cfgIn (s : State) (e : Nat) (f : Fld) : Nat := getF (eport s e).cfg f

/-- R292: a port's profile and transport; 3 acts as 0. -/
def profileOf (s : State) (e : Nat) : Nat := cfgIn s e Reg.ETH_PTP_CFG_PROFILE % 3
def transportOf (s : State) (e : Nat) : Nat := cfgIn s e Reg.ETH_PTP_CFG_TRANSPORT % 3
def peerDelay (s : State) (e : Nat) : Bool := decide (cfgIn s e Reg.ETH_PTP_CFG_DELAY = 1)

/-- R292, R301: PTP_STATE. -/
def ptpState (s : State) (e : Nat) : Nat := fget s (Reg.ETH_STATUS e) Reg.ETH_STATUS_PTP_STATE

/-- R277: a port's state changes; leaving TIME_RECEIVER loses the source, and at most one port is TIME_RECEIVER. -/
def setPtp1 (s : State) (e v : Nat) : State :=
  let old := ptpState s e
  let s1 := fset s (Reg.ETH_STATUS e) Reg.ETH_STATUS_PTP_STATE v
  if old = 9 ∧ v ≠ 9 then srcLost s1 e else s1
def setPtp (s : State) (e v : Nat) : State :=
  let s1 := if v = 9 then
      (List.range 4).foldl (fun s j => if j ≠ e ∧ ptpState s j = 9 then setPtp1 s j 7 else s) s
    else s
  setPtp1 s1 e v

/-- R292: PTP is in use on the port. -/
def ptpOn (s : State) (e : Nat) : Bool :=
  ethUp s e && decide (fget s (Reg.ETH_CTRL e) Reg.ETH_CTRL_PTP_EN = 1) && decide (ptpState s e ≠ 3)

/-- R292: settings that a port refuses. -/
def ptpBad (s : State) (e : Nat) : Bool :=
  (decide (profileOf s e = 2) && decide (transportOf s e ≠ 0)) || (decide (profileOf s e = 1) && !peerDelay s e)

/-- R292: the PTP ports are not all of one profile family. -/
def ptpMixed (s : State) : Bool :=
  let on := (List.range 4).filter (fun e => decide (fget s (Reg.ETH_CTRL e) Reg.ETH_CTRL_PTP_EN = 1))
  on.any (fun e => decide (profileOf s e = 2)) && on.any (fun e => decide (profileOf s e ≠ 2))

/-- R292, R295: what a port's settings make of its state. -/
def ptpConfigure (s : State) (e : Nat) : State :=
  let on := decide (fget s (Reg.ETH_CTRL e) Reg.ETH_CTRL_PTP_EN = 1) && decide (fget s (Reg.ETH_CTRL e) Reg.ETH_CTRL_EN = 1)
  let st := Reg.ETH_STATUS e
  let s1 := fset s st Reg.ETH_STATUS_CFGERR (b2n (on && ptpBad s e))
  let off := cfgIn s e Reg.ETH_PTP_CFG_ONESTEP = 1 ∧ transportOf s e = 2
  let s2 := fset s1 st Reg.ETH_STATUS_ONESTEP_OFF (if off then 1 else 0)
  let old := ptpState s2 e
  if !on then (if old = 0 then s2 else setPtp s2 e 3)
  else if ptpBad s2 e ∨ ptpMixed s2 then setPtp s2 e 3
  else if old = 0 ∨ old = 3 then
    setEport (setPtp s2 e (if ethUp s2 e then 4 else 1)) e { (eport s2 e) with annAt := some s2.up }
  else s2

/-- R292: every port after a change of settings. -/
def ptpConfigureAll (s : State) : State := (List.range 4).foldl ptpConfigure s

/-! ## SyncE (R277, R279) -/

/-- R279: the frequency source port, if one is chosen. -/
def fsrcPort (s : State) : Option Nat :=
  match fget s Reg.TMU_SYNCE Reg.TMU_SYNCE_FSRC with
  | 1 => some 0
  | 2 => some 1
  | _ => none

/-- R277, R279: SyncE qualified or lost. -/
def synceEval (s : State) : State :=
  let ok := (match fsrcPort s with | some e => ethUp s e | none => false) && s.tmu.synceIn &&
    (match s.tmu.esmcAt with | some a => decide (s.up ≤ a + 5000000000) | none => false)
  let s1 := fset (fset s Reg.TMU_STATUS Reg.TMU_STATUS_SYNCE_QUAL (b2n ok)) Reg.TMU_STATUS Reg.TMU_STATUS_FREQ_SYNCE (b2n ok)
  if ok ∧ !freqSynce s then
    let s2 := { s1 with tmu := { s1.tmu with integ := 0 } }
    if servo s2 = 5 then setRho s2 0 else s2
  else s1

/-- R277: SYNCE_FREQUENCY_LIMIT: the recovered frequency leaves or re-enters the limit. -/
def execSynceFrequencyLimit (inside : Bool) (s : State) : Host.Outcome State Fault Refusal :=
  done s (synceEval { s with tmu := { s.tmu with synceIn := inside } })

/-- R277: ESMC_TIMEOUT: 5 s without a usable PDU. -/
def execEsmcTimeout (s : State) : Host.Outcome State Fault Refusal := done s (synceEval s)

/-- R279: ESMC: a PDU whose quality level is not DNU (15) renews the frequency source. -/
def esmcIn (s : State) (e ql : Nat) : State :=
  if !ethUp s e then s
  else
    let s1 := ethCnt s e 0
    if fwRuns s1 ∧ fsrcPort s1 = some e ∧ ql ≠ 15 then synceEval { s1 with tmu := { s1.tmu with esmcAt := some s1.up } } else s1

/-- R279: ESMC. -/
def execEsmc (e : Fin 4) (ql : BitVec 4) (s : State) : Host.Outcome State Fault Refusal := done s (esmcIn s e ql.toNat)

/-- R279: ESMC_TRANSMISSION: DNU on the frequency source's port, elsewhere the quality level of the selected source (free). -/
def esmcOut (s : State) (e : Nat) : State :=
  if !ethUp s e ∨ !fwRuns s ∨ fget s (Reg.ETH_CTRL e) Reg.ETH_CTRL_SYNCE_TX = 0 then s
  else if freqSynce s ∧ fsrcPort s = some e then emit (ethCnt s e 3) (.firmware e 2 15)
  else
    let d := draw s
    emit (ethCnt d.2 e 3) (.firmware e 2 ((Config.firmwareWord d.1).toNat % 16))

/-- R279: ESMC_TRANSMISSION. -/
def execEsmcTransmission (e : Fin 4) (s : State) : Host.Outcome State Fault Refusal := done s (esmcOut s e)

/-! ## Links (R289) -/

/-- R289: ETH_LINK_UP: the link and its latencies. -/
def ethLink (s : State) (e rx tx : Nat) (an : Bool) (speed : Nat) (fec : Bool) : State :=
  let c := Reg.ETH_CTRL e
  let st := Reg.ETH_STATUS e
  if fget s c Reg.ETH_CTRL_EN = 0 then s
  else
    let mode := fget s c Reg.ETH_CTRL_MODE
    let s1 := fset (fset s st Reg.ETH_STATUS_LINK 1) st Reg.ETH_STATUS_LAT_VALID 1
    let s2 := fset s1 st Reg.ETH_STATUS_AN_DONE (if 2 ≤ mode ∧ fget s c Reg.ETH_CTRL_AN = 1 then b2n an else 0)
    let s3 := fset s2 st Reg.ETH_STATUS_SPEED (if mode = 3 then speed else 0)
    let s4 := fset s3 st Reg.ETH_STATUS_FEC_LOCK (if mode = 0 ∧ fget s c Reg.ETH_CTRL_FEC = 1 then b2n fec else 0)
    let s5 := rset (rset s4 (Reg.ETH_TS e 3) (BitVec.ofNat 32 rx)) (Reg.ETH_TS e 4) (BitVec.ofNat 32 tx)
    synceEval (if ptpState s5 e = 1 then setEport (setPtp s5 e 4) e { (eport s5 e) with annAt := some s5.up } else s5)

/-- R289: ETH_LINK_UP. -/
def execEthLinkUp (e : Fin 4) (rx tx : BitVec 32) (an : Bool) (speed : BitVec 2) (fec : Bool) (s : State) :
    Host.Outcome State Fault Refusal :=
  done s (ethLink s e rx.toNat tx.toNat an speed.toNat fec)

/-- R277, R289: the link goes down: its PTP source and SyncE are lost. -/
def ethDown (s : State) (e : Nat) : State :=
  let st := Reg.ETH_STATUS e
  if fget s st Reg.ETH_STATUS_LINK = 0 then s
  else
    let s1 := [Reg.ETH_STATUS_LINK, Reg.ETH_STATUS_AN_DONE, Reg.ETH_STATUS_FEC_LOCK, Reg.ETH_STATUS_LAT_VALID].foldl (fun s f => fset s st f 0) s
    let x := eport s1 e
    let s2 := setEport (ethCnt s1 e 9) e
      { x with syncAt := none, syncRx := none, t21 := none, dreq := none, mean := none, pdreq := none, pdresp := none }
    let s3 := if ptpState s2 e = 0 ∨ ptpState s2 e = 3 then s2 else setPtp s2 e 1
    let s4 := if qualified s3 e then srcLost s3 e else s3
    synceEval (if fsrcPort s4 = some e then { s4 with tmu := { s4.tmu with esmcAt := none } } else s4)

/-- R289: ETH_LINK_DOWN. -/
def execEthLinkDown (e : Fin 4) (s : State) : Host.Outcome State Fault Refusal := done s (ethDown s e)

/-! ## Timestamps (R294) -/

/-- A compensation register, signed, in 2^-16 ns. -/
def comp (s : State) (e k : Nat) : Int := sext (rget s (Reg.ETH_TS e k)).toNat 32

/-- R294: a received event message's timestamp at the reference plane. -/
def rxStamp (s : State) (e : Nat) : Int × State :=
  let t := stamp s
  (t.1 - comp s e 3 - comp s e 0, ethCnt t.2 e 4)

/-- R294: a transmitted event message's timestamp. -/
def txStamp (s : State) (e : Nat) : Int × State :=
  let t := stamp s
  (t.1 + comp s e 4 + comp s e 1, ethCnt t.2 e 5)

/-- R275: the time that a message carries, its seconds extended by the device's. -/
def msgTime (s : State) (m : PtpMsg) : Int :=
  ((secOf s.now / 2 ^ 48 * 2 ^ 48 + m.sec.toNat) * 1000000000 + m.ns.toNat) * 65536

/-- R293: a message that the port's PTP takes: counted as accepted, of the device's domain, on a port that timestamps. -/
def ptpTakes (s : State) (e : Nat) (domain : BitVec 8) : Bool :=
  ptpOn s e && decide (fget s (Reg.ETH_STATUS e) Reg.ETH_STATUS_LAT_VALID = 1) &&
  decide ((eport s e).glb.toNat % 256 = domain.toNat)

/-- R290, R293: a received PTP message, handled by `f` where the port's PTP takes it. -/
def ptpIn (s : State) (e : Nat) (domain : BitVec 8) (f : State → State) : State :=
  if !ethUp s e then s
  else
    let s1 := ethCnt s e 0
    if ptpTakes s1 e domain then f s1 else s1

/-- R282: an offset sample waits for the servo. -/
def addSample (s : State) (e : Nat) (x : Int) : State := { s with tmu := { s.tmu with waiting := s.tmu.waiting ++ [(e, x, s.up)] } }

/-- R294: t2 - t1 is known: with a peer delay, that is a sample. -/
def syncKnown (s : State) (e : Nat) (t21 : Int) : State :=
  let x := eport s e
  let s1 := setEport s e { x with t21 := some t21, syncAt := some s.up, syncRx := none }
  match x.mean with
  | some d => if peerDelay s e then addSample s1 e (t21 - d - comp s e 2) else s1
  | none => s1

/-- R293: SYNC. -/
def syncIn (s : State) (e : Nat) (m : PtpMsg) : State :=
  ptpIn s e m.domain (fun s =>
    let t := rxStamp s e
    if ptpState s e < 8 then t.2
    else if m.twoStep then setEport t.2 e { (eport t.2 e) with syncRx := some (m.seq.toNat, t.1 - m.corr) }
    else syncKnown t.2 e (t.1 - msgTime s m - m.corr))

/-- R293: SYNC. -/
def execSync (e : Fin 4) (m : PtpMsg) (s : State) : Host.Outcome State Fault Refusal := done s (syncIn s e m)

/-- R293: FOLLOW_UP: the origin timestamp of the Sync with the same sequence number. -/
def followUpIn (s : State) (e : Nat) (m : PtpMsg) : State :=
  ptpIn s e m.domain (fun s =>
    match (eport s e).syncRx with
    | some (q, t2) => if q = m.seq.toNat then syncKnown s e (t2 - msgTime s m - m.corr) else s
    | none => s)

/-- R293: FOLLOW_UP. -/
def execFollowUp (e : Fin 4) (m : PtpMsg) (s : State) : Host.Outcome State Fault Refusal := done s (followUpIn s e m)

/-- R293: a PTP message sent. -/
def ptpSend (s : State) (e typ seq : Nat) (ts corr : Int) : State := emit (ethCnt s e 3) (.ptp e typ seq ts corr)

/-- R293, R294: DELAY_REQ: a time transmitter answers with the receive timestamp. -/
def delayReqIn (s : State) (e : Nat) (m : PtpMsg) : State :=
  ptpIn s e m.domain (fun s =>
    let t := rxStamp s e
    if ptpState s e = 6 ∧ !peerDelay s e then ptpSend t.2 e 9 m.seq.toNat t.1 0 else t.2)

/-- R293: DELAY_REQ. -/
def execDelayReq (e : Fin 4) (m : PtpMsg) (s : State) : Host.Outcome State Fault Refusal := done s (delayReqIn s e m)

/-- R293, R294: DELAY_RESP completes the four timestamps of an offset sample. -/
def delayRespIn (s : State) (e : Nat) (m : PtpMsg) : State :=
  ptpIn s e m.domain (fun s =>
    let x := eport s e
    match x.dreq, x.t21 with
    | some (q, t3), some t21 =>
      if q = m.seq.toNat ∧ m.forUs ∧ 8 ≤ ptpState s e then
        let t43 := msgTime s m - m.corr - t3
        addSample (setEport s e { x with dreq := none }) e ((t21 - t43) / 2 - comp s e 2)
      else s
    | _, _ => s)

/-- R293: DELAY_RESP. -/
def execDelayResp (e : Fin 4) (m : PtpMsg) (s : State) : Host.Outcome State Fault Refusal := done s (delayRespIn s e m)

/-- R295: the port sends one-step. -/
def oneStep (s : State) (e : Nat) : Bool :=
  decide (cfgIn s e Reg.ETH_PTP_CFG_ONESTEP = 1) && decide (transportOf s e ≠ 2)

/-- R293, R295: PDELAY_REQ is answered, in one step with the turnaround time, in two with t2 and t3. -/
def pdelayReqIn (s : State) (e : Nat) (m : PtpMsg) : State :=
  ptpIn s e m.domain (fun s =>
    let t2 := rxStamp s e
    if !peerDelay s e then t2.2
    else
      let t3 := txStamp t2.2 e
      if oneStep s e then ptpSend t3.2 e 3 m.seq.toNat 0 (t3.1 - t2.1)
      else ptpSend (ptpSend t3.2 e 3 m.seq.toNat t2.1 0) e 0xA m.seq.toNat t3.1 0)

/-- R293: PDELAY_REQ. -/
def execPdelayReq (e : Fin 4) (m : PtpMsg) (s : State) : Host.Outcome State Fault Refusal := done s (pdelayReqIn s e m)

/-- R293: PDELAY_RESP: timestamped; a one-step answer completes the peer delay. -/
def pdelayRespIn (s : State) (e : Nat) (m : PtpMsg) : State :=
  ptpIn s e m.domain (fun s =>
    let t := rxStamp s e
    let x := eport t.2 e
    match x.pdreq with
    | some (q, t1) =>
      if q = m.seq.toNat ∧ m.forUs ∧ peerDelay s e then
        if m.twoStep then setEport t.2 e { x with pdresp := some (msgTime s m, t.1 - m.corr) }
        else setEport t.2 e { x with pdreq := none, mean := some ((t.1 - t1 - m.corr) / 2) }
      else t.2
    | none => t.2)

/-- R293: PDELAY_RESP. -/
def execPdelayResp (e : Fin 4) (m : PtpMsg) (s : State) : Host.Outcome State Fault Refusal := done s (pdelayRespIn s e m)

/-- R293: PDELAY_RESP_FOLLOW_UP completes a peer delay. -/
def pdelayFollowIn (s : State) (e : Nat) (m : PtpMsg) : State :=
  ptpIn s e m.domain (fun s =>
    let x := eport s e
    match x.pdreq, x.pdresp with
    | some (q, t1), some (t2, t4) =>
      if q = m.seq.toNat ∧ m.forUs then
        setEport s e { x with pdreq := none, pdresp := none, mean := some ((t4 - t1 - (msgTime s m + m.corr - t2)) / 2) }
      else s
    | _, _ => s)

/-- R293: PDELAY_RESP_FOLLOW_UP. -/
def execPdelayRespFollowUp (e : Fin 4) (m : PtpMsg) (s : State) : Host.Outcome State Fault Refusal := done s (pdelayFollowIn s e m)

/-! ## Announce and firmware (R275, R293) -/

/-- R275, R293: ANNOUNCE: what firmware's BMCA makes of it (the state it gives the port comes with the command); the parent's UTC
values. -/
def announceIn (s : State) (e : Nat) (m : AnnMsg) : State :=
  if !ethUp s e then s
  else
    let s1 := ethCnt s e 0
    if !ptpTakes s1 e m.domain ∨ !fwRuns s1 then s1
    else
      let st := m.state.toNat
      let s2 := setEport s1 e { (eport s1 e) with annAt := some s1.up, parent := if st = 9 then some m else (eport s1 e).parent }
      let s3 := if 1 ≤ st ∧ st ≤ 9 then setPtp s2 e st else s2
      if st = 9 then
        fset (fset s3 Reg.TMU_EPOCH Reg.TMU_EPOCH_UTC_OFS m.utcOfs.toNat) Reg.TMU_EPOCH Reg.TMU_EPOCH_UTC_VALID (b2n m.utcValid)
      else s3

/-- R293: ANNOUNCE. -/
def execAnnounce (e : Fin 4) (m : AnnMsg) (s : State) : Host.Outcome State Fault Refusal := done s (announceIn s e m)

/-- R293: SIGNALING: accepted; nothing that it asks for is offered. -/
def execSignaling (e : Fin 4) (s : State) : Host.Outcome State Fault Refusal := done s (if ethUp s e then ethCnt s e 0 else s)

/-- R293: MANAGEMENT: a GET is answered (what the answer holds is firmware's); a SET is not offered: counted and discarded. -/
def managementIn (s : State) (e : Nat) (get : Bool) : State :=
  if !ethUp s e then s
  else
    let s1 := ethCnt s e 0
    if !get then ethCnt s1 e 11
    else if fwRuns s1 ∧ ptpOn s1 e then
      let d := draw s1
      emit (ethCnt d.2 e 3) (.firmware e 3 (Config.firmwareWord d.1).toNat)
    else s1

/-- R293: MANAGEMENT. -/
def execManagement (e : Fin 4) (get : Bool) (s : State) : Host.Outcome State Fault Refusal := done s (managementIn s e get)

/-- R301: a log2 interval in ns. -/
def logNs (v : Nat) : Nat :=
  let x := sext v 8
  if 0 ≤ x then 1000000000 * 2 ^ x.toNat else 1000000000 / 2 ^ (-x).toNat

/-- R301: the port's Sync, delay request and Announce (R292) intervals. -/
def syncNs (s : State) (e : Nat) : Nat := logNs (cfgIn s e Reg.ETH_PTP_CFG_LOG_SYNC)
def delayNs (s : State) (e : Nat) : Nat := logNs (cfgIn s e Reg.ETH_PTP_CFG_LOG_DELAY)
def annNs (s : State) (e : Nat) : Nat := if profileOf s e = 2 then 125000000 else 1000000000

/-- The next sequence number of a message type. -/
def nextSeq (s : State) (e typ : Nat) : Nat × State :=
  let x := eport s e
  let q := tget x.seqs 0 typ
  (q, setEport s e { x with seqs := tset x.seqs 0 typ ((q + 1) % 65536) })

/-- R293, R295: SYNC_INTERVAL: a time transmitter sends Sync, and in two-step its Follow_Up. -/
def syncOut (s : State) (e : Nat) : State :=
  if !ptpOn s e ∨ ptpState s e ≠ 6 ∨ s.up < (eport s e).nextSync then s
  else
    let q := nextSeq (setEport s e { (eport s e) with nextSync := s.up + syncNs s e }) e 0
    let t := txStamp q.2 e
    if oneStep s e then ptpSend t.2 e 0 q.1 t.1 0 else ptpSend (ptpSend t.2 e 0 q.1 0 0) e 8 q.1 t.1 0

/-- R293: SYNC_INTERVAL. -/
def execSyncInterval (e : Fin 4) (s : State) : Host.Outcome State Fault Refusal := done s (syncOut s e)

/-- R293: DELAY_REQ_INTERVAL: a time receiver sends Delay_Req, a peer-to-peer port Pdelay_Req. -/
def delayOut (s : State) (e : Nat) : State :=
  if !ptpOn s e ∨ s.up < (eport s e).nextDelay then s
  else
    let s0 := setEport s e { (eport s e) with nextDelay := s.up + delayNs s e }
    if peerDelay s e then
      let q := nextSeq s0 e 2
      let t := txStamp q.2 e
      ptpSend (setEport t.2 e { (eport t.2 e) with pdreq := some (q.1, t.1), pdresp := none }) e 2 q.1 0 0
    else if 8 ≤ ptpState s e then
      let q := nextSeq s0 e 1
      let t := txStamp q.2 e
      ptpSend (setEport t.2 e { (eport t.2 e) with dreq := some (q.1, t.1) }) e 1 q.1 0 0
    else s

/-- R293: DELAY_REQ_INTERVAL. -/
def execDelayReqInterval (e : Fin 4) (s : State) : Host.Outcome State Fault Refusal := done s (delayOut s e)

/-- R301: at an Announce interval the port takes its ETH_PTP_CFG and ETH_PTP_GLB into force (notes/assumptions/110). -/
def announceTick (s : State) (e : Nat) : State :=
  let s1 := setEport s e { (eport s e) with cfg := rget s (Reg.ETH_PTP_CFG e), glb := rget s Reg.ETH_PTP_GLB }
  ptpConfigureAll (setEport s1 e { (eport s1 e) with nextAnn := s1.up + annNs s1 e })

/-- R275, R293, R301: ANNOUNCE_INTERVAL: written settings come into force, and a time transmitter's firmware sends Announce with the UTC
values in force. -/
def announceOut (s0 : State) (e : Nat) : State :=
  if s0.up < (eport s0 e).nextAnn then s0
  else
    let s := announceTick s0 e
    if !ptpOn s e ∨ !fwRuns s ∨ ptpState s e ≠ 6 then s
    else
    let q := nextSeq s e 0xB
    emit (ethCnt q.2 e 3) (.firmware e 4 (q.1 * 2 ^ 64 + (eport q.2 e).glb.toNat * 2 ^ 32 + fget s Reg.TMU_EPOCH Reg.TMU_EPOCH_UTC_OFS +
      2 ^ 16 * fget s Reg.TMU_EPOCH Reg.TMU_EPOCH_UTC_VALID))

/-- R293: ANNOUNCE_INTERVAL. -/
def execAnnounceInterval (e : Fin 4) (s : State) : Host.Outcome State Fault Refusal := done s (announceOut s e)

/-- R277: ANNOUNCE_RECEIPT_TIMEOUT: three intervals without Announce: the port leaves TIME_RECEIVER. -/
def announceTimeout (s : State) (e : Nat) : State :=
  match (eport s e).annAt with
  | some a =>
    if ptpOn s e ∧ fwRuns s ∧ (ptpState s e = 4 ∨ 7 ≤ ptpState s e) ∧ a + 3 * annNs s e ≤ s.up then
      setPtp (setEport s e { (eport s e) with annAt := none, parent := none }) e 6
    else s
  | none => s

/-- R277: ANNOUNCE_RECEIPT_TIMEOUT. -/
def execAnnounceReceiptTimeout (e : Fin 4) (s : State) : Host.Outcome State Fault Refusal := done s (announceTimeout s e)

/-- R277: SYNC_RECEIPT_TIMEOUT: three Sync intervals without a Sync, or without its Follow_Up. -/
def syncTimeout (s : State) (e : Nat) : State :=
  match (eport s e).syncAt with
  | some a => if ptpState s e = 9 ∧ a + 3 * syncNs s e ≤ s.up then srcLost (setEport s e { (eport s e) with syncAt := none }) e else s
  | none => s

/-- R277: SYNC_RECEIPT_TIMEOUT. -/
def execSyncReceiptTimeout (e : Fin 4) (s : State) : Host.Outcome State Fault Refusal := done s (syncTimeout s e)

/-! ## ARP, neighbour discovery, frames dropped (R290) -/

/-- R290: ARP: a request for the port's IPv4 address is answered with its MAC. -/
def arpIn (s : State) (e target srcMac srcIp : Nat) : State :=
  if !ethUp s e then s
  else
    let s1 := ethCnt s e 0
    let a := (rget s1 (Reg.ETH_IPV4 e)).toNat
    if a ≠ 0 ∧ a = target ∧ fwRuns s1 then emit (ethCnt s1 e 3) (.firmware e 0 (macOf s1 e + 2 ^ 48 * srcMac + 2 ^ 96 * srcIp)) else s1

/-- R290: ARP. -/
def execArp (e : Fin 4) (target : BitVec 32) (srcMac : BitVec 48) (srcIp : BitVec 32) (s : State) : Host.Outcome State Fault Refusal :=
  done s (arpIn s e target.toNat srcMac.toNat srcIp.toNat)

/-- R290: the IPv6 link-local address formed from a MAC by modified EUI-64. -/
def linkLocal (mac : Nat) : Nat := 0xFE80 * 2 ^ 112 + ((mac / 2 ^ 24) ^^^ 0x020000) * 2 ^ 40 + 0xFFFE * 2 ^ 24 + mac % 2 ^ 24

/-- R290: NEIGHBOUR_SOLICITATION. -/
def ndIn (s : State) (e target srcMac : Nat) : State :=
  if !ethUp s e then s
  else
    let s1 := ethCnt s e 0
    if target = linkLocal (macOf s1 e) ∧ fwRuns s1 then emit (ethCnt s1 e 3) (.firmware e 1 (macOf s1 e + 2 ^ 48 * srcMac)) else s1

/-- R290: NEIGHBOUR_SOLICITATION. -/
def execNeighbourSolicitation (e : Fin 4) (target : BitVec 128) (srcMac : BitVec 48) (s : State) : Host.Outcome State Fault Refusal :=
  done s (ndIn s e target.toNat srcMac.toNat)

/-- R290, R301: DROPPED_FRAME. -/
def execDroppedFrame (e : Fin 4) (fcsError : Bool) (s : State) : Host.Outcome State Fault Refusal :=
  done s (if ethUp s e then (let s1 := ethCnt s e 1; if fcsError then ethCnt s1 e 2 else s1) else s)

/-- R293, R301: DISCARDED_PTP_MESSAGE. -/
def execDiscardedPtpMessage (e : Fin 4) (s : State) : Host.Outcome State Fault Refusal :=
  done s (if ethUp s e then ethCnt (ethCnt s e 0) e 11 else s)

end Sys2Proof.Machine
end

