-- ==== Sys2Proof/Machine/Faults.lean ====
section
/-! DEFINITION. The fault collector's log, actions and force (R354 to R359), and the roll call (R365 to R368). -/

namespace Sys2Proof.Machine

/-! ## Halt (R325) -/

/-- R291: the telemetry frame in progress on a port ends with an inverted FCS, and is counted. -/
def telAbort (s : State) (e : Nat) : State :=
  if s.up < (eport s e).telEnd then emit (ethCnt (setEport s e { (eport s e) with telEnd := 0 }) e 7) (.abort e) else s

/-- R291, R325: HALT in force, set by `by_`: streams stop and lose what they have queued, and frames in progress end. -/
def haltOn (s : State) (by_ : Nat) : State :=
  let s1 := fset (fset (fset s Reg.HIF_HALT Reg.HIF_HALT_HALT 1) Reg.HIF_HALT Reg.HIF_HALT_BY by_) Reg.HIF_HALT Reg.HIF_HALT_DONE 1
  let s2 := [0, 1].foldl (fun s p =>
    let pt := portOf s p
    setPort s p { pt with streams := pt.streams.map (fun x => (x.1, { x.2 with queue := [] })) }) s1
  let s3 := (List.range 4).foldl telAbort s2
  if halted s then s3 else sblkTouch (sblkTouch s3 0) 1

/-- R298, R325: HALT released by `by_`: Ethernet telemetry resumes with full buckets. -/
def haltOff (s : State) (by_ : Nat) : State :=
  let s1 := fset (fset (fset s Reg.HIF_HALT Reg.HIF_HALT_HALT 0) Reg.HIF_HALT Reg.HIF_HALT_BY by_) Reg.HIF_HALT Reg.HIF_HALT_DONE 0
  if halted s then
    (List.range 4).foldl (fun s e => setEport s e { (eport s e) with tok := 2 ^ 64, tokAt := s.up }) (sblkTouch (sblkTouch s1 0) 1)
  else s1

/-! ## The log and its actions (R356 to R358) -/

/-- R356: the open slot that the record engine serves next. -/
def nextSlot (s : State) : Option (Nat × Slot) :=
  match s.flt.slots.find? (fun x => decide (s.flt.last < x.1)) with
  | some x => some x
  | none => s.flt.slots.head?

/-- R354: the 32 bytes of a record, little-endian. -/
def recordWord (seq src : Nat) (x : Slot) : Nat :=
  seq + src * 2 ^ 32 + x.kind % 256 * 2 ^ 48 + (b2n x.forced + 2 * b2n (decide (0 < x.lost))) * 2 ^ 56 +
  (x.addr % 2 ^ 24 + x.info % 2 ^ 32 * 2 ^ 32) * 2 ^ 64 + secOf x.at_ % 2 ^ 64 * 2 ^ 128 +
  (nsOf x.at_ + fracOf x.at_ * 2 ^ 32 + min x.lost 255 * 2 ^ 48 + x.lastKind % 256 * 2 ^ 56) * 2 ^ 192

/-- R358: the actions of a source whose record enters the log. -/
def faultActions (s : State) (src : Nat) : State :=
  let a := Reg.FLT_ACT src
  let irq (s : State) (p : Nat) (f : Fld) : State :=
    if fget s a f = 1 ∧ fget s (Reg.HIF_EVVEC p) Reg.HIF_EVVEC_FAULT_EN = 1 then setPort s p { (portOf s p) with faultWait := true } else s
  let before := alertNow s
  let s1 := irq (irq s 0 Reg.FLT_ACT_IRQ_A) 1 Reg.FLT_ACT_IRQ_B
  let s2 := if (rget s1 a).toNat % 8 ≠ 0 then rput s1 (Reg.FLT_ACTIVE (src / 32)) (src % 32) true else s1
  let s3 := if fget s2 a Reg.FLT_ACT_ALERT = 1 ∧ !before then bump s2 (Reg.FLT_CNT 6) else s2
  if fget s3 a Reg.FLT_ACT_HALT = 1 then bump (haltOn s3 6) (Reg.FLT_CNT 7) else s3

/-- R356, R357: one open slot is written to the log and closes. -/
def writeRecord (s : State) : State :=
  match nextSlot s with
  | none => s
  | some (src, x) =>
    let empty := fget s Reg.FLT_LOG_HEAD Reg.FLT_LOG_HEAD_EMPTY = 1
    let i := if empty then 0 else (fget s Reg.FLT_LOG_HEAD Reg.FLT_LOG_HEAD_INDEX + 1) % 1024
    let n := (rget s Reg.FLT_LOG_SEQ).toNat
    let seq := if n = 0xFFFFFFFF then 1 else n + 1
    let s1 := { s with flt := { s.flt with slots := tdel s.flt.slots src, last := src } }
    let s2 := mset s1 (0xA60000 + 32 * i) 32 (recordWord seq src x)
    let s3 := fset (fset s2 Reg.FLT_LOG_HEAD Reg.FLT_LOG_HEAD_INDEX i) Reg.FLT_LOG_HEAD Reg.FLT_LOG_HEAD_EMPTY 0
    faultActions (bump (rset s3 Reg.FLT_LOG_SEQ (BitVec.ofNat 32 seq)) (Reg.FLT_CNT 0)) src

/-- R356: RECORD_WRITE. -/
def execRecordWrite (s : State) : Host.Outcome State Fault Refusal := done s (writeRecord s)

/-- R358: the FAULT vector of a port, at most once in 10 µs. -/
def faultIrq (s : State) (p : Nat) : State :=
  let pt := portOf s p
  let open_ : Bool := match pt.faultLast with
    | some u => decide (u + 10000 ≤ s.up)
    | none => true
  if pt.faultWait ∧ open_ then
    let s1 := setPort s p { pt with faultWait := false, faultLast := some s.up }
    if fget s1 (Reg.HIF_EVVEC p) Reg.HIF_EVVEC_FAULT_EN = 1 then msix s1 p (fget s1 (Reg.HIF_EVVEC p) Reg.HIF_EVVEC_FAULT) else s1
  else s

/-- R358: FAULT_INTERRUPT. -/
def execFaultInterrupt (p : Fin 2) (s : State) : Host.Outcome State Fault Refusal := done s (faultIrq s p)

/-! ## Force (R359) -/

/-- R359: the repair of a forced kind, if the combination is listed and may be carried out. -/
def forceRepair (s : State) (src kind addr : Nat) : Option (State → State) :=
  if src < 96 ∧ (kind = 0x19 ∨ kind = 0x1A) then
    if addr < 6144 ∧ cellUsable s addr then some (fun s => retireAsk s addr 9) else none
  else if 96 ≤ src ∧ src < 192 ∧ kind = 0x20 then
    if addr < 768 then some (fun s => if adcOk s addr then adcStop s addr else s) else none
  else if 192 ≤ src ∧ src < 292 ∧ kind = 0x34 then
    let k := src - 192
    if (spareFor s).isSome then
      some (fun s => if coreState s k = 3 then s else coreStop s k 5 (pcOf s k))
    else none
  else if (src = 303 ∨ src = 304) ∧ kind = 0x38 then
    if laneOk s 0 ∧ laneOk s 1 then some (fun s => failLane s (src - 303)) else none
  else none

/-- R359: one force bit. -/
def forceOne (s : State) (src : Nat) : State :=
  let kind := fget s Reg.FLT_FORCE_CFG Reg.FLT_FORCE_CFG_KIND
  let addr := fget s Reg.FLT_FORCE_ADDR Reg.FLT_FORCE_ADDR_ADDR
  let s1 := bump (reportF s src kind addr 0 true) (Reg.FLT_CNT 2)
  if fget s Reg.FLT_FORCE_CFG Reg.FLT_FORCE_CFG_REPAIR = 0 then s1
  else match forceRepair s src kind addr with
    | some f => f s1
    | none => fset s1 Reg.FLT_STATUS Reg.FLT_STATUS_FREFUSED 1

/-- R359: a write of FLT_FORCEk; without FORCE_EN it does nothing. -/
def forceWrite (s : State) (k v : Nat) : State :=
  if fget s Reg.FLT_CTRL Reg.FLT_CTRL_FORCE_EN = 0 then s
  else (List.range 32).foldl (fun s b => if bit v b then forceOne s (32 * k + b) else s) s

/-! ## Roll call (R288, R365 to R368) -/

/-- R367: the counters that a roll call copies: first register, how many, shadow of the first. -/
def counterRanges : List (Nat × Nat × Nat) :=
  ((List.range 2).flatMap (fun p => (0x010040 + 0x4000 * p, 8, 0xB01040 + 0x1000 * p) ::
    (List.range 16).map (fun r => (0x010120 + 0x4000 * p + 0x40 * r, 3, 0xB01120 + 0x1000 * p + 0x40 * r)))) ++
  ((List.range 33).map (fun i => (0x020108 + 0x20 * i, 3, 0xB03108 + 0x20 * i))) ++
  [(0x030100, 8, 0xB04100)] ++
  ((List.range 4).map (fun e => (0x040080 + 0x1000 * e, 12, 0xB05080 + 0x1000 * e))) ++
  [(0x050020, 7, 0xB09020), (0x050040, 10, 0xB09040), (0x050070, 4, 0xB09070), (0x060020, 10, 0xB0A020), (0x070400, 8, 0xB0B400),
   (0x080400, 6, 0xB0C400), (0x090300, 8, 0xB0D300), (0x0A0040, 8, 0xB0E040), (0x0D0010, 4, 0xB0F010)] ++
  ((List.range 96).map (fun t => (0x100080 + 0x1000 * t, 10, 0xB20080 + 0x1000 * t))) ++
  ((List.range 96).map (fun t => (0x200080 + 0x1000 * t, 8, 0xB80080 + 0x1000 * t))) ++
  ((List.range 100).map (fun k => (0x300040 + 0x4000 * k, 8, 0xC00040 + 0x1000 * k)))

/-- R367: the shadow addresses that hold a counter, ascending. -/
def shadowAddrs : List Nat := counterRanges.flatMap (fun r => (List.range r.2.1).map (fun j => r.2.2 + 4 * j))

/-- R365, R366: every counter is copied into its shadow. -/
def copyCounters (s : State) : State :=
  counterRanges.foldl (fun s r => (List.range r.2.1).foldl (fun s j => mset s (r.2.2 + 4 * j) 4 (rget s (r.1 + 4 * j)).toNat) s) s

/-- R288: the roll call that is due next: its instant in ns and its cause (R368). -/
def rollDue (s : State) : Option (Nat × Nat) :=
  let a := s.tmu.rcAt.map (fun x => (x.1, if x.2 then 2 else 1))
  match a, s.tmu.rcNow with
  | none, none => none
  | some x, none => some x
  | none, some e => some (e, 3)
  | some x, some e => if x.1 ≤ e then some x else some (e, 3)

/-- R288, R365: ROLL_CALL at its tick: the copies, then the counts; a periodic one is armed again. -/
def rollCall (s : State) : State :=
  match rollDue s with
  | none => s
  | some (e, cause) =>
    if nowNs s < e then s
    else
      let s1 := copyCounters s
      let s2 := fset (bump s1 (Reg.TMU_CNT 6)) Reg.TMU_RC_STATUS Reg.TMU_RC_STATUS_SEQ (fget s Reg.TMU_RC_STATUS Reg.TMU_RC_STATUS_SEQ + 1)
      let per := (rget s Reg.TMU_RC_PERIOD).toNat
      let armed := s.tmu.rcAt.map (·.1) = some e
      let next := if armed then (if per = 0 then none else some (e + 20 * max 500 per, true)) else s.tmu.rcAt
      let now := if s.tmu.rcNow = some e then none else s.tmu.rcNow
      fset { s2 with tmu := { s2.tmu with rcAt := next, rcNow := now, rcHdr := some (e, cause) } }
        Reg.TMU_RC_STATUS Reg.TMU_RC_STATUS_ARMED (b2n next.isSome)

/-- R365: ROLL_CALL. -/
def execRollCall (s : State) : Host.Outcome State Fault Refusal := done s (rollCall s)

/-- R368: the header page. -/
def headerWrite (s : State) (e cause : Nat) : State :=
  mset s 0xB00000 20 (fget s Reg.TMU_RC_STATUS Reg.TMU_RC_STATUS_SEQ + e % 1000000000 * 2 ^ 32 + e / 1000000000 % 2 ^ 64 * 2 ^ 64 +
    cause * 2 ^ 128)

/-- Words of the SRAM windows in wire order (R296). -/
def wireWords (s : State) (addrs : List Nat) : List Nat := addrs.flatMap (fun a => beBytes (mget s a 4) 4)

/-- R368: the body of a roll-call record: the header, then every shadow that holds a counter. -/
def rollBody (s : State) : List Nat :=
  beBytes (mget s 0xB00000 4) 4 ++ beBytes (mget s 0xB00004 4) 4 ++ beBytes (mget s 0xB00008 8) 8 ++ beBytes (mget s 0xB00010 4) 4 ++
  wireWords s shadowAddrs

/-- R327: a record's body joins the queues of the streams that a test names; none while HALT is in force. -/
def queueBody (s : State) (p : Nat) (which : Nat → Stream → Bool) (body : List Nat) : State :=
  if halted s then s
  else
    let pt := portOf s p
    setPort s p { pt with streams := pt.streams.map (fun x =>
      if x.2.on ∧ which x.1 x.2 then (x.1, { x.2 with queue := x.2.queue ++ [body] }) else x) }

/-- R368: ROLL_CALL_HEADER: the header last; then streams of CONTENT 1 take their record. -/
def rollHeader (s : State) : State :=
  match s.tmu.rcHdr with
  | none => s
  | some (e, cause) =>
    let s1 := headerWrite { s with tmu := { s.tmu with rcHdr := none } } e cause
    [0, 1].foldl (fun s p =>
      if (portOf s p).streams.any (fun x => x.2.on && decide (x.2.content = 1)) then
        queueBody s p (fun _ x => decide (x.content = 1)) (rollBody s)
      else s) s1

/-- R368: ROLL_CALL_HEADER. -/
def execRollCallHeader (s : State) : Host.Outcome State Fault Refusal := done s (rollHeader s)

end Sys2Proof.Machine
end

