-- ==== Sys2Proof/Machine/Thermal.lean ====
section
/-! DEFINITION. Temperature and throttling (R370 to R379): publications, suspect sensors, levels, the grace time, shut-down. Sensors 0 to
63 are the die's, 64 + t is PIC tile t's. -/

namespace Sys2Proof.Machine

/-! ## Sensors (R370, R371) -/

/-- The kind of a sensor: 0 die, 1 PIC. -/
def sKind (i : Nat) : Nat := if i < 64 then 0 else 1

/-- R370: the sensors that exist: every die sensor, and one for each used tile. -/
def sensors (s : State) : List Nat := List.range 64 ++ ((List.range 96).filter (tileUsed (fm s))).map (64 + ·)

/-- R378: a sensor's value register. -/
def sReg (i : Nat) : Nat := if i < 64 then Reg.THM_DIE i else Reg.THM_PIC (i - 64)

/-- The effective and the raw value of a sensor, in 0.01 °C. -/
def effOf (s : State) (i : Nat) : Int := sext ((rget s (sReg i)).toNat % 65536) 16
def rawTemp (s : State) (i : Nat) : Int := sext ((rget s (sReg i)).toNat / 65536) 16

/-- R370: the valid range of a kind. -/
def inRange (i : Nat) (x : Int) : Bool :=
  if i < 64 then decide (-4000 ≤ x ∧ x ≤ 15000) else decide (-2000 ≤ x ∧ x ≤ 13000)

/-- R372: whether a sensor is suspect. -/
def suspect (s : State) (i : Nat) : Bool :=
  if i < 64 then rbit s (Reg.THM_SUSP (i / 32)) (i % 32) else rbit s (Reg.THM_SUSP (2 + (i - 64) / 32)) ((i - 64) % 32)

/-- R372: a sensor marked or trusted again. -/
def setSuspect (s : State) (i : Nat) (b : Bool) : State :=
  if i < 64 then rput s (Reg.THM_SUSP (i / 32)) (i % 32) b else rput s (Reg.THM_SUSP (2 + (i - 64) / 32)) ((i - 64) % 32) b

/-- R371: the grid neighbours of a die sensor. -/
def dieNeighbours (n : Nat) : List Nat :=
  (if 8 ≤ n then [n - 8] else []) ++ (if n % 8 ≠ 0 then [n - 1] else []) ++ (if n % 8 ≠ 7 then [n + 1] else []) ++
  (if n < 56 then [n + 8] else [])

/-- R371: the neighbours of a PIC thermometer: used adjacent tiles, filled up to two with the used tiles nearest in number. -/
def picNeighbours (s : State) (t : Nat) : List Nat :=
  let used := (List.range 96).filter (fun u => tileUsed (fm s) u && decide (u ≠ t))
  let adj := ((tileAdj (fm s) t).filter (fun u => used.contains u)).eraseDups
  let rest := sortBy (fun u => ((if u < t then 2 * (t - u) else 2 * (u - t) + 1 : Nat) : Int)) (used.filter (fun u => !adj.contains u))
  (adj ++ rest.take (2 - adj.length)).map (64 + ·)

/-- R371: the neighbours of a sensor. -/
def neighbours (s : State) (i : Nat) : List Nat := if i < 64 then dieNeighbours i else picNeighbours s (i - 64)

/-- R371, R372: its neighbours that are not suspect. -/
def trusted (s : State) (i : Nat) : List Nat := (neighbours s i).filter (fun j => !suspect s j)

/-- R372: the reference median of a sensor, if it has one. -/
def refMedian (s : State) (i : Nat) : Option Int :=
  let near := trusted s i
  let l := if near.isEmpty then (sensors s).filter (fun j => decide (sKind j = sKind i) && !suspect s j) else near
  if l.isEmpty then none else some (median (l.map (rawTemp s)))

/-! ## Records and suspects (R372, R379) -/

/-- R379: a thermal record: source by the sensor's kind. -/
def thermal (s : State) (kind i : Nat) (info : Int) : State :=
  report s (if i < 64 then srcThmDie else srcThmPic) kind (if i < 64 then i else i - 64) (enc info 32)

/-- R372: raw values are published; one outside its range makes its sensor suspect at once. -/
def takeRaw (s : State) (i : Nat) (raw : Int) : State :=
  let ok := inRange i raw
  let v := if ok then enc raw 16 else 0x8000
  let s1 := rset s (sReg i) (BitVec.ofNat 32 ((rget s (sReg i)).toNat % 65536 + 65536 * v))
  if ok ∨ suspect s i then s1
  else
    let s2 := setSuspect (bump (bump s1 (Reg.THM_CNT 3)) (Reg.THM_CNT 4)) i true
    thermal { s2 with thm := { s2.thm with okSince := tdel s2.thm.okSince i, devSince := tdel s2.thm.devSince i } } 0x65 i (rawTemp s2 i)

/-- The moments of a sensor's deviation and of its good values. -/
def setDev (s : State) (i : Nat) (u : Option Nat) : State :=
  { s with thm := { s.thm with devSince := match u with | some x => tins s.thm.devSince i x | none => tdel s.thm.devSince i } }
def setGood (s : State) (i : Nat) (u : Option Nat) : State :=
  { s with thm := { s.thm with okSince := match u with | some x => tins s.thm.okSince i x | none => tdel s.thm.okSince i } }

/-- R372: deviation over 100 ms makes a sensor suspect, good values over 1 s trusted again, both against `med`. -/
def judgeSensor (s : State) (i : Nat) (med : Option Int) : State :=
  let x := rawTemp s i
  if suspect s i then
    let good := inRange i x && (match med with | some m => decide ((x - m).natAbs ≤ 300) | none => true)
    if !good then setGood s i none
    else
      let since := (tfind s.thm.okSince i).getD s.up
      if since + 1000000000 ≤ s.up then thermal (setGood (setSuspect s i false) i none) 0x64 i (effOf s i) else setGood s i (some since)
  else
    let off := match med with | some m => decide (600 < (x - m).natAbs) | none => false
    if !off then setDev s i none
    else
      let since := (tfind s.thm.devSince i).getD s.up
      if since + 100000000 ≤ s.up then thermal (bump (setSuspect (setDev s i none) i true) (Reg.THM_CNT 3)) 0x63 i x
      else setDev s i (some since)

/-- R372: the effective value of a sensor. -/
def effective (s : State) (i : Nat) : Int :=
  if !suspect s i then rawTemp s i
  else
    let kin := (sensors s).filter (fun j => decide (sKind j = sKind i) && !suspect s j)
    let top (l : List Nat) : Int := (l.map (rawTemp s)).foldl max (-32768) + 200
    if !(trusted s i).isEmpty then top (trusted s i)
    else if !kin.isEmpty then top kin
    else effOf s i

/-- R372, R378: effective values, the hottest sensor and the number of suspect ones. -/
def putEffective (s : State) : State :=
  let l := sensors s
  let vals := l.map (fun i => (i, effective s i))
  let s1 := vals.foldl (fun s x => rset s (sReg x.1) (BitVec.ofNat 32 ((rget s (sReg x.1)).toNat / 65536 * 65536 + enc (satS x.2 16) 16))) s
  let hot := ((minBy (fun x => -x.2) vals).map (·.1)).getD 0
  let n := (l.filter (suspect s1)).length
  fset (fset s1 Reg.THM_STATUS Reg.THM_STATUS_HOTTEST hot) Reg.THM_STATUS Reg.THM_STATUS_N_SUSPECT n

/-! ## Levels (R373 to R376) -/

/-- R373: a threshold of a sensor's kind in 0.01 °C: 0 WARN, 1 THR1, 2 THR2, 3 SHUT. -/
def thrOf (s : State) (i k : Nat) : Int :=
  100 * bits (rget s (if i < 64 then Reg.THM_DIE_THR else Reg.THM_PIC_THR)).toNat (8 * k) 8

/-- R373: the hysteresis of a sensor's kind in 0.01 K. -/
def hystOf (s : State) (i : Nat) : Int :=
  10 * max 1 (fget s Reg.THM_HYST (if i < 64 then Reg.THM_HYST_DIE else Reg.THM_HYST_PIC))

/-- The throttle level. -/
def thmLevel (s : State) : Nat := fget s Reg.THM_STATUS Reg.THM_STATUS_LEVEL
def enforced (s : State) : Bool := decide (fget s Reg.THM_STATUS Reg.THM_STATUS_ENFORCED = 1)
def hottest (s : State) : Nat := fget s Reg.THM_STATUS Reg.THM_STATUS_HOTTEST

/-- R376: the spacing in force follows the level while it is enforced. -/
def spacingUpdate (s : State) : State :=
  let base := max 200 (fget s Reg.BEL_SPACING Reg.BEL_SPACING_BASE)
  let v := if !enforced s then base
    else if thmLevel s = 1 then max base (fget s Reg.THM_SPACE Reg.THM_SPACE_SPACE1)
    else if thmLevel s = 2 then max base (fget s Reg.THM_SPACE Reg.THM_SPACE_SPACE2)
    else base
  fset s Reg.BEL_SPACING Reg.BEL_SPACING_IN_FORCE v

/-- R375: what every change of level from `old` does. -/
def levelChanged (s : State) (old : Nat) : State :=
  let s1 := raiseTherm (keepInputs s)
  let s2 := if (old = 0) ≠ (thmLevel s = 0) then setTset s1 (decide (thmLevel s ≠ 0)) else s1
  invalAll s2 false 5

/-- R375: the level rises to `k`, raised by a sensor. -/
def levelUp (s : State) (k i : Nat) : State :=
  let old := thmLevel s
  let s1 := thermal (bump (fset s Reg.THM_STATUS Reg.THM_STATUS_LEVEL k) (Reg.THM_CNT 0)) 0x61 i (effOf s i)
  let s2 := { s1 with thm := { s1.thm with relSince := none, relOne := none,
                                           grace := if old = 0 then some (s.up + 1000000 * max 1 (fget s Reg.THM_CTRL Reg.THM_CTRL_GRACE)) else s1.thm.grace } }
  spacingUpdate (levelChanged s2 old)

/-- R374, R376: the level falls by one. -/
def levelDown (s : State) : State :=
  let old := thmLevel s
  let s1 := bump (fset s Reg.THM_STATUS Reg.THM_STATUS_LEVEL (old - 1)) (Reg.THM_CNT 1)
  let s2 := thermal { s1 with thm := { s1.thm with relSince := if old = 2 then s1.thm.relOne else none, relOne := none } }
    0x62 (hottest s) (effOf s (hottest s))
  let s3 := if old = 1 then fset { s2 with thm := { s2.thm with grace := none } } Reg.THM_STATUS Reg.THM_STATUS_ENFORCED 0 else s2
  spacingUpdate (levelChanged s3 old)

/-- R374: the conditions under which level k may fall. -/
def mayRelease (s : State) (k : Nat) : Bool :=
  (sensors s).all (fun i =>
    let lim := thrOf s i k - hystOf s i
    decide (effOf s i < lim) &&
    (!suspect s i || decide (2 ≤ ((trusted s i).filter (fun j => decide (rawTemp s j < lim))).length)))

/-- R373: the level that a sensor's effective value calls for. -/
def callsFor (s : State) (i : Nat) : Nat := if thrOf s i 2 ≤ effOf s i then 2 else if thrOf s i 1 ≤ effOf s i then 1 else 0

/-- R373, R374: the warning flag. -/
def warnUpdate (s : State) : State :=
  let st := Reg.THM_STATUS
  if fget s st Reg.THM_STATUS_WARN = 0 then
    match (sensors s).find? (fun i => decide (thrOf s i 0 ≤ effOf s i)) with
    | some i => thermal (fset s st Reg.THM_STATUS_WARN 1) 0x60 i (effOf s i)
    | none => s
  else if (sensors s).all (fun i => decide (effOf s i < thrOf s i 0 - hystOf s i)) then fset s st Reg.THM_STATUS_WARN 0
  else s

/-- R373, R374: the level at a publication, and the start of the release dwells: the conditions of level 1 count at level 2 too. -/
def levelUpdate (s : State) : State :=
  let want := ((sensors s).map (callsFor s)).foldl max 0
  if thmLevel s < want then
    match (sensors s).find? (fun i => decide (callsFor s i = want)) with
    | some i => levelUp s want i
    | none => s
  else if thmLevel s = 0 then s
  else
    let since (old : Option Nat) (k : Nat) : Option Nat := if mayRelease s k then some (old.getD s.up) else none
    { s with thm := { s.thm with relSince := since s.thm.relSince (thmLevel s),
                                 relOne := if thmLevel s = 2 then since s.thm.relOne 1 else none } }

/-! ## Shut-down (R377) -/

/-- R26, R377: out of service, and intake stopped. -/
def stopService (s : State) : State :=
  { (fset s Reg.BEL_STATUS Reg.BEL_STATUS_IN_SERVICE 0) with hif := { s.hif with paused := true } }

/-- R377: a shut-down of a sensor's kind begins. -/
def shutDown (s : State) (i : Nat) : State :=
  let s1 := thermal (bump (stopService s) (Reg.THM_CNT 5)) 0x67 i (effOf s i)
  let s2 := raiseTherm s1
  if i < 64 then { (fset s2 Reg.THM_STATUS Reg.THM_STATUS_DIE_SHUT 1) with boot := { s2.boot with dogRun := false } }
  else powerShutdown (fset s2 Reg.THM_STATUS Reg.THM_STATUS_PIC_SHUT 1)

/-- R377: sensors at SHUT on two publications in a row shut the device down. -/
def shutUpdate (s : State) : State :=
  let hot := (sensors s).filter (fun i => decide (thrOf s i 3 ≤ effOf s i))
  let twice := hot.filter (fun i => s.thm.shutOnce.contains i)
  let s1 := { s with thm := { s.thm with shutOnce := hot } }
  let s2 := match twice.find? (fun i => decide (i < 64)) with
    | some i => if fget s1 Reg.THM_STATUS Reg.THM_STATUS_DIE_SHUT = 0 then shutDown s1 i else s1
    | none => s1
  match twice.find? (fun i => decide (64 ≤ i)) with
  | some i => if fget s2 Reg.THM_STATUS Reg.THM_STATUS_PIC_SHUT = 0 then shutDown s2 i else s2
  | none => s2

/-! ## Publications -/

/-- R147, R183, R242: what a tile's new temperature starts: DARK tracking, TEMP wakes, calibration rounds. -/
def tileTemp (s : State) (t : Nat) : State :=
  let s1 := darkTemp s t
  if fget s1 Reg.THM_STATUS Reg.THM_STATUS_DIE_SHUT = 1 ∨ s1.restart.inWindow then s1
  else
    let d := (picTemp s1 t - tget s1.hold.tempAt 0 t).natAbs
    calTrigger (if max 1 (parTempStep s1 t) ≤ d then wakeTile s1 t 5 else s1) t

/-- R370: SENSOR_PUBLICATION, every 100 µs: raw values, suspects, effective values, warning, level, shut-down. -/
def publication (s : State) (raw : List (BitVec 16)) : State :=
  if !s.boot.powered ∨ s.up < s.thm.nextPub then s
  else
    let l := sensors s
    let s0 := { s with thm := { s.thm with nextPub := s.up + 100000 } }
    let s1 := l.foldl (fun s i => takeRaw s i (sext (raw.getD i 0x8000).toNat 16)) s0
    let meds := l.map (fun i => (i, refMedian s1 i))
    let s2 := meds.foldl (fun s x => judgeSensor s x.1 x.2) s1
    let s3 := shutUpdate (levelUpdate (warnUpdate (putEffective s2)))
    (l.filter (fun i => decide (64 ≤ i))).foldl (fun s i => tileTemp s (i - 64)) s3

/-- R370: SENSOR_PUBLICATION. -/
def execSensorPublication (raw : List (BitVec 16)) (s : State) : Host.Outcome State Fault Refusal := done s (publication s raw)

/-- R374: RELEASE_DWELL: the conditions have held for RELEASE_HOLD. -/
def releaseDwell (s : State) : State :=
  match s.thm.relSince with
  | some u =>
    if thmLevel s ≠ 0 ∧ u + 1000000 * max 101 (fget s Reg.THM_CTRL Reg.THM_CTRL_RELEASE_HOLD) ≤ s.up then levelDown s else s
  | none => s

/-- R374: RELEASE_DWELL. -/
def execReleaseDwell (s : State) : Host.Outcome State Fault Refusal := done s (releaseDwell s)

/-- R376: GRACE_EXPIRY: with the level still above 0 the spacing is enforced. -/
def graceExpiry (s : State) : State :=
  match s.thm.grace with
  | some g =>
    if g ≤ s.up ∧ thmLevel s ≠ 0 then
      let s1 := fset { s with thm := { s.thm with grace := none } } Reg.THM_STATUS Reg.THM_STATUS_ENFORCED 1
      spacingUpdate (thermal (bump s1 (Reg.THM_CNT 2)) 0x66 (hottest s) (effOf s (hottest s)))
    else s
  | none => s

/-- R376: GRACE_EXPIRY. -/
def execGraceExpiry (s : State) : Host.Outcome State Fault Refusal := done s (graceExpiry s)

/-- R378: a write of the die's or the PIC's thresholds: the order holds and SHUT stays at or below its P value, or it is refused. -/
def thrWrite (s : State) (m : Master) (a v : Nat) : State :=
  let b (k : Nat) : Nat := bits v (8 * k) 8
  let top := if a = Reg.THM_DIE_THR then 0x7D else 0x5C
  if b 0 < b 1 ∧ b 1 < b 2 ∧ b 2 < b 3 ∧ b 3 ≤ top then plainWrite s a v else refuseWrite s m a

end Sys2Proof.Machine
end

