-- ==== Sys2Proof/Machine/Boot.lean ====
section
/-! DEFINITION. The boot flash and the image store (R381, R382, R386, R395), the calibration journal (R389), clocks, memory errors and
the test port (R355, R395, R419), and DOZE and NAP (R391, R392). -/

namespace Sys2Proof.Machine

/-! ## The flash (R380, R381) -/

/-- A byte of the flash; an erased one reads 0xFF. -/
def flashByte (s : State) (a : Nat) : Nat := rb s.boot.flash a 0xFF

/-- `n` bytes of the flash, little-endian. -/
def flashRd (s : State) (a n : Nat) : Nat := rd s.boot.flash a n 0xFF

/-- Bytes programmed: a program clears bits (NOR flash; PRESUMED, notes/assumptions/8). -/
def flashProg (s : State) (a : Nat) (l : List Nat) : State :=
  { s with boot := { s.boot with flash := wbytes s.boot.flash a ((l.zip (rbytes s.boot.flash a l.length 0xFF)).map (fun x => x.1 &&& x.2)) 0xFF } }

/-- A range erased. -/
def flashErase (s : State) (a n : Nat) : State := { s with boot := { s.boot with flash := cut s.boot.flash a n } }

/-- R381: where a slot begins. -/
def slotAt (k : Nat) : Nat := 0x800000 * k

/-- R381, R382: the header passes MAGIC, VERSION and HCRC. -/
def headerOk (s : State) (k : Nat) : Bool :=
  let b := slotAt k
  decide (flashRd s b 4 = 0x534B5A4B) && decide (flashRd s (b + 4) 2 = 1) &&
  decide (crc32c (rbytes s.boot.flash b 0x3C 0xFF) = flashRd s (b + 0x3C) 4)

/-- R381: the section table: type, offset from the slot's start, length, CRC. -/
def sections (s : State) (k : Nat) : List (Nat × Nat × Nat × Nat) :=
  let b := slotAt k + 0x40
  (List.range (min 16 (flashRd s (slotAt k + 0x10) 2))).map (fun j =>
    (flashRd s (b + 16 * j) 2, flashRd s (b + 16 * j + 4) 4, flashRd s (b + 16 * j + 8) 4, flashRd s (b + 16 * j + 12) 4))

/-- A section by its type. -/
def sectionOf (s : State) (k typ : Nat) : Option (Nat × Nat × Nat × Nat) := (sections s k).find? (fun x => decide (x.1 = typ))

/-- R381: a section's CRC holds; one that reaches past the slot fails. -/
def sectionOk (s : State) (k : Nat) (x : Nat × Nat × Nat × Nat) : Bool :=
  decide (x.2.1 + x.2.2.1 ≤ 0x800000) && decide (crc32c (rbytes s.boot.flash (slotAt k + x.2.1) x.2.2.1 0xFF) = x.2.2.2)

/-- A section's bytes moved to offset 0. -/
def sectionTab (s : State) (k typ size : Nat) : Tab Byte :=
  match sectionOf s k typ with
  | some x => wbytes [] 0 (rbytes s.boot.flash (slotAt k + x.2.1) (min x.2.2.1 size) 0xFF)
  | none => []

/-- R386: a half of the image store filled from a slot: the restart sections that this model interprets. -/
def storeHalf (s : State) (k : Nat) : StoreHalf :=
  ⟨((sections s k).filter (fun x => [2, 4, 5, 6, 7].contains x.1)).all (sectionOk s k), sectionTab s k 6 8192, sectionTab s k 7 6144⟩

/-- R395: H0_OK and H1_OK follow the halves. -/
def storeFlags (s : State) : State :=
  fset (fset s Reg.BOOT_STATUS Reg.BOOT_STATUS_H0_OK (b2n s.boot.h0.ok)) Reg.BOOT_STATUS Reg.BOOT_STATUS_H1_OK (b2n s.boot.h1.ok)

def bootedSlot (s : State) : Nat := fget s Reg.BOOT_STATUS Reg.BOOT_STATUS_SLOT
def romOnly (s : State) : Bool := decide (fget s Reg.BOOT_STATUS Reg.BOOT_STATUS_ROM_ONLY = 1)

/-! ## BOOT_CMD (R382, R386, R389) -/

/-- R382: CONFIRM programs CONFIRMED of the booted slot. -/
def bootConfirm (s : State) : State := if romOnly s then s else flashProg s (slotAt (bootedSlot s) + 0x1100) [0]

/-- R386: STAGE: accepted only with the booted slot's fabric map CRC; the copy is checked. -/
def bootStage (s : State) : State :=
  let k := 1 - bootedSlot s
  if romOnly s ∨ !headerOk s k ∨ flashRd s (slotAt k + 0x14) 4 ≠ flashRd s (slotAt (bootedSlot s) + 0x14) 4 then s
  else storeFlags (fset { s with boot := { s.boot with h1 := storeHalf s k } } Reg.BOOT_STATUS Reg.BOOT_STATUS_STORE_STAGED 1)

/-- R389: JWRITE: refused within 60 s of the last write-back. -/
def bootJwrite (s : State) : State :=
  let soon := (s.boot.jLast.map (fun t => decide (s.up < t + 60000000000))).getD false
  let s1 := fset s Reg.BOOT_JRNL Reg.BOOT_JRNL_REFUSED (b2n soon)
  if soon then s1 else { s1 with boot := { s1.boot with jWant := true } }

/-- R395: a write of BOOT_CMD. -/
def bootCmd (s : State) (v : Nat) : State :=
  let s1 := if bit v 0 then bootConfirm s else s
  let s2 := if bit v 1 then bootStage s1 else s1
  if bit v 2 then bootJwrite s2 else s2

/-! ## The journal (R389) -/

/-- R381: where a journal region begins. -/
def jrnlAt (r : Nat) : Nat := 0x1000000 + 0x80000 * r

/-- R389: whether a write-back is due. -/
def jrnlDue (s : State) : Bool :=
  s.boot.jWant ||
  (decide (fget s Reg.CAL_STATUS Reg.CAL_STATUS_JOURNAL_DIRTY = 1) && decide (fget s Reg.CAL_CTRL Reg.CAL_CTRL_JOURNAL_EN = 1) &&
    (match s.boot.jLast with
    | some t => decide (t + 3600000000000 ≤ s.up)
    | none => match s.boot.released with
      | some t => decide (t + 60000000000 ≤ s.up)
      | none => false))

/-- R389: the region that a write-back goes to: the one that does not hold the newest valid record. -/
def jrnlNext (s : State) : Nat :=
  if fget s Reg.BOOT_JRNL Reg.BOOT_JRNL_VALID = 1 then 1 - fget s Reg.BOOT_JRNL Reg.BOOT_JRNL_REGION else 0

/-- The body of a record, after its 64-byte header: tables, kinds, codes and ranges, the chart in force. -/
def jrnlBody (s : State) : List Nat :=
  rbytes s.mem 0x940000 393216 ++ rbytes s.mem 0x938000 6144 ++
  ((List.range 12288).flatMap (fun h => leBytes (codeOf s h) 2 ++ [chRange s h, 0])) ++ leBytes s.bel.forceChart.toNat 1024

/-- R389: JOURNAL_WRITE_BACK: the region is erased and the record's body is programmed. -/
def jrnlStart (s : State) : State :=
  if !jrnlDue s ∨ s.boot.jBusy ∨ s.restart.inWindow ∨ !s.boot.powered then s
  else
    let b := jrnlAt (jrnlNext s)
    let s1 := flashProg (flashErase s b 0x80000) (b + 64) (jrnlBody s)
    let s2 := fset (fset s1 Reg.BOOT_JRNL Reg.BOOT_JRNL_BUSY 1) Reg.CAL_STATUS Reg.CAL_STATUS_JOURNAL_DIRTY 0
    { s2 with boot := { s2.boot with jBusy := true, jWant := false } }

/-- R389: JOURNAL_WRITE_BACK. -/
def execJournalWriteBack (s : State) : Host.Outcome State Fault Refusal := done s (jrnlStart s)

/-- The header of a record: SEQ, TAI seconds, and the CRC over the record with its own field left out. -/
def jrnlHeader (s : State) (b seq : Nat) : List Nat :=
  let h := leBytes seq 4 ++ leBytes (secOf s.now) 8 ++ List.replicate 48 0
  h ++ leBytes (crc32c (h ++ rbytes s.boot.flash (b + 64) 449536 0xFF)) 4

/-- R389: JOURNAL_WRITE_COMPLETE: the record is valid, or a record tells of the failure and the write stays due. -/
def jrnlEnd (s : State) (ok : Bool) : State :=
  if !s.boot.jBusy then s
  else
    let r := jrnlNext s
    let s1 := fset { s with boot := { s.boot with jBusy := false } } Reg.BOOT_JRNL Reg.BOOT_JRNL_BUSY 0
    if ok then
      let s2 := flashProg s1 (jrnlAt r) (jrnlHeader s1 (jrnlAt r) (s.boot.jSeq + 1))
      let s3 := { s2 with boot := { s2.boot with jSeq := s.boot.jSeq + 1, jLast := some s.up } }
      fset (fset s3 Reg.BOOT_JRNL Reg.BOOT_JRNL_VALID 1) Reg.BOOT_JRNL Reg.BOOT_JRNL_REGION r
    else report (fset s1 Reg.CAL_STATUS Reg.CAL_STATUS_JOURNAL_DIRTY 1) srcBoot 0x72 r 0

/-- R389: JOURNAL_WRITE_COMPLETE. -/
def execJournalWriteComplete (ok : Bool) (s : State) : Host.Outcome State Fault Refusal := done s (jrnlEnd s ok)

/-! ## BOOT_PROG (R395) -/

/-- R395: a program or erase target that is denied. -/
def progDenied (s : State) (a : Nat) : Bool :=
  decide (s.boot.flashSize ≤ a) || decide (0x1000000 ≤ a ∧ a < 0x1100000) ||
  (!romOnly s && decide (slotAt (bootedSlot s) ≤ a ∧ a < slotAt (bootedSlot s) + 0x800000))

/-- R395: a write of BOOT_PROG: page and operation are stored; GO starts it unless one is in progress. -/
def progWrite (s : State) (v : Nat) : State :=
  let a := Reg.BOOT_PROG
  let op := bits v 26 2
  let page := bits v 8 18
  let s1 := fset (fset s a Reg.BOOT_PROG_PAGE page) a Reg.BOOT_PROG_OP op
  if !bit v 28 ∨ op = 3 ∨ fget s a Reg.BOOT_PROG_BUSY = 1 then s1
  else if op = 0 then fset { s1 with boot := { s1.boot with opAt := some (0, page) } } a Reg.BOOT_PROG_BUSY 1
  else
    let no := progDenied s (256 * page) || (decide (op = 2) && progDenied s (65536 * (page / 256)))
    let s2 := fset s1 a Reg.BOOT_PROG_DENIED (b2n no)
    if no then s2 else fset { s2 with boot := { s2.boot with opAt := some (op, page) } } a Reg.BOOT_PROG_BUSY 1

/-- R395: FLASH_OPERATION_COMPLETE: the page is read, programmed from the buffer, or its block is erased. -/
def progEnd (s : State) : State :=
  match s.boot.opAt with
  | none => s
  | some (op, page) =>
    let s1 := fset { s with boot := { s.boot with opAt := none } } Reg.BOOT_PROG Reg.BOOT_PROG_BUSY 0
    if op = 0 then (List.range 64).foldl (fun s k => rset s (Reg.BOOT_PBUF k) (BitVec.ofNat 32 (flashRd s (256 * page + 4 * k) 4))) s1
    else if op = 1 then flashProg s1 (256 * page) ((List.range 64).flatMap (fun k => leBytes (rget s (Reg.BOOT_PBUF k)).toNat 4))
    else flashErase s1 (65536 * (page / 256)) 65536

/-- R395: FLASH_OPERATION_COMPLETE. -/
def execFlashOperationComplete (s : State) : Host.Outcome State Fault Refusal := done s (progEnd s)

/-! ## Clocks and memory errors (R355, R395) -/

/-- R395: the GLB_CLK bit of a clock: REFCLK, then the timing, core and fabric PLLs; inputs 0 to 2 are the PLLs, 3 REFCLK. -/
def clkBit (i : Nat) : Nat := if i = 3 then 0 else i + 1

/-- R395: a loss of lock: the bit clears and CLK reports. -/
def pllLost (s : State) (i : Nat) : State :=
  if rbit s Reg.GLB_CLK (clkBit i) then report (rput s Reg.GLB_CLK (clkBit i) false) srcClk 0x74 i 0 else s

/-- R395: PLL_UNLOCK. -/
def execPllUnlock (i : Fin 4) (s : State) : Host.Outcome State Fault Refusal := done s (pllLost s i)

/-- R395: PLL_LOCK. -/
def execPllLock (i : Fin 4) (s : State) : Host.Outcome State Fault Refusal := done s (rput s Reg.GLB_CLK (clkBit i) true)

/-- R355: the source that reports a double-bit error. -/
def eccSource (a : Nat) (inSup : Bool) : Nat :=
  if inSup then srcSup else if 0x800000 ≤ a ∧ a < 0x900000 then srcCharts else if 0xE00000 ≤ a then srcFmap else srcSram

/-- R355: ECC2. -/
def execEcc2 (a : BitVec 24) (inSup : Bool) (s : State) : Host.Outcome State Fault Refusal :=
  done s (report s (eccSource a.toNat inSup) 0x70 a.toNat 0)

/-! ## Service -/

/-- R26, R137: the device returns to service where nothing keeps it out of it. -/
def serviceBack (s : State) : State :=
  if s.boot.powered ∧ !romOnly s ∧ allRun s ∧ !s.pins.extest ∧ !s.restart.inWindow ∧ fget s Reg.THM_STATUS Reg.THM_STATUS_PIC_SHUT = 0 ∧
     fget s Reg.THM_STATUS Reg.THM_STATUS_DIE_SHUT = 0 ∧ (List.range 96).any (tileUsed (fm s)) then
    fset s Reg.BEL_STATUS Reg.BEL_STATUS_IN_SERVICE 1
  else s

/-! ## The test port (R419) -/

/-- R419: what the boundary cells capture is shifted out. -/
def scanOut (s : State) : State :=
  let d := draw s
  emit d.2 (.tdo (Config.scanCapture d.1))

/-- R419: EXTEST ends: the pins return to the device. -/
def extestEnd (s : State) : State :=
  if s.pins.extest then serviceBack { s with pins := { s.pins with extest := false, pwmLow := !s.boot.powered, clamp := !s.boot.powered } } else s

/-- R419: EXTEST: the boundary cells drive the pins, PWM outputs are low, the sink clamp holds every heater output, and the device is
out of service. -/
def execExtest (s : State) : Host.Outcome State Fault Refusal :=
  done s (scanOut (fset { s with pins := { s.pins with extest := true, pwmLow := true, clamp := true } } Reg.BEL_STATUS Reg.BEL_STATUS_IN_SERVICE 0))

/-- R419: SAMPLE_PRELOAD. -/
def execSamplePreload (s : State) : Host.Outcome State Fault Refusal := done s (scanOut (extestEnd s))

/-- R419: BYPASS: one register of one bit, which captures 0. -/
def execBypass (s : State) : Host.Outcome State Fault Refusal := done s (emit (extestEnd s) (.tdo 0))

/-- R419: IDCODE. -/
def execIdcode (s : State) : Host.Outcome State Fault Refusal := done s (emit (extestEnd s) (.tdo 0x16512C4F))

/-- R419: TAP_RESET. -/
def execTapReset (s : State) : Host.Outcome State Fault Refusal := done s (extestEnd s)

/-! ## DOZE and NAP (R391, R392) -/

def pstate (s : State) : Nat := fget s Reg.GLB_PSTATE Reg.GLB_PSTATE_STATE
def setPstate (s : State) (v : Nat) : State := fset s Reg.GLB_PSTATE Reg.GLB_PSTATE_STATE v

/-- R391, R192, R213: the kernel of a tile reports ready, while its core sleeps. -/
def kernelReady (s : State) (t : Nat) : Bool :=
  (coreFor s t).isNone || drvState s t ≠ 4 ||
  ((coreFor s t).all (fun k => decide (coreState s k = 1)) && kernelQuiet s t)

/-- R391: the first condition of entry that fails (GLB_PSTATE.REASON); 0 where all hold. -/
def pstateReason (s : State) : Nat :=
  if !s.bel.bells.isEmpty then 1
  else if (List.range 96).any (fun t => !kernelReady s t) then 2
  else if anyMoving s then 3
  else if !s.cal.sweeps.isEmpty ∨ s.mon.calRun.isSome then 4
  else 0

/-- R391, R392: a write of GLB_PSTATE.REQ. -/
def pstateWrite (s : State) (v : Nat) : State :=
  let req := v % 4
  let s1 := fset s Reg.GLB_PSTATE Reg.GLB_PSTATE_REQ req
  if req = 1 ∨ req = 2 then
    if pstate s = 0 ∨ pstate s = 1 then
      let s2 := fset (fset (setPstate s1 1) Reg.GLB_PSTATE Reg.GLB_PSTATE_REFUSED 0) Reg.GLB_PSTATE Reg.GLB_PSTATE_REASON 0
      { s2 with boot := { s2.boot with pstAt := some s2.up } }
    else s1
  else if pstate s = 1 then { (setPstate s1 0) with boot := { s1.boot with pstAt := none } }
  else if 2 ≤ pstate s ∧ s.boot.pstWake.isNone then
    fset { s1 with boot := { s1.boot with pstWake := some (s1.up + 16000) } } Reg.GLB_PSTATE Reg.GLB_PSTATE_EXIT 0
  else s1

/-- R391: POWER_STATE_ENTRY: every condition holds. -/
def pstateEnter (s : State) : State :=
  if pstate s = 1 ∧ pstateReason s = 0 then
    { (setPstate s (fget s Reg.GLB_PSTATE Reg.GLB_PSTATE_REQ + 1)) with boot := { s.boot with pstAt := none } }
  else s

/-- R391: POWER_STATE_ENTRY. -/
def execPowerStateEntry (s : State) : Host.Outcome State Fault Refusal := done s (pstateEnter s)

/-- R391: POWER_STATE_REFUSAL: 10 ms have passed and a condition fails. -/
def pstateRefuse (s : State) : State :=
  match s.boot.pstAt with
  | some t =>
    if pstate s = 1 ∧ pstateReason s ≠ 0 ∧ t + 10000000 ≤ s.up then
      let s1 := fset (fset (setPstate s 0) Reg.GLB_PSTATE Reg.GLB_PSTATE_REFUSED 1) Reg.GLB_PSTATE Reg.GLB_PSTATE_REASON (pstateReason s)
      { s1 with boot := { s1.boot with pstAt := none } }
    else s
  | none => s

/-- R391: POWER_STATE_REFUSAL. -/
def execPowerStateRefusal (s : State) : Host.Outcome State Fault Refusal := done s (pstateRefuse s)

end Sys2Proof.Machine
end

