-- ==== Sys2Proof/Machine/CpuAlu.lean ====
section
/-! DEFINITION. The ALU instructions of the Taruk cores (R208, R219): register and immediate forms, LDI. -/

namespace Sys2Proof.Machine

/-- R208, R219: an ALU result: D written, FLAGS where the form sets them. `x` is the exact result, `v` says it did not fit. -/
def aluPut (s : State) (k d r : Nat) (fl v c : Bool) : State :=
  let s1 := wrD s k d r
  if fl then flagLate s1 k (flagsOf (zOf r) (nOf r) v c) else s1

/-- A C flag that the specification does not define: a free value (notes/assumptions/40). -/
def freeC (s : State) : Bool × State :=
  let d := draw s
  (decide ((Config.coreValue d.1).toNat % 2 = 1), d.2)

/-- An ALU result whose C flag is open. -/
def aluFree (s : State) (k d r : Nat) (fl v : Bool) : State :=
  if fl then (let c := freeC s; aluPut c.2 k d r fl v c.1) else aluPut s k d r fl v false

/-- A result for which the specification states no value (notes/assumptions/41). -/
def aluOpen (s : State) (k d : Nat) (fl : Bool) : State :=
  let x := draw s
  aluFree x.2 k d ((Config.coreValue x.1).toNat % 2 ^ 24) fl false

/-- R208: a saturating result, with SAT. -/
def aluSat (s : State) (k d : Nat) (x : Int) (fl c : Bool) : State :=
  let r := satS x 24
  let s1 := aluPut s k d (enc r 24) fl (decide (r ≠ x)) c
  if r = x then s1 else setCore s1 k { (coreOf s1 k) with sat := true }

/-- R219: ADD. -/
def execAdd (k : Fin 100) (d a b : Fin 16) (fl : Bool) (s : State) : Host.Outcome State Fault Refusal :=
  cpu s k (fun s => .ok (aluPut s k d (enc (sD s k a + sD s k b) 24) fl (ovf24 (sD s k a + sD s k b)) (carryAdd (rdD s k a) (rdD s k b))))

/-- R219: SUB. -/
def execSub (k : Fin 100) (d a b : Fin 16) (fl : Bool) (s : State) : Host.Outcome State Fault Refusal :=
  cpu s k (fun s => .ok (aluPut s k d (enc (sD s k a - sD s k b) 24) fl (ovf24 (sD s k a - sD s k b)) (carrySub (rdD s k a) (rdD s k b))))

/-- R208: ADDS. -/
def execAdds (k : Fin 100) (d a b : Fin 16) (fl : Bool) (s : State) : Host.Outcome State Fault Refusal :=
  cpu s k (fun s => .ok (aluSat s k d (sD s k a + sD s k b) fl (carryAdd (rdD s k a) (rdD s k b))))

/-- R208: SUBS. -/
def execSubs (k : Fin 100) (d a b : Fin 16) (fl : Bool) (s : State) : Host.Outcome State Fault Refusal :=
  cpu s k (fun s => .ok (aluSat s k d (sD s k a - sD s k b) fl (carrySub (rdD s k a) (rdD s k b))))

/-- R219: AND. -/
def execAnd (k : Fin 100) (d a b : Fin 16) (fl : Bool) (s : State) : Host.Outcome State Fault Refusal :=
  cpu s k (fun s => .ok (aluFree s k d (rdD s k a &&& rdD s k b) fl false))

/-- R219: OR. -/
def execOr (k : Fin 100) (d a b : Fin 16) (fl : Bool) (s : State) : Host.Outcome State Fault Refusal :=
  cpu s k (fun s => .ok (aluFree s k d (rdD s k a ||| rdD s k b) fl false))

/-- R219: XOR. -/
def execXor (k : Fin 100) (d a b : Fin 16) (fl : Bool) (s : State) : Host.Outcome State Fault Refusal :=
  cpu s k (fun s => .ok (aluFree s k d (rdD s k a ^^^ rdD s k b) fl false))

/-- R208: a shift left wraps in 24 bits; a count of 24 or more has no stated result (notes/assumptions/41). -/
def shlRun (s : State) (k d a n : Nat) (fl : Bool) : State :=
  if n < 24 then aluFree s k d (rdD s k a * 2 ^ n % 2 ^ 24) fl (ovf24 (sD s k a * 2 ^ n)) else aluOpen s k d fl

/-- R208: a logical shift right. -/
def shrRun (s : State) (k d a n : Nat) (fl : Bool) : State :=
  if n < 24 then aluFree s k d (rdD s k a / 2 ^ n) fl false else aluOpen s k d fl

/-- R208: an arithmetic shift right. -/
def asrRun (s : State) (k d a n : Nat) (fl : Bool) : State :=
  if n < 24 then aluFree s k d (enc (sD s k a / 2 ^ n) 24) fl false else aluOpen s k d fl

/-- R219: SHL. -/
def execShl (k : Fin 100) (d a b : Fin 16) (fl : Bool) (s : State) : Host.Outcome State Fault Refusal :=
  cpu s k (fun s => .ok (shlRun s k d a (rdD s k b) fl))

/-- R219: SHR. -/
def execShr (k : Fin 100) (d a b : Fin 16) (fl : Bool) (s : State) : Host.Outcome State Fault Refusal :=
  cpu s k (fun s => .ok (shrRun s k d a (rdD s k b) fl))

/-- R219: ASR. -/
def execAsr (k : Fin 100) (d a b : Fin 16) (fl : Bool) (s : State) : Host.Outcome State Fault Refusal :=
  cpu s k (fun s => .ok (asrRun s k d a (rdD s k b) fl))

/-- R219: MIN. -/
def execMin (k : Fin 100) (d a b : Fin 16) (fl : Bool) (s : State) : Host.Outcome State Fault Refusal :=
  cpu s k (fun s => .ok (aluFree s k d (enc (min (sD s k a) (sD s k b)) 24) fl false))

/-- R219: MAX. -/
def execMax (k : Fin 100) (d a b : Fin 16) (fl : Bool) (s : State) : Host.Outcome State Fault Refusal :=
  cpu s k (fun s => .ok (aluFree s k d (enc (max (sD s k a) (sD s k b)) 24) fl false))

/-- R219: ABS; −2^23 has no stated result. -/
def execAbs (k : Fin 100) (d a : Fin 16) (fl : Bool) (s : State) : Host.Outcome State Fault Refusal :=
  cpu s k (fun s => .ok (if rdD s k a = 2 ^ 23 then aluOpen s k d fl else aluFree s k d (sD s k a).natAbs fl false))

/-- R219: NEG; −2^23 has no stated result. -/
def execNeg (k : Fin 100) (d a : Fin 16) (fl : Bool) (s : State) : Host.Outcome State Fault Refusal :=
  cpu s k (fun s => .ok (if rdD s k a = 2 ^ 23 then aluOpen s k d fl else aluFree s k d (enc (-(sD s k a)) 24) fl false))

/-- R219: the flags of a comparison of two D values. -/
def cmpRun (s : State) (k a b : Nat) : State :=
  let x := s24 a - s24 b
  flagLate s k (flagsOf (decide (x = 0)) (nOf (enc x 24)) (ovf24 x) (carrySub (a % 2 ^ 24) (b % 2 ^ 24)))

/-- R219: CMP. -/
def execCmp (k : Fin 100) (a b : Fin 16) (s : State) : Host.Outcome State Fault Refusal :=
  cpu s k (fun s => .ok (cmpRun s k (rdD s k a) (rdD s k b)))

/-- R219: NORM: the specification states no result (notes/assumptions/41). -/
def execNorm (k : Fin 100) (d _a : Fin 16) (fl : Bool) (s : State) : Host.Outcome State Fault Refusal :=
  cpu s k (fun s => .ok (aluOpen s k d fl))

/-- R219: ADDI, with a signed immediate. -/
def execAddi (k : Fin 100) (d a : Fin 16) (imm : BitVec 16) (s : State) : Host.Outcome State Fault Refusal :=
  cpu s k (fun s => .ok (wrD s k d (enc (sD s k a + sext imm.toNat 16) 24)))

/-- R219: ANDI, with a zero-extended immediate. -/
def execAndi (k : Fin 100) (d a : Fin 16) (imm : BitVec 16) (s : State) : Host.Outcome State Fault Refusal :=
  cpu s k (fun s => .ok (wrD s k d (rdD s k a &&& imm.toNat)))

/-- R219: CMPI, with a signed immediate. -/
def execCmpi (k : Fin 100) (a : Fin 16) (imm : BitVec 16) (s : State) : Host.Outcome State Fault Refusal :=
  cpu s k (fun s => .ok (cmpRun s k (rdD s k a) (enc (sext imm.toNat 16) 24)))

/-- R219: SHLI. -/
def execShli (k : Fin 100) (d a : Fin 16) (imm : BitVec 16) (s : State) : Host.Outcome State Fault Refusal :=
  cpu s k (fun s => .ok (shlRun s k d a imm.toNat false))

/-- R219: SHRI. -/
def execShri (k : Fin 100) (d a : Fin 16) (imm : BitVec 16) (s : State) : Host.Outcome State Fault Refusal :=
  cpu s k (fun s => .ok (shrRun s k d a imm.toNat false))

/-- R219: ASRI. -/
def execAsri (k : Fin 100) (d a : Fin 16) (imm : BitVec 16) (s : State) : Host.Outcome State Fault Refusal :=
  cpu s k (fun s => .ok (asrRun s k d a imm.toNat false))

/-- R219: LDI. -/
def execLdi (k : Fin 100) (d : Fin 16) (imm : BitVec 24) (s : State) : Host.Outcome State Fault Refusal :=
  cpu s k (fun s => .ok (wrD s k d imm.toNat))

end Sys2Proof.Machine
end

