-- ==== Sys2Proof/Machine/CpuCtl.lean ====
section
/-! DEFINITION. Branch and control instructions of the Taruk cores (R200, R205, R212, R213, R219, R221). -/

namespace Sys2Proof.Machine

/-- R219: an instruction of the branch class, which is illegal inside a REP block (notes/assumptions/97). -/
def branch (k : Nat) (run : State → Ran) (s : State) : Ran := if inRep s k then .bad 3 else run s

/-- R219: B. -/
def execB (k : Fin 100) (tgt : BitVec 14) (s : State) : Host.Outcome State Fault Refusal :=
  cpu s k (branch k (fun s => .ok (setCtl s k (.jump (4 * tgt.toNat % 0x8000)))))

/-- R219: BCC, on the flags that have reached it (R205). -/
def execBcc (k : Fin 100) (c : Cond) (tgt : BitVec 14) (s : State) : Host.Outcome State Fault Refusal :=
  cpu s k (branch k (fun s => .ok (if condHolds c (coreOf s k).flags then setCtl s k (.jump (4 * tgt.toNat % 0x8000)) else s)))

/-- R219: CALL: the return address is that after the delay slot (notes/assumptions/42). -/
def callRun (k tgt : Nat) (s : State) : State :=
  let c := coreOf s k
  setCore s k { c with calls := ((c.pc + 8) % 0x8000) :: c.calls, ctl := some (.jump (4 * tgt % 0x8000)) }

/-- R219: CALL. -/
def execCall (k : Fin 100) (tgt : BitVec 14) (s : State) : Host.Outcome State Fault Refusal := cpu s k (branch k (fun s => .ok (callRun k tgt.toNat s)))

/-- R219: RET. -/
def execRet (k : Fin 100) (s : State) : Host.Outcome State Fault Refusal := cpu s k (branch k (fun s => .ok (setCtl s k .ret)))

/-- R219: REP: the block that follows up to its end label, `count` times, or D0 times where the count is 0. -/
def repRun (k count tgt : Nat) (s : State) : Ran :=
  let n := if count = 0 then rdD s k 0 else count
  let e := 4 * tgt % 0x8000
  let b := (pcOf s k + 4) % 0x8000
  if n = 0 then .went (setCore s k { (coreOf s k) with pc := e })
  else if e ≤ b then .ok s
  else .ok (rfSet (rfSet (rfSet s k ixRepN n) k ixRepS b) k ixRepE e)

/-- R219: REP. -/
def execRep (k : Fin 100) (count : Fin 64) (tgt : BitVec 14) (s : State) : Host.Outcome State Fault Refusal :=
  cpu s k (branch k (repRun k count tgt.toNat))

/-- R219: NOP. -/
def execNop (k : Fin 100) (s : State) : Host.Outcome State Fault Refusal := cpu s k (fun s => .ok s)

/-- R213: SLEEP, after its delay slot. -/
def execSleep (k : Fin 100) (s : State) : Host.Outcome State Fault Refusal := cpu s k (fun s => .ok (setCtl s k .sleep))

/-- R213: WAIT, after its delay slot. -/
def execWait (k : Fin 100) (c : WaitCond) (s : State) : Host.Outcome State Fault Refusal := cpu s k (fun s => .ok (setCtl s k (.wait c)))

/-- R212, R222: RETE: customer code returns only by RETH. -/
def reteRun (k : Nat) (s : State) : Ran := if (coreOf s k).cmode then .bad 4 else .went (levelEnd s k)

/-- R212: RETE. -/
def execRete (k : Fin 100) (s : State) : Host.Outcome State Fault Refusal := cpu s k (reteRun k)

/-- R221: RETH, after its delay slot. -/
def execReth (k : Fin 100) (s : State) : Host.Outcome State Fault Refusal := cpu s k (fun s => .ok (setCtl s k .reth))

/-- R200, R214: MOVC: CST, TCNT, TCMP0 to TCMP3; other numbers name nothing the specification gives (notes/assumptions/43).
A compare is 32 bits and D 24: bits 31:24 of a compare written are free. -/
def movcRun (k : Nat) (wr : Bool) (d csr : Nat) (s : State) : Ran :=
  let v := rdD s k d
  if wr then
    if csr = 0 then
      let s1 := cstClear s k v
      .ok (setCore s1 k { (coreOf s1 k) with flags := bits v 5 4 })
    else if 4 ≤ csr ∧ csr ≤ 7 then
      let f := draw s
      let t := v + 2 ^ 24 * ((Config.coreValue f.1).toNat % 256)
      .ok (setCore f.2 k { (coreOf f.2 k) with tcmp := tset (coreOf f.2 k).tcmp 0 (csr - 4) (t + 1) })
    else .ok s
  else if csr = 0 then .ok (wrD s k d (cstOf s k))
  else if csr = 1 then .ok (wrD s k d (tcnt s))
  else
    let f := draw s
    .ok (wrD f.2 k d (Config.coreValue f.1).toNat)

/-- R200: MOVC. -/
def execMovc (k : Fin 100) (wr : Bool) (d : Fin 16) (csr : BitVec 20) (s : State) : Host.Outcome State Fault Refusal :=
  cpu s k (movcRun k wr d csr.toNat)

end Sys2Proof.Machine
end

