-- ==== Sys2Proof/Machine/CpuMem.lean ====
section
/-! DEFINITION. Loads, stores, dual loads and address instructions of the Taruk cores (R201, R209, R219). -/

namespace Sys2Proof.Machine

/-- R201: a load of `n` bytes into D, one delay slot; `sg` sign-extends. -/
def loadRun (k d n : Nat) (sg : Bool) (m : MemForm) (s : State) : Ran :=
  let a := (memAddr s k m).1
  if !aligned a n then .bad 3
  else
    let v := dget s k a n
    .ok (rfLate (memAddr s k m).2 k (ixD d) (if sg then enc (sext v (8 * n)) 24 else v % 2 ^ 24) 1)

/-- R201: LD_B. -/
def execLdB (k : Fin 100) (d : Fin 16) (m : MemForm) (s : State) : Host.Outcome State Fault Refusal := cpu s k (loadRun k d 1 true m)

/-- R201: LD_BU. -/
def execLdBu (k : Fin 100) (d : Fin 16) (m : MemForm) (s : State) : Host.Outcome State Fault Refusal := cpu s k (loadRun k d 1 false m)

/-- R201: LD_H. -/
def execLdH (k : Fin 100) (d : Fin 16) (m : MemForm) (s : State) : Host.Outcome State Fault Refusal := cpu s k (loadRun k d 2 true m)

/-- R201: LD_HU. -/
def execLdHu (k : Fin 100) (d : Fin 16) (m : MemForm) (s : State) : Host.Outcome State Fault Refusal := cpu s k (loadRun k d 2 false m)

/-- R201: LD_W. -/
def execLdW (k : Fin 100) (d : Fin 16) (m : MemForm) (s : State) : Host.Outcome State Fault Refusal := cpu s k (loadRun k d 4 false m)

/-- R201, R222: a store of `n` bytes of D (a word sign-extended to 32 bits). -/
def storeRun (k d n : Nat) (m : MemForm) (s : State) : Ran :=
  let a := (memAddr s k m).1
  if !aligned a n then .bad 3
  else if !storeOk s k a n then .bad 4
  else .ok (storeLate (memAddr s k m).2 k a n (enc (sD s k d) (8 * n)))

/-- R201: ST_B. -/
def execStB (k : Fin 100) (d : Fin 16) (m : MemForm) (s : State) : Host.Outcome State Fault Refusal := cpu s k (storeRun k d 1 m)

/-- R201: ST_H. -/
def execStH (k : Fin 100) (d : Fin 16) (m : MemForm) (s : State) : Host.Outcome State Fault Refusal := cpu s k (storeRun k d 2 m)

/-- R201: ST_W. -/
def execStW (k : Fin 100) (d : Fin 16) (m : MemForm) (s : State) : Host.Outcome State Fault Refusal := cpu s k (storeRun k d 4 m)

/-- R201: LD2: a word through each slot. -/
def ld2Run (k d e : Nat) (x y : MemForm) (s : State) : Ran :=
  let ax := (memAddr s k x).1
  let ay := (memAddr s k y).1
  if shortForm x ∧ shortForm y ∧ aligned ax 4 ∧ aligned ay 4 then
    .ok (rfLate (rfLate (memAddr (memAddr s k x).2 k y).2 k (ixD d) (wordAt s k ax) 1) k (ixD e) (wordAt s k ay) 1)
  else .bad 3

/-- R201: LD2. -/
def execLd2 (k : Fin 100) (d e : Fin 16) (x y : MemForm) (s : State) : Host.Outcome State Fault Refusal := cpu s k (ld2Run k d e x y)

/-- R198: the register file index of an address register. -/
def ixAddr (r : AddrReg) (n : Nat) : Nat :=
  match r with
  | .a => ixA n
  | .o => ixO n
  | .l => ixL n
  | .b => ixB n

/-- R205, R219: MOV: into an address register with two delay slots, or from one into D. -/
def movRun (k : Nat) (r : AddrReg) (n : Nat) (src : MovSrc) (s : State) : Ran :=
  match src with
  | .fromD d => .ok (rfLate s k (ixAddr r n) (rdD s k d % 2 ^ 16) 2)
  | .toD d => .ok (wrD s k d (rf s k (ixAddr r n)))
  | .imm v => .ok (rfLate s k (ixAddr r n) v.toNat 2)

/-- R219: MOV. -/
def execMov (k : Fin 100) (r : AddrReg) (n : Fin 8) (src : MovSrc) (s : State) : Host.Outcome State Fault Refusal :=
  cpu s k (movRun k r n src)

/-- R219: LEA: An plus a signed immediate, 16 bits (notes/assumptions/42). -/
def execLea (k : Fin 100) (n : Fin 8) (d : Fin 16) (imm : BitVec 16) (s : State) : Host.Outcome State Fault Refusal :=
  cpu s k (fun s => .ok (wrD s k d (enc ((rf s k (ixA n) : Int) + sext imm.toNat 16) 16)))

end Sys2Proof.Machine
end

