-- ==== Sys2Proof/Machine/CpuMul.lean ====
section
/-! DEFINITION. The multiply, complex and accumulator instructions of the Taruk cores (R207, R208, R219). -/

namespace Sys2Proof.Machine

/-- R207: a 24-bit operand, signed or unsigned. -/
def mulVal (x : Nat) (u : Bool) : Int := if u then ((x % 2 ^ 24 : Nat) : Int) else s24 x

/-- R207: a product; the .F form is shifted left by one place. -/
def mulProd (a b : Int) (frac : Bool) : Int := if frac then 2 * a * b else a * b

/-- R201, R209: the words of slots X and Y, with both addresses formed before either post-modify (notes/assumptions/42). -/
def slotPair (s : State) (k : Nat) (x y : MemForm) : Option (Nat × Nat × State) :=
  let ax := (memAddr s k x).1
  let ay := (memAddr s k y).1
  if shortForm x ∧ shortForm y ∧ aligned ax 4 ∧ aligned ay 4 then
    some (wordAt s k ax, wordAt s k ay, (memAddr (memAddr s k x).2 k y).2)
  else none

/-- R219: the two operands of a multiply. -/
def mulOpds (s : State) (k : Nat) (o : MulOpd) : Option (Nat × Nat × State) :=
  match o with
  | .dd a b => some (rdD s k a, rdD s k b, s)
  | .dm a m => if aligned (memAddr s k m).1 4 then some (rdD s k a, wordAt s k (memAddr s k m).1, (memAddr s k m).2) else none
  | .mm x y => slotPair s k x y

/-- R207: MUL, MAC and MSU: the accumulator becomes `f old product`. -/
def mulRun (k acc : Nat) (o : MulOpd) (frac ua ub : Bool) (f : Int → Int → Int) (s : State) : Ran :=
  match mulOpds s k o with
  | some (a, b, s1) => .ok (accSet s1 k acc (f (accGet s1 k acc) (mulProd (mulVal a ua) (mulVal b ub) frac)))
  | none => .bad 3

/-- R207: MUL. -/
def execMul (k : Fin 100) (acc : Fin 4) (o : MulOpd) (frac ua ub : Bool) (s : State) : Host.Outcome State Fault Refusal :=
  cpu s k (mulRun k acc o frac ua ub (fun _ p => p))

/-- R207: MAC. -/
def execMac (k : Fin 100) (acc : Fin 4) (o : MulOpd) (frac ua ub : Bool) (s : State) : Host.Outcome State Fault Refusal :=
  cpu s k (mulRun k acc o frac ua ub (fun x p => x + p))

/-- R207: MSU. -/
def execMsu (k : Fin 100) (acc : Fin 4) (o : MulOpd) (frac ua ub : Bool) (s : State) : Host.Outcome State Fault Refusal :=
  cpu s k (mulRun k acc o frac ua ub (fun x p => x - p))

/-- R207: MAC2: two multiply-accumulates on ACCp and ACCp + 1, each from its own slot; there is no ACC4 (notes/assumptions/42). -/
def mac2Run (k p d : Nat) (x y : MemForm) (frac ua ub : Bool) (s : State) : Ran :=
  if 3 ≤ p then .bad 3
  else match slotPair s k x y with
  | some (mx, my, s1) =>
    let a := mulVal (rdD s k d) ua
    let s2 := accSet s1 k p (accGet s1 k p + mulProd a (mulVal mx ub) frac)
    .ok (accSet s2 k (p + 1) (accGet s1 k (p + 1) + mulProd a (mulVal my ub) frac))
  | none => .bad 3

/-- R207: MAC2. -/
def execMac2 (k : Fin 100) (acc : Fin 4) (d : Fin 16) (x y : MemForm) (frac ua ub : Bool) (s : State) :
    Host.Outcome State Fault Refusal := cpu s k (mac2Run k acc d x y frac ua ub)

/-- R207: CMAC and CMSU (`neg`): a complex product added to or subtracted from an accumulator pair. -/
def cmacRun (k p d : Nat) (x y : MemForm) (frac neg : Bool) (s : State) : Ran :=
  match slotPair s k x y with
  | some (mx, my, s1) =>
    let re := s24 (rdD s k (2 * d))
    let im := s24 (rdD s k (2 * d + 1))
    let pr := mulProd re (s24 mx) frac - mulProd im (s24 my) frac
    let pi := mulProd re (s24 my) frac + mulProd im (s24 mx) frac
    let g : Int := if neg then -1 else 1
    let s2 := accSet s1 k (2 * p) (accGet s1 k (2 * p) + g * pr)
    .ok (accSet s2 k (2 * p + 1) (accGet s1 k (2 * p + 1) + g * pi))
  | none => .bad 3

/-- R207: CMAC. -/
def execCmac (k : Fin 100) (acc : Fin 2) (d : Fin 8) (x y : MemForm) (frac : Bool) (s : State) : Host.Outcome State Fault Refusal :=
  cpu s k (cmacRun k acc d x y frac false)

/-- R207: CMSU. -/
def execCmsu (k : Fin 100) (acc : Fin 2) (d : Fin 8) (x y : MemForm) (frac : Bool) (s : State) : Host.Outcome State Fault Refusal :=
  cpu s k (cmacRun k acc d x y frac true)

/-- R208: round(x >> n), halves up. -/
def roundShift (x : Int) (n : Nat) : Int := if n = 0 then x else (x + 2 ^ (n - 1)) / 2 ^ n

/-- R208: MOVA. -/
def movaRun (k d acc n : Nat) (s : State) : Ran :=
  if 48 ≤ n then .bad 3
  else
    let x := roundShift (accSeen s k acc) n
    let r := satS x 24
    let s1 := wrD s k d (enc r 24)
    .ok (if r = x then s1 else setCore s1 k { (coreOf s1 k) with sat := true })

/-- R208: MOVA. -/
def execMova (k : Fin 100) (d : Fin 16) (acc : Fin 4) (n : Fin 64) (s : State) : Host.Outcome State Fault Refusal :=
  cpu s k (movaRun k d acc n)

/-- R219: CLR. -/
def execClr (k : Fin 100) (acc : Fin 4) (s : State) : Host.Outcome State Fault Refusal := cpu s k (fun s => .ok (accSet s k acc 0))

/-- R219: CMPA: the flags of the accumulator minus D (notes/assumptions/42). -/
def cmpaRun (s : State) (k acc d : Nat) : State :=
  let x := accSeen s k acc - sD s k d
  let c := draw s
  flagLate c.2 k (flagsOf (decide (x = 0)) (decide (x < 0)) (decide (x ≠ satS x 56)) (decide ((Config.coreValue c.1).toNat % 2 = 1)))

/-- R219: CMPA. -/
def execCmpa (k : Fin 100) (acc : Fin 4) (d : Fin 16) (s : State) : Host.Outcome State Fault Refusal :=
  cpu s k (fun s => .ok (cmpaRun s k acc d))

/-- R201: LD.A: bits 55:0 of 64 at an 8-byte boundary. -/
def ldARun (k acc : Nat) (m : MemForm) (s : State) : Ran :=
  let a := (memAddr s k m).1
  if !shortForm m ∨ !aligned a 8 then .bad 3
  else
    let v := dget s k a 8 % 2 ^ 56
    let s1 := (memAddr s k m).2
    .ok (rfLate (rfLate s1 k (ixAcc acc) v 1) k (ixAccLate acc) v 1)

/-- R201: LD_A. -/
def execLdA (k : Fin 100) (acc : Fin 4) (m : MemForm) (s : State) : Host.Outcome State Fault Refusal := cpu s k (ldARun k acc m)

/-- R201: ST.A: the accumulator sign-extended to 64 bits. -/
def stARun (k acc : Nat) (m : MemForm) (s : State) : Ran :=
  let a := (memAddr s k m).1
  if !shortForm m ∨ !aligned a 8 then .bad 3
  else if !storeOk s k a 8 then .bad 4
  else .ok (storeLate (memAddr s k m).2 k a 8 (enc (accSeen s k acc) 64))

/-- R201: ST_A. -/
def execStA (k : Fin 100) (acc : Fin 4) (m : MemForm) (s : State) : Host.Outcome State Fault Refusal := cpu s k (stARun k acc m)

end Sys2Proof.Machine
end

