-- ==== Sys2Proof/Machine/Restart.lean ====
section
/-! DEFINITION. Warm restarts (R27, R83, R90, R138, R192, R226, R239, R299, R307, R350, R362 to R364, R377, R385 to R388). -/

namespace Sys2Proof.Machine

/-! ## The request (R385) and the restart's start -/

/-- R307: a ring's fetched descriptors are discarded: HEAD returns to the first of them, and they are visible again. -/
def ringRewind (s : State) (i : Nat) : State :=
  let mine := s.hif.fetched.filter (fun e => decide (e.src = i))
  let st := Reg.HIF_RING_STAT (i / 16) (i % 16)
  let g := ringOf s i
  let s1 := fset (setRing s i { g with flight := none, doors := mine.map (fun e => (1, e.door)) ++ g.doors }) st Reg.HIF_RING_STAT_ACTIVE 0
  match mine.head? with
  | none => s1
  | some e => setOwed (fset s1 st Reg.HIF_RING_STAT_HEAD e.idx) i (owed s1 i - mine.length)

/-- R307, R331: nothing fetched survives; the SPI port's queue empties. -/
def intakeRewind (s : State) : State :=
  let s1 := (List.range 32).foldl (fun s i =>
    if (ringOf s i).flight.isSome ∨ s.hif.fetched.any (fun e => decide (e.src = i)) then ringRewind s i else s) s
  let n := s1.spi.queue.length + (s1.hif.fetched.filter (fun e => decide (e.src = 32))).length
  fset { s1 with hif := { s1.hif with fetched := [] }, spi := { s1.spi with queue := [], owed := s1.spi.owed - n } }
    Reg.LEG_STATUS Reg.LEG_STATUS_QLEN 0

/-- R83, R138: a bell's speculative work and its arm are undone; the ports of its cells are measured again. -/
def bellRewind (s : State) (b : Bell) : State :=
  let s1 := if b.st = 5 then ((b.plan.map (·.cells)).getD []).foldl (fun s c => freezePort s c.1 false) s else s
  discardWork s1 b true false

/-- R138, R387: the arms of every tile cleared. -/
def armsClear (s : State) : State :=
  (List.range 96).foldl (fun s t => fset (fset s (Reg.DRV_ARM t) Reg.DRV_ARM_VALID 0) (Reg.DRV_ARM t) Reg.DRV_ARM_RVALID 0) s

/-- R377: a die shut-down holds a restart back until every die sensor is below THR1 − HYST. -/
def dieHot (s : State) : Bool :=
  decide (fget s Reg.THM_STATUS Reg.THM_STATUS_DIE_SHUT = 1) &&
  (List.range 64).any (fun i => decide (thrOf s i 1 - hystOf s i ≤ effOf s i))

/-- R387: the restart's start: arms cleared, intake paused, speculative work discarded, sweeps returned; the watchdog stops. -/
def restartBegin (s : State) : State :=
  let s1 := { s with restart := { s.restart with upAt := s.up, taiAt := s.now, inWindow := true },
                     hif := { s.hif with paused := true }, boot := { s.boot with dogRun := false } }
  let s2 := abortWhere (intakeRewind (armsClear s1)) (fun _ _ => true) true
  (fireOrder s2).foldl bellRewind s2

/-- R385: a restart is requested: one requested during another's window merges into it, and a die shut-down holds it back. -/
def requestRestart (s : State) (cause : Nat) (staged : Bool) : State :=
  if !s.boot.powered ∨ s.restart.asked.isSome ∨ s.restart.inWindow then s
  else
    let s1 := { s with restart := { s.restart with asked := some (cause, staged) } }
    if dieHot s1 then s1 else restartBegin s1

/-- R385, R421: RST_N falls; before power-on reset has released it is ignored. -/
def execRstN (s : State) : Host.Outcome State Fault Refusal :=
  done s (if s.boot.powered then requestRestart { s with restart := { s.restart with rstLow := true } } 1 false else s)

/-- R385: RST_N_RELEASE. -/
def execRstNRelease (s : State) : Host.Outcome State Fault Refusal := done s { s with restart := { s.restart with rstLow := false } }

/-- R385: the watchdog's period in ns. -/
def dogNs (s : State) : Nat := 1000000 * max 1 (fget s Reg.GLB_WDOG Reg.GLB_WDOG_PERIOD)

/-- R385: WATCHDOG_EXPIRY: the period has passed without a kick. -/
def dogExpire (s : State) : State :=
  if fget s Reg.GLB_WDOG Reg.GLB_WDOG_EN = 1 ∧ s.boot.dogRun ∧ s.boot.dogAt + dogNs s ≤ s.up then
    requestRestart (report s srcWdog 0x75 0 (fget s Reg.GLB_WDOG Reg.GLB_WDOG_PERIOD)) 2 false
  else s

/-- R385: WATCHDOG_EXPIRY. -/
def execWatchdogExpiry (s : State) : Host.Outcome State Fault Refusal := done s (dogExpire s)

/-- R395: the cause of a software restart by its master. -/
def resetCause (m : Master) : Nat :=
  match m with
  | .hostA => 3
  | .hostB => 4
  | .sup => 5
  | .mnt => 6
  | .leg => 7

/-- R385: a write of GLB_RESET; with another KEY it is discarded and recorded. -/
def glbReset (s : State) (m : Master) (v : Nat) : State :=
  if bits v 16 16 ≠ 0x6512 then refuseWrite s m Reg.GLB_RESET
  else if bit v 0 then requestRestart s (resetCause m) (bit v 1)
  else s

/-- R395: a kick restarts the period. -/
def dogKick (s : State) (v : Nat) : State := if bit v 0 then { s with boot := { s.boot with dogAt := s.up } } else s

/-! ## The command-side reset and the load (R386, R387) -/

/-- R15: every register takes its W values. -/
def warmRegs (s : State) : State :=
  let f (e : Nat × BitVec 32) : Nat × BitVec 32 :=
    match findReg e.1 with
    | some row => (e.1, resetFields (·.w) row e.2)
    | none => e
  { s with regs := (s.regs.map f).filter (fun e => decide (e.2 ≠ resetWord e.1)) }

/-- R142: a self-test that a restart cuts off: its channel returns to its prior code. -/
def testsEnd (s : State) : State :=
  s.drv.tests.foldl (fun s e => match e.2 with
    | some x => slewTo (setTest s e.1 none) x.ch x.prior
    | none => s) s

/-- R90, R142, R166, R138: what the command-side reset takes away beside registers: lanes, self-tests, watch queues, written flags and
ownership, retirements that a verify asked for, messages, migrations (a failed core takes back no tile, R362), rounds. -/
def warmClear (s0 : State) : State :=
  let s := testsEnd { s0 with bel := { s0.bel with retireQ := s0.bel.retireQ.filter (fun x => !decide (x.2.1 = 3)) } }
  let drv := { s.drv with chans := s.drv.chans.filterMap (fun e =>
    let c : Chan := { e.2 with written := false, ownRel := false }
    if c = Chan.init then none else some (e.1, c)), tests := [] }
  let s1 := monWarm { s with drv := drv, trk := { s.trk with msgs := [], moving := none, migrate := [], posts := [] } }
  let s1 := s.trk.migrate.foldl (fun s x => fset (setTmap s x.1 0xFF) (Reg.TRK_STATUS x.2) Reg.TRK_STATUS_TILE 0xFF) s1
  let s2 := roundsDrop s1 (fun _ => true)
  { s2 with cal := { s2.cal with waits := [], asked := [] }, bel := { s2.bel with laneA := none, laneB := none, xcheckDue := false } }

/-- R245: the building tables are discarded. -/
def dropBuilding (s : State) : State :=
  let m := copyRange s.mem 0x940000 0x60000 s.mem 0x9A0000
  let s1 := { s with mem := m, cal := { s.cal with accs := [], ready := [] } }
  (List.range 96).foldl (fun s t => mset s (calS t + 4) 1 0) s1

/-- R27, R90: verifies are cut off; repair fires that have not fired are dropped and their re-routes wait. -/
def warmBells (s : State) : State :=
  let cut_ := (s.bel.bells.filter (fun b => decide (b.st = 6))).map (·.idx)
  let gone := s.bel.bells.filter (fun b => b.repair && decide (b.st < 6))
  let s1 := { s with bel := { s.bel with cutOff := s.bel.cutOff ++ cut_, reroutes := s.bel.reroutes ++ gone.flatMap (·.covers) },
                     cal := { s.cal with stopped := if gone.isEmpty then s.cal.stopped else [] } }
  gone.foldl (fun s b => dropBell (slotsFree s b.gen) b.idx) s1

/-- R386: the half that a restart loads: a half whose CRC fails is replaced by the other and recorded. -/
def loadedHalf (s : State) (staged : Bool) : State × StoreHalf :=
  let h := if staged then s.boot.h1 else s.boot.h0
  if h.ok then (s, h) else (report s srcBoot 0x73 (b2n staged) 0, if staged then s.boot.h0 else s.boot.h1)

/-- R194, R204, R223, R226: the stock tables, customer code and parameter blocks of a store half in every core and its tile. -/
def loadCode (s : State) (h : StoreHalf) : State :=
  let im := (List.range 101).foldl (fun m k => copyRange h.code 0 8192 m (65536 * k + 0x6000)) []
  let dm := (List.range 100).foldl (fun m k => cut m (65536 * k + 0x4240) 0x3DC0) s.trk.dmem
  let s1 := { s with trk := { s.trk with imem := im, dmem := dm }, hold := { s.hold with param := h.param } }
  (List.range 96).foldl (fun s t => { s with trk := { s.trk with ctx := copyRange h.param (64 * t) 64 s.trk.ctx (2 ^ 14 * t + 0x2040) } }) s1

/-- R225, R226: a core loaded and entered for the tile it serves. -/
def loadCore1 (s : State) (k t cause : Nat) : State :=
  let m1 := copyRange s.trk.ctx (2 ^ 14 * t) 16384 s.trk.dmem (65536 * k + 0x8000)
  kernelBlock (coreEnter { s with trk := { s.trk with dmem := copyRange s.hold.param (64 * t) 64 m1 (65536 * k + 0x700) } } k cause) k

/-- R15, R362: a core whose self-test fails stays failed; one that passes is in the pool unless it serves a tile. Both start anew, with the
restart's cause. -/
def coreTested (s : State) (k : Nat) (fails : Bool) (cause : Nat) : State :=
  let st := Reg.TRK_STATUS k
  let s1 := setCore s k { Core.init with cause := cause }
  if fails then fset (setCoreState s1 k 3) st Reg.TRK_STATUS_SPARE 0
  else if coreTile s k < 96 then s1
  else kernelBlock (fset (setCoreState s1 k 1) st Reg.TRK_STATUS_SPARE 1) k

/-- R362, R363: the tile of a core that failed, or one without a core, gets a spare. -/
def tileCore (s : State) (t : Nat) : State :=
  let bad := match coreFor s t with
    | some k => s.trk.unfitCores.contains k
    | none => true
  if !tileUsed (fm s) t ∨ !bad then s
  else
    let s1 := match coreFor s t with
      | some k => fset s (Reg.TRK_STATUS k) Reg.TRK_STATUS_TILE 0xFF
      | none => s
    match spareFor s1 with
    | some p => fset (fset (setTmap s1 t p) (Reg.TRK_STATUS p) Reg.TRK_STATUS_TILE t) (Reg.TRK_STATUS p) Reg.TRK_STATUS_SPARE 0
    | none => setTmap s1 t 0xFF

/-- R226, R362, R363: the self-tests, the tiles' cores, their entry and the rebuilt records. -/
def warmCores (s : State) (bad : List Nat) (cause : Nat) : State :=
  let s1 := { s with trk := { s.trk with unfitCores := bad } }
  let s2 := (List.range 100).foldl (fun s k => coreTested s k (bad.contains k) cause) s1
  let s3 := (List.range 96).foldl tileCore s2
  let s4 := (List.range 96).foldl (fun s t => match coreFor s t with
    | some k => loadCore1 s k t cause
    | none => s) s3
  (List.range 96).foldl (fun s t => if drvState s t = 4 ∧ (coreFor s t).isSome then rebuildTile s t false else s) s4

/-- R387, R388: WARM_RESTART: the command side is reset, the image store half is loaded and the cores are entered. It waits for RST_N
and for a die that is too hot; `selfTest` tells which cores fail. -/
def warmRestart (s : State) (selfTest : BitVec 100) : State :=
  match s.restart.asked with
  | none => s
  | some (cause, staged) =>
    if s.restart.rstLow ∨ dieHot s ∨ !s.boot.powered then s
    else
      let s0 := if s.restart.inWindow then s else restartBegin s
      let asleep := decide (pstate s0 ≠ 0)
      let s1 := bump16 (fset (warmRegs s0) Reg.GLB_RST_CAUSE Reg.GLB_RST_CAUSE_LAST cause)
      let s2 := report s1 srcGlb 0x76 cause (fget s1 Reg.GLB_RST_CAUSE Reg.GLB_RST_CAUSE_COUNT)
      let s3 := warmBells (dropBuilding (warmClear s2))
      let l := loadedHalf s3 staged
      let bad := (List.range 100).filter (fun k => bit selfTest.toNat k)
      let s4 := warmCores (loadCode l.1 l.2) bad 1
      let s5 := if asleep then fset (monResume s4) Reg.GLB_PSTATE Reg.GLB_PSTATE_EXIT 3 else s4
      { s5 with restart := { s5.restart with asked := none },
                boot := { s5.boot with dogAt := s5.up, dogRun := true, pstAt := none, pstWake := none } }
where
  /-- R395: COUNT saturates. -/
  bump16 (s : State) : State := fbump s Reg.GLB_RST_CAUSE Reg.GLB_RST_CAUSE_COUNT

/-- R387: WARM_RESTART. -/
def execWarmRestart (selfTest : BitVec 100) (s : State) : Host.Outcome State Fault Refusal := done s (warmRestart s selfTest)

/-- R364: a lane marked healthy. -/
def laneUp (s : State) (l : Nat) : State :=
  if laneOk s l then s
  else fset (rput s Reg.RTS_STATUS l true) Reg.BEL_STATUS Reg.BEL_STATUS_LANES (lanes s + 1)

/-- R364: LANE_SELF_TEST within the restart window. -/
def laneTest (s : State) (l : Nat) (pass : Bool) (diff : Nat) : State :=
  if !s.restart.inWindow ∨ s.restart.asked.isSome then s
  else if pass then laneUp s l
  else report (failLane s l) (srcRts l) 0x39 0x401 diff

/-- R364: LANE_SELF_TEST. -/
def execLaneSelfTest (l : Fin 2) (pass : Bool) (diff : BitVec 32) (s : State) : Host.Outcome State Fault Refusal :=
  done s (laneTest s l pass diff.toNat)

/-! ## The window's end (R90, R350) -/

/-- R112, R350: what the window's length moves: route checks, challenges, the lease. -/
def windowEnd (s : State) : State :=
  let len := s.now - s.restart.taiAt
  let later (c : Option (Nat × Nat)) : Option (Nat × Nat) := c.map (fun x => (x.1, x.2 + len))
  let d := s.dual
  { s with
    bel := { s.bel with checks := s.bel.checks.map (fun c => { c with deadline := c.deadline + len }) },
    dual := { d with chalA := later d.chalA, chalB := later d.chalB, nextChal := d.nextChal + (s.up - s.restart.upAt),
                     expiry := if d.holder.isSome then max d.expiry (s.now + 1000000 * q40) else d.expiry } }

/-- R90, R387: PIPELINE_RESUME: the pipeline runs; bells up to the first whose cut-off still lies ahead are skipped, intake resumes, the
re-routes are made. A PIC shut-down keeps the device out of service. -/
def pipelineResume (s : State) : State :=
  if !s.restart.inWindow ∨ s.restart.asked.isSome ∨ s.restart.rstLow then s
  else
    let s1 := fset (windowEnd s) Reg.THM_STATUS Reg.THM_STATUS_DIE_SHUT 0
    let pic := decide (fget s1 Reg.THM_STATUS Reg.THM_STATUS_PIC_SHUT = 1)
    let late := s1.bel.reroutes
    let s2 := { s1 with restart := { s1.restart with inWindow := false }, hif := { s1.hif with paused := pic },
                        bel := { s1.bel with skipTo := nowNs s1 + 12000, reroutes := [] } }
    reroute (serviceBack s2) (late.filter (isRetired s2))

/-- R90: PIPELINE_RESUME. -/
def execPipelineResume (s : State) : Host.Outcome State Fault Refusal := done s (pipelineResume s)

/-! ## Supplies (R421) -/

/-- R421: VDD_AUX_VALID: every PWM output is driven low. -/
def execVddAuxValid (s : State) : Host.Outcome State Fault Refusal :=
  done s { s with boot := { s.boot with auxValid := true }, pins := { s.pins with pwmLow := if s.boot.powered then s.pins.pwmLow else true } }

/-- R385, R421: SUPPLY_LOSS: the outputs go low and clamp, and everything but the flash is lost. -/
def supplyLoss (s : State) : State :=
  { State.reset with
    out := s.out, draws := s.draws, pins := { State.reset.pins with pwmLow := true, clamp := true },
    boot := { State.reset.boot with flash := s.boot.flash, flashSize := s.boot.flashSize, auxValid := s.boot.auxValid,
                                    wasRetired := if s.boot.powered then (List.range 6144).filter (isRetired s) else s.boot.wasRetired } }

/-- R421: SUPPLY_LOSS. -/
def execSupplyLoss (s : State) : Host.Outcome State Fault Refusal := done s (supplyLoss s)

end Sys2Proof.Machine
end

