-- ==== Sys2Proof/Machine/RegRead.lean ====
section
/-! DEFINITION. Reading the device address space (R10, R12, R14, R227, R396, R403, R404): registers as they read, SRAM windows, core
windows, and the DEFAULT target. -/

namespace Sys2Proof.Machine

/-- R352: HIF_DUAL_STATUS as it reads. -/
def dualStatusView (s : State) : BitVec 32 :=
  let held := (s.hif.fetched.filter (fun e => decide (e.hold = 2) && e.tIn.isNone)).length
  BitVec.ofNat 32 (role s 0 + 4 * role s 1 + 16 * holderCode s + 64 * b2n s.dual.overlapOpen + 128 * b2n s.dual.arm.isSome +
    256 * min 255 held)

/-- R352: HIF_LEASEk. -/
def leaseView (s : State) (k : Nat) : BitVec 32 :=
  if k = 0 then BitVec.ofNat 32 s.dual.epoch
  else if k = 1 then BitVec.ofNat 32 (s.dual.epoch / 2 ^ 32)
  else if s.dual.holder.isNone then 0
  else BitVec.ofNat 32 (min 0xFFFFFFFF ((s.dual.expiry - s.now) / (1000 * q40)))

/-- R85: BEL_STATUS.RECOMPUTE: an invalidated bell has not been staged again. -/
def recomputing (s : State) : Bool := s.bel.bells.any (fun b => b.inval && decide (b.st < 4))

/-- R110, R114: RTS_LOCKk. -/
def lockView (s : State) (k : Nat) : BitVec 32 :=
  BitVec.ofNat 32 ((List.range 32).foldl (fun n b => n + b2n (locked s (32 * k + b)) * 2 ^ b) 0)

/-- R356, R369: FLT_PENDk. -/
def pendView (s : State) (k : Nat) : BitVec 32 :=
  BitVec.ofNat 32 ((s.flt.slots.filter (fun e => decide (e.1 / 32 = k))).foldl (fun n e => n + 2 ^ (e.1 % 32)) 0)

/-- R114: RTS_STATUS as it reads. -/
def rtsStatusView (s : State) : BitVec 32 :=
  let w := setF (rget s Reg.RTS_STATUS) Reg.RTS_STATUS_LANE0_BUSY (b2n s.bel.laneA.isSome)
  let w2 := setF w Reg.RTS_STATUS_LANE1_BUSY (b2n s.bel.laneB.isSome)
  setF w2 Reg.RTS_STATUS_CHECK_BUSY (b2n (!s.bel.checks.isEmpty))

/-- R85, R92: BEL_STATUS as it reads; RECOMPUTE stays 1 after a warm restart until the bells it discarded are staged (notes/assumptions/90). -/
def belStatusView (s : State) : BitVec 32 :=
  setF (setF (rget s Reg.BEL_STATUS) Reg.BEL_STATUS_RECOMPUTE (b2n (recomputing s))) Reg.BEL_STATUS_PENDING (pendingBells s)

/-- R228: TRK_STATUS as it reads. -/
def trkStatusView (s : State) (k : Nat) : BitVec 32 :=
  setF (setF (rget s (Reg.TRK_STATUS k)) Reg.TRK_STATUS_LEVEL (coreOf s k).level) Reg.TRK_STATUS_CMODE (b2n (coreOf s k).cmode)

/-- R395: BOOT_JRNL as it reads. -/
def jrnlView (s : State) : BitVec 32 :=
  setF (rget s Reg.BOOT_JRNL) Reg.BOOT_JRNL_AGE (match s.boot.jLast with
    | some t => min 0xFFFFFF ((s.up - t) / 1000000000)
    | none => 0xFFFFFF)

/-- R283, R300: the holdover registers while it lasts. -/
def hoView (s : State) : BitVec 32 :=
  if servo s = 5 then setF (rget s Reg.TMU_HO) Reg.TMU_HO_HO_SEC (hoSec s) else rget s Reg.TMU_HO
def hoErrView (s : State) : BitVec 32 :=
  if servo s = 5 then BitVec.ofNat 32 (hoErr s) else rget s Reg.TMU_HO_ERR

/-- R228: the TRK registers that follow the core. -/
def trkView (s : State) (a : Nat) : BitVec 32 :=
  let k := (a - 0x300000) / 0x4000
  let o := a % 0x4000
  if o = 4 then trkStatusView s k
  else if o = 0xC then BitVec.ofNat 32 (pcOf s k)
  else if o = 0x10 then BitVec.ofNat 32 (cstOf s k)
  else if o = 0x18 then BitVec.ofNat 32 (pendOf s k)
  else rget s a

/-- R143: the DRV registers that follow the drive. -/
def drvView (s : State) (a : Nat) : BitVec 32 :=
  let t := (a - 0x100000) / 0x1000
  let o := a % 0x1000
  if o = 4 then drvStatusView s t
  else if 0x600 ≤ o ∧ o < 0x800 then chStatView s (128 * t + (o - 0x600) / 4)
  else rget s a

/-- R12: a register as it reads to a master; a register whose value hardware computes is computed. -/
def regView (s : State) (m : Master) (a : Nat) : BitVec 32 :=
  if 0x100000 ≤ a ∧ a < 0x160000 then drvView s a
  else if 0x300000 ≤ a ∧ a < 0x490000 then trkView s a
  else if a = Reg.BEL_STATUS then belStatusView s
  else if a = Reg.RTS_STATUS then rtsStatusView s
  else if Reg.RTS_LOCK 0 ≤ a ∧ a ≤ Reg.RTS_LOCK 31 then lockView s ((a - Reg.RTS_LOCK 0) / 4)
  else if a = Reg.CAL_STATUS then calStatusView s
  else if a = Reg.PWR_STATUS then setF (rget s a) Reg.PWR_STATUS_KICK_STATE (kickState s)
  else if Reg.TMU_NOW 0 ≤ a ∧ a ≤ Reg.TMU_NOW 3 then nowWord s m ((a - Reg.TMU_NOW 0) / 4)
  else if a = Reg.TMU_EPOCH then setF (rget s a) Reg.TMU_EPOCH_EPOCH (secOf s.now / 2 ^ 48)
  else if a = Reg.TMU_HO then hoView s
  else if a = Reg.TMU_HO_ERR then hoErrView s
  else if a = Reg.HIF_DUAL_STATUS then dualStatusView s
  else if Reg.HIF_LEASE 0 ≤ a ∧ a ≤ Reg.HIF_LEASE 2 then leaseView s ((a - Reg.HIF_LEASE 0) / 4)
  else if a = Reg.FLT_STATUS then setF (rget s a) Reg.FLT_STATUS_OPEN s.flt.slots.length
  else if Reg.FLT_PEND 0 ≤ a ∧ a ≤ Reg.FLT_PEND 10 then pendView s ((a - Reg.FLT_PEND 0) / 4)
  else if a = Reg.BOOT_JRNL then jrnlView s
  else rget s a

/-- R403: an SRAM window: its range. Bytes that no unit owns read 0 (R404). -/
def inSram (a : Nat) : Bool := decide (0x800000 ≤ a)

/-- R227: the address in a core's memories that a window offset shows: instruction memory, then data memory. -/
def trkImemAt (s : State) (k o : Nat) : Nat := 0x1000 * fget s (Reg.TRK_PAGE k) Reg.TRK_PAGE_IPAGE + (o - 0x1000)
def trkDmemAt (s : State) (k o : Nat) : Nat := 0x2000 * fget s (Reg.TRK_PAGE k) Reg.TRK_PAGE_DPAGE + (o - 0x2000)

/-- R204, R226: `n` bytes of a core's instruction memory: the stock kernel's words once they are loaded, customer code above. -/
def imemAt (s : State) (k a n : Nat) : Nat :=
  if a < 0x6000 then
    (if stockLoaded s k then (List.range n).foldl (fun v j => v + (Config.stockCode (a + j)).toNat * 256 ^ j) 0 else 0)
  else rd s.trk.imem (65536 * k + a) n

/-- R202, R227: a word of a core's window. -/
def trkWindow (s : State) (k o : Nat) : State × BitVec 32 :=
  if o < 0x2000 then
    (s, BitVec.ofNat 32 (imemAt s k (trkImemAt s k o) 4))
  else (extAccess s k, BitVec.ofNat 32 (dget s k (trkDmemAt s k o) 4))

/-- R404: an access that the DEFAULT target takes: latched unless one is latched, and counted. -/
def defaultLatch (s : State) (m : Master) (a : Nat) (wr : Bool) : State :=
  let s1 := bump s (Reg.XBR_CNT (b2n wr))
  if fget s1 Reg.XBR_ERR Reg.XBR_ERR_VALID = 1 then s1
  else rset (rset s1 Reg.XBR_ERR (BitVec.ofNat 32 (masterId m + 16 * b2n wr + 2 ^ 31))) Reg.XBR_ERR_ADDR (BitVec.ofNat 32 a)

/-- R404: the error response as its master sees it. -/
def defaultAnswer (s : State) (m : Master) (wr : Bool) : State :=
  match m with
  | .sup => emit s (.supFault wr)
  | .mnt => { s with mnt := { s.mnt with err := true } }
  | .hostA | .hostB | .leg => s

/-- R382, R406: with no image booted, the hosts and the SPI port reach GLB, BOOT and FLT only. -/
def romBlocks (s : State) (m : Master) (a : Nat) : Bool :=
  romOnly s && decide (m ≠ .mnt ∧ m ≠ .sup) && !(decide (a < 0x010000) || decide (a / 0x10000 = 0x09) || decide (a / 0x10000 = 0x0C))

/-- R402, R403, R404: a word read by a master. -/
def busRead (s : State) (m : Master) (a0 : Nat) : State × BitVec 32 :=
  let a := a0 / 4 * 4
  if !inTarget a then (defaultAnswer (defaultLatch s m a false) m false, 0xFFFFFFFF)
  else if romBlocks s m a then (s, 0)
  else if inSram a then (s, if sramHas s a then BitVec.ofNat 32 (mget s a 4) else 0)
  else if 0x300000 ≤ a ∧ 0x1000 ≤ a % 0x4000 then trkWindow s ((a - 0x300000) / 0x4000) (a % 0x4000)
  else if a = Reg.TMU_NOW 0 then
    let s1 := captureNow s m
    (s1, regView s1 m a)
  else if 0x100000 ≤ a ∧ a < 0x160000 ∧ a % 0x1000 = 0x24 then slotDataRead s ((a - 0x100000) / 0x1000)
  else match findReg a with
    | some _ => (s, regView s m a)
    | none => (s, 0)

/-- R10: the selected bytes of a word; the others are not returned. -/
def selected (w : BitVec 32) (be : BitVec 4) : BitVec 32 :=
  BitVec.ofNat 32 ((List.range 4).foldl (fun v j => if bit be.toNat j then v + bits w.toNat (8 * j) 8 * 256 ^ j else v) 0)

/-- R10: a read under byte enables answered to its master. -/
def readAnswer (s : State) (m : Master) (a : Nat) (be : BitVec 4) : State :=
  let r := busRead s m a
  emit r.1 (.data m (selected r.2 be))

/-- R273: TMU_NOW_CAPTURE: a read of TMU_NOW0 by a master. -/
def execTmuNowCapture (m : Master) (be : BitVec 4) (s : State) : Host.Outcome State Fault Refusal :=
  done s (readAnswer s m (Reg.TMU_NOW 0) be)

/-- R143: DRV_SLOT_DATA: a read by a master. -/
def execDrvSlotData (m : Master) (t : Fin 96) (be : BitVec 4) (s : State) : Host.Outcome State Fault Refusal :=
  done s (readAnswer s m (Reg.DRV_SLOT_DATA t) be)

end Sys2Proof.Machine
end

