-- ==== Sys2Proof/Machine/RegWrite.lean ====
section
/-! DEFINITION. Writing the device address space (R10, R12, R14, R227, R308, R314, R331, R336, R382, R396, R403 to R405): protection,
what the write of each register does, and the commands that are writes. -/

namespace Sys2Proof.Machine

/-! ## Protection -/

/-- The host port that a master's access belongs to. -/
def masterPort (s : State) (m : Master) : Option Nat :=
  match m with
  | .hostA => some 0
  | .hostB => some 1
  | .leg => some (fget s Reg.LEG_CTRL Reg.LEG_CTRL_AS)
  | .sup | .mnt => none

/-- R336: who may write HIF_DUAL_CTRL, HIF_PRECEDENCE and HIF_DUAL_CMD: the maintenance port and an ACTIVE host, also through the SPI
port. -/
def mayDual (s : State) (m : Master) : Bool :=
  match masterPort s m with
  | some p => decide (role s p = 0)
  | none => decide (m = .mnt)

/-- R308: a host writes neither registers nor the table of the other port. -/
def otherPort (m : Master) (a : Nat) : Bool :=
  match m with
  | .hostA => decide (0x014000 ≤ a ∧ a < 0x018000)
  | .hostB => decide (0x010000 ≤ a ∧ a < 0x014000)
  | .sup | .mnt | .leg => false

/-- R308, R336, R405: a write that a rule discards for who sends it. -/
def protects (s : State) (m : Master) (a : Nat) : Bool :=
  otherPort m a ||
  (decide (a = Reg.HIF_DUAL_CTRL ∨ a = Reg.HIF_PRECEDENCE ∨ a = Reg.HIF_DUAL_CMD) && !mayDual s m) ||
  (decide (a = Reg.XBR_CTRL) && decide (m ≠ .sup))

/-! ## Core windows (R227) -/

/-- R193, R227: the data memory that a host may write: parameter block, exchange area, customer data, BAND_OV and GAIN_OV. -/
def trkMayWrite (d : Nat) : Bool :=
  decide (0x680 ≤ d ∧ d < 0x740) || decide (0xC000 ≤ d ∧ d < 0x10000)

/-- R193: the word of a cell record that holds BAND_OV (byte 8) and GAIN_OV (byte 9). -/
def ovWord (d : Nat) : Bool := decide (0x800 ≤ d ∧ d < 0x1000 ∧ d % 32 = 8)

/-- R194, R202, R211, R227: a word of data memory written by the host; a change of COMMIT is a HOST request. -/
def dmemWrite (s : State) (k d n v : Nat) : State :=
  let s1 := dput (extAccess s k) k d n v
  if d = 0x700 ∧ dget s k 0x700 4 ≠ dget s1 k 0x700 4 then pendLevel s1 k 8 else s1

/-- R227: a write to a core's window; of the word with BAND_OV and GAIN_OV only these bytes change. -/
def trkWindowWrite (s : State) (m : Master) (a v : Nat) : State :=
  let k := (a - 0x300000) / 0x4000
  let o := a % 0x4000
  if o < 0x2000 then
    let i := trkImemAt s k o
    if 0x6000 ≤ i ∧ fget s (Reg.TRK_CTRL k) Reg.TRK_CTRL_HOOK_EN = 0 then
      { s with trk := { s.trk with imem := wr s.trk.imem (65536 * k + i) 4 v } }
    else refuseWrite s m a
  else
    let d := trkDmemAt s k o
    if trkMayWrite d then dmemWrite s k d 4 v
    else if ovWord d then dmemWrite s k d 2 (v % 65536)
    else refuseWrite s m a

/-- R220, R222, R228: a write of TRK_CTRL: the kernel copies the hook mask; 1 clears HOOK_OFF, and hooks go on once 0 was written before. -/
def hookWrite (s : State) (k v : Nat) : State :=
  let s0 := hookMask (plainWrite s (Reg.TRK_CTRL k) v) k
  let c := coreOf s0 k
  let n := if bit v 0 then (if c.hookStop = 2 then 0 else c.hookStop) else if c.hookStop = 1 then 2 else c.hookStop
  let s1 := setCore s0 k { c with hookStop := n }
  if bit v 0 then fset s1 (Reg.TRK_STATUS k) Reg.TRK_STATUS_HOOK_OFF 0 else s1

/-! ## Rings (R314) -/

/-- R314: settings other than EN are discarded while the ring is enabled or owes records: ERR = 4 and a record. -/
def ringLocked (s : State) (p r : Nat) : Bool :=
  decide (fget s (Reg.HIF_RING_CFG p r) Reg.HIF_RING_CFG_EN = 1) || decide (owed s (16 * p + r) ≠ 0)

def ringRefuse (s : State) (m : Master) (p r a : Nat) : State :=
  regradeAll (fset (refuseWrite s m a) (Reg.HIF_RING_STAT p r) Reg.HIF_RING_STAT_ERR 4)

/-- R314: EN is set: pointers, phase and error start anew. -/
def ringStart (s : State) (p r : Nat) : State :=
  let st := Reg.HIF_RING_STAT p r
  let c := Reg.HIF_RING_CQT p r
  let s1 := fset (fset s st Reg.HIF_RING_STAT_HEAD 0) st Reg.HIF_RING_STAT_ERR 0
  let s2 := fset (fset (fset s1 c Reg.HIF_RING_CQT_TAIL 0) c Reg.HIF_RING_CQT_HEAD 0) c Reg.HIF_RING_CQT_PHASE 1
  let s3 := setRing s2 (16 * p + r) { (ringOf s2 (16 * p + r)) with tail := 0, doors := [] }
  regradeAll (depthNote (fset s3 (Reg.HIF_RING_CFG p r) Reg.HIF_RING_CFG_EN 1) (16 * p + r))

/-- R314: a write of HIF_RINGr_CFG: the other fields first, then EN. -/
def ringCfgWrite (s : State) (m : Master) (p r v : Nat) : State :=
  let a := Reg.HIF_RING_CFG p r
  let en := fget s a Reg.HIF_RING_CFG_EN
  let next := fget (plainWrite s a v) a
  let same := [Reg.HIF_RING_CFG_FMT, Reg.HIF_RING_CFG_CLASS, Reg.HIF_RING_CFG_SQ_SIZE, Reg.HIF_RING_CFG_CQ_SIZE, Reg.HIF_RING_CFG_BATCH,
    Reg.HIF_RING_CFG_VEC, Reg.HIF_RING_CFG_WEIGHT].all (fun f => decide (next f = fget s a f))
  let s1 := if same then s
    else if ringLocked s p r then ringRefuse s m p r a
    else fset (plainWrite s a v) a Reg.HIF_RING_CFG_EN en
  if bit v 0 ∧ en = 0 then ringStart s1 p r else fset s1 a Reg.HIF_RING_CFG_EN (v % 2)

/-- R314: a write of a ring's address words. -/
def ringAddrWrite (s : State) (m : Master) (p r a v : Nat) : State :=
  if ringLocked s p r then ringRefuse s m p r a else plainWrite s a v

/-- R326: the MAX fields of a port's rings cleared. -/
def ringMaxClear (s : State) (p : Nat) : State :=
  (List.range 16).foldl (fun s r =>
    fset (fset s (Reg.HIF_RING_DLY p r) Reg.HIF_RING_DLY_MAX 0) (Reg.HIF_RING_DEPTH p r) Reg.HIF_RING_DEPTH_MAX 0) s

/-- R326, R332: a write of HIF_PCNT_CLR. R349's base of dropped records starts anew with the counters. -/
def pcntClear (s : State) (p v : Nat) : State :=
  let s1 := if bit v 0 then
      (let c := clearRegs s (Reg.HIF_PCNT p 0) 8
       if p = 0 then { c with dual := { c.dual with npBaseA := 0 } } else { c with dual := { c.dual with npBaseB := 0 } })
    else s
  if bit v 1 then ringMaxClear s1 p else s1

/-- R332: a write to a port's registers. -/
def hifWrite (s : State) (m : Master) (a v : Nat) : State :=
  let p := (a - 0x010000) / 0x4000
  let o := (a - 0x010000) % 0x4000
  if o = 0x60 then pcntClear s p v
  else if 0x100 ≤ o ∧ o < 0x500 then
    let r := (o - 0x100) / 0x40
    let w := o % 0x40
    if w < 0x10 then ringAddrWrite s m p r a v
    else if w = 0x10 then ringCfgWrite s m p r v
    else plainWrite s a v
  else if 0x2000 ≤ o ∧ o < 0x2400 then msixRelease (plainWrite s a v) p
  else if o = 8 ∨ o = 0xC then
    let s1 := plainWrite s a v
    if fget s (Reg.HIF_SBLK_LO p) Reg.HIF_SBLK_LO_EN = 0 then sblkTouch s1 p else s1
  else plainWrite s a v

/-! ## Halt, dual host, meters -/

/-- R325: HIF_HALT.BY by its writer. -/
def haltBy (m : Master) : Nat :=
  match m with
  | .hostA => 0
  | .hostB => 1
  | .mnt => 2
  | .sup => 4
  | .leg => 5

/-- R325: a write of HIF_HALT. -/
def haltWrite (s : State) (m : Master) (v : Nat) : State := if bit v 0 then haltOn s (haltBy m) else haltOff s (haltBy m)

/-- R335: a write of HIF_DUAL_CTRL; a change of MODE acts. -/
def dualCtrlWrite (s : State) (v : Nat) : State :=
  let s1 := plainWrite s Reg.HIF_DUAL_CTRL v
  if dualMode s1 = dualMode s then s1 else modeChanged s1

/-- R334: a write to the dual-host block. -/
def dualWrite (s : State) (a v : Nat) : State :=
  if a = Reg.HIF_DUAL_CTRL then dualCtrlWrite s v
  else if a = Reg.HIF_PRECEDENCE then regradeAll (advanceAll (plainWrite s a v))
  else if a = Reg.HIF_DUAL_CMD then dualCmd s v
  else plainWrite s a v

/-- R324: a write of a meter's rate fills both buckets. -/
def meterRate (s : State) (i a v : Nat) : State :=
  let s1 := plainWrite s a v
  setRing s1 i { (ringOf s1 i) with bc := (mtrBurst s1 i).1 * mtrOne, bp := (mtrBurst s1 i).2 * mtrOne, met := s1.up }

/-- R333: a write to ISC. -/
def iscWrite (s : State) (a v : Nat) : State :=
  if a = Reg.ISC_CNT_CLR then (if bit v 0 then (List.range 33).foldl (fun s i => clearRegs s (Reg.ISC_MTR_G i 0) 3) s else s)
  else if a % 0x20 = 0 ∧ a ≠ Reg.ISC_MTR_RATE 0 ∧ a ≠ Reg.ISC_MTR_RATE 16 ∧ 0x020100 ≤ a then meterRate s ((a - 0x020100) / 0x20) a v
  else plainWrite s a v

/-! ## Counter clears (R366) -/

/-- A counter block cleared by a write of 1. -/
def cntClear (s : State) (base n v : Nat) : State := if bit v 0 then clearRegs s base n else s

/-- R92: a write of BEL_CNT_CLR. -/
def belCntClear (s : State) (v : Nat) : State :=
  let s1 := cntClear s (Reg.BEL_INVAL 0) 7 v
  let s2 := cntClear s1 (Reg.BEL_REFUSE 0) 10 (v / 2)
  cntClear s2 (Reg.BEL_OUTCOME 0) 4 (v / 4)

/-! ## Blocks -/

/-- R92: a write to BEL. -/
def belWrite (s : State) (a v : Nat) : State :=
  if a = Reg.BEL_SPACING then
    spacingUpdate (fset s a Reg.BEL_SPACING_BASE (max 200 (v % 65536)))
  else if a = Reg.BEL_KICK then
    let s1 := plainWrite s a v
    let pc := fget s1 a Reg.BEL_KICK_P_CELL
    let ec := fget s1 a Reg.BEL_KICK_E_CELL
    { s1 with bel := { s1.bel with bells := s1.bel.bells.map (fun b => { b with pCell := min b.pCell pc, eCell := min b.eCell ec }) } }
  else if a = Reg.BEL_CNT_CLR then belCntClear s v
  else plainWrite s a v

/-- R114: a write to RTS. -/
def rtsWrite (s : State) (a v : Nat) : State :=
  if a = Reg.RTS_CNT_CLR then cntClear s (Reg.RTS_CNT 0) 10 v else plainWrite s a v

/-- R143: a write to a tile's DRV block. -/
def drvWrite (s : State) (m : Master) (a v : Nat) : State :=
  let t := (a - 0x100000) / 0x1000
  let o := a % 0x1000
  if o = 0 then (let s1 := drvCtrlWrite s t v
                 afterRelease s s1 t)
  else if o = 0x14 then slewWrite s t v
  else if o = 0x1C then loadWrite s t v
  else if o = 0x28 then drvTestWrite s t v
  else if 0x40 ≤ o ∧ o < 0x50 then faultWrite s t ((o - 0x40) / 4) v
  else if o = 0xB0 then cntClear s (Reg.DRV_CNT t 0) 10 v
  else if 0x400 ≤ o ∧ o < 0x600 then pendHost s m (128 * t + (o - 0x400) / 4) v
  else plainWrite s a v

/-- R167: a write to a tile's MON block. -/
def monWrite (s : State) (a v : Nat) : State :=
  let t := (a - 0x200000) / 0x1000
  let o := a % 0x1000
  if o = 0 then monCtrlWrite s t v
  else if o = 0x14 then diagWrite s t v
  else if 0x40 ≤ o ∧ o < 0x50 then exitWrite s t ((o - 0x40) / 4) v
  else if o = 0xA0 then cntClear s (Reg.MON_CNT t 0) 8 v
  else if 0x400 ≤ o ∧ o < 0x600 then inCfgWrite s (128 * t + (o - 0x400) / 4) v
  else if 0x600 ≤ o ∧ o < 0x800 then winSet s (128 * t + (o - 0x600) / 4) (bits v 0 12) (bits v 16 12)
  else plainWrite s a v

/-- R228: a write to a core's registers. -/
def trkWrite (s : State) (a v : Nat) : State :=
  let k := (a - 0x300000) / 0x4000
  let o := a % 0x4000
  if o = 0 then hookWrite s k v
  else if o = 0x10 then cstClear s k (v ^^^ 0xFFFFFFFF)
  else if o = 0x60 then cntClear s (Reg.TRK_CNT k 0) 8 v
  else plainWrite s a v

/-- R168, R247: a write to CAL. -/
def calWrite (s : State) (a v : Nat) : State :=
  if a = Reg.CAL_ADC_CMD then adcCalWrite s v
  else if a = Reg.CAL_CNT_CLR then cntClear s (Reg.CAL_CNT 0) 8 v
  else plainWrite s a v

/-- R271: a write to a PWM channel. -/
def pwmWrite (s : State) (m : Master) (a v : Nat) : State :=
  let n := (a - 0x070100) / 0x20
  let o := a % 0x20
  if o = 4 then pwmValueWrite s m n v true
  else if o = 8 then pwmValueWrite s m n v false
  else if o = 0x10 then pwmCommit s n v
  else if o = 0x14 then pwmStatWrite s n v
  else plainWrite s a v

/-- R271: a write to PWR. -/
def pwrWrite (s : State) (m : Master) (a v : Nat) : State :=
  if 0x070100 ≤ a ∧ a < 0x070400 then pwmWrite s m a v
  else if 0x070040 ≤ a ∧ a < 0x070090 then
    let k := (a - 0x070040) / 0x10
    let o := a % 0x10
    if o = 0 then railCfgWrite s k v
    else if o = 4 then (if k < 4 then railTgtWrite s m k v else s)
    else if o = 0xC then railRestart s k v
    else plainWrite s a v
  else if a = Reg.PWR_KICK ∨ a = Reg.PWR_KICK2 then kickWrite s m a v
  else if a = Reg.PWR_HP ∨ a = Reg.PWR_POOL ∨ a = Reg.PWR_ENERGY ∨ a = Reg.PWR_STAND then limitWrite s a v
  else if a = Reg.PWR_CNT_CLR then cntClear s (Reg.PWR_CNT 0) 8 v
  else plainWrite s a v

/-- R277, R300: a write of PPS_INm's settings: a disabled input is lost as a source. -/
def ppsCfgWrite (s : State) (k v : Nat) : State :=
  let s1 := plainWrite s (Reg.TMU_PPS_CFG k) v
  if fget s1 (Reg.TMU_PPS_CFG k) Reg.TMU_PPS_CFG_EN = 1 then s1
  else srcLost { s1 with tmu := { s1.tmu with ppsAt := tdel s1.tmu.ppsAt k } } (4 + k)

/-- R279: a write of TMU_SYNCE: another frequency source starts unqualified. -/
def synceWrite (s : State) (v : Nat) : State :=
  let s1 := plainWrite s Reg.TMU_SYNCE v
  synceEval (if fsrcPort s1 = fsrcPort s then s1 else { s1 with tmu := { s1.tmu with esmcAt := none } })

/-- R300: a write to TMU. -/
def tmuWrite (s : State) (a v : Nat) : State :=
  if a = Reg.TMU_CMD then tmuCmd s v
  else if a = Reg.TMU_CTRL ∨ a = Reg.TMU_SRC_PRIO then reselect (plainWrite s a v)
  else if a = Reg.TMU_SYNCE then synceWrite s v
  else if a = Reg.TMU_PPS_CFG 0 then ppsCfgWrite s 0 v
  else if a = Reg.TMU_PPS_CFG 1 then ppsCfgWrite s 1 v
  else if a = Reg.TMU_PPS_SEC 0 ∨ a = Reg.TMU_PPS_SEC 1 then
    let s1 := plainWrite s a v
    { s1 with tmu := { s1.tmu with ppsSecW := ((a - Reg.TMU_PPS_SEC 0) / 4 :: s1.tmu.ppsSecW).eraseDups } }
  else if a = Reg.TMU_CNT_CLR then cntClear s (Reg.TMU_CNT 0) 8 v
  else plainWrite s a v

/-- R289, R301: a write of ETH_CTRL: a port that is disabled or changes its mode loses its link. -/
def ethCtrlWrite (s : State) (e v : Nat) : State :=
  let a := Reg.ETH_CTRL e
  let s1 := plainWrite s a v
  let down := decide (fget s a Reg.ETH_CTRL_EN = 1) &&
    (decide (fget s1 a Reg.ETH_CTRL_EN = 0) || decide (fget s1 a Reg.ETH_CTRL_MODE ≠ fget s a Reg.ETH_CTRL_MODE))
  ptpConfigureAll (if down then ethDown s1 e else s1)

/-- R301: a write to ETH; ETH_PTP_GLB and ETH_PTP_CFG come into force at the next Announce interval. -/
def ethWrite (s : State) (a v : Nat) : State :=
  let e := (a - 0x040000) / 0x1000
  let o := a % 0x1000
  if a = Reg.ETH_PTP_GLB then plainWrite s a v
  else if o = 0 then ethCtrlWrite s e v
  else if o = 0xC0 then cntClear s (Reg.ETH_CNT e 0) 12 v
  else plainWrite s a v

/-- R369: a write to FLT. -/
def fltWrite (s : State) (a v : Nat) : State :=
  if Reg.FLT_FORCE 0 ≤ a ∧ a ≤ Reg.FLT_FORCE 10 then forceWrite s ((a - Reg.FLT_FORCE 0) / 4) v
  else if a = Reg.FLT_CNT_CLR then cntClear s (Reg.FLT_CNT 0) 8 v
  else plainWrite s a v

/-- R378: a write to THM. -/
def thmWrite (s : State) (m : Master) (a v : Nat) : State :=
  if a = Reg.THM_DIE_THR ∨ a = Reg.THM_PIC_THR then thrWrite s m a v
  else if a = Reg.THM_SPACE then spacingUpdate (plainWrite s a v)
  else if a = Reg.THM_CNT_CLR then cntClear s (Reg.THM_CNT 0) 6 v
  else plainWrite s a v

/-- R395: a write of GLB_WDOG: the period starts when the watchdog is enabled. -/
def dogWrite (s : State) (v : Nat) : State :=
  let off := decide (fget s Reg.GLB_WDOG Reg.GLB_WDOG_EN = 0)
  let s1 := plainWrite s Reg.GLB_WDOG v
  if off ∧ fget s1 Reg.GLB_WDOG Reg.GLB_WDOG_EN = 1 then { s1 with boot := { s1.boot with dogAt := s1.up } } else s1

/-- R395: a write to GLB. -/
def glbWrite (s : State) (m : Master) (a v : Nat) : State :=
  if a = Reg.GLB_RESET then glbReset s m v
  else if a = Reg.GLB_WDOG then dogWrite s v
  else if a = Reg.GLB_WDOG_KICK then dogKick s v
  else if a = Reg.GLB_PSTATE then pstateWrite s v
  else plainWrite s a v

/-- R395: a write to BOOT. -/
def bootWrite (s : State) (a v : Nat) : State :=
  if a = Reg.BOOT_CMD then bootCmd s v
  else if a = Reg.BOOT_PROG then progWrite s v
  else plainWrite s a v

/-- R407: a write to XBR. -/
def xbrWrite (s : State) (a v : Nat) : State :=
  if a = Reg.XBR_CNT_CLR then cntClear s (Reg.XBR_CNT 0) 4 v else plainWrite s a v

/-- R12: what a permitted full-word write of a register does. -/
def regWrite (s : State) (m : Master) (a v : Nat) : State :=
  if 0x100000 ≤ a then
    if a < 0x160000 then drvWrite s m a v
    else if a < 0x260000 then monWrite s a v
    else trkWrite s a v
  else if a < 0x010000 then glbWrite s m a v
  else if a < 0x018000 then hifWrite s m a v
  else if a = Reg.HIF_HALT then haltWrite s m v
  else if a < 0x020000 then dualWrite s a v
  else if a < 0x030000 then iscWrite s a v
  else if a < 0x040000 then tmuWrite s a v
  else if a < 0x050000 then ethWrite s a v
  else if a < 0x060000 then belWrite s a v
  else if a < 0x070000 then rtsWrite s a v
  else if a < 0x080000 then pwrWrite s m a v
  else if a < 0x090000 then thmWrite s m a v
  else if a < 0x0A0000 then fltWrite s a v
  else if a < 0x0B0000 then calWrite s a v
  else if a < 0x0C0000 then xbrWrite s a v
  else if a < 0x0D0000 then bootWrite s a v
  else plainWrite s a v

/-- R404: a write that the DEFAULT target takes. -/
def defaultWrite (s : State) (m : Master) (a : Nat) : State :=
  defaultAnswer (refuseWrite (defaultLatch s m a true) m a) m true

/-- R10, R331, R402 to R404: a word written by a master under byte enables; the SPI port writes only with LEG_CTRL.WR_EN (notes/assumptions/102). -/
def busWrite (s : State) (m : Master) (a0 v be : Nat) : State :=
  let a := a0 / 4 * 4
  if m = .leg ∧ fget s Reg.LEG_CTRL Reg.LEG_CTRL_WR_EN = 0 then refuseWrite s m a
  else if !inTarget a then defaultWrite s m a
  else if be ≠ 15 then report s (owner a) 0x01 a (requester m)
  else if romBlocks s m a ∨ inSram a then refuseWrite s m a
  else if 0x300000 ≤ a ∧ 0x1000 ≤ a % 0x4000 then trkWindowWrite s m a v
  else if (findReg a).isNone ∨ protects s m a then refuseWrite s m a
  else regWrite s m a v

end Sys2Proof.Machine
end

