-- ==== Sys2Proof/Machine/WriteRows.lean ====
section
/-! DEFINITION. The commands that are writes of one register by a master: each writes its whole word. -/

namespace Sys2Proof.Machine

/-- R10: REGISTER_WRITE: a write to a register without its own row, with its byte enables. -/
def execRegisterWrite (m : Master) (a : BitVec 24) (v : BitVec 32) (be : BitVec 4) (s : State) : Host.Outcome State Fault Refusal :=
  done s (busWrite s m a.toNat v.toNat be.toNat)

/-- R404: DEFAULT_TARGET_ACCESS: no effect on an address inside a target range. -/
def defaultAccess (s : State) (m : Master) (a : Nat) (wr : Bool) : State :=
  if inTarget a then s
  else if wr then defaultWrite s m a
  else
    let s1 := defaultAnswer (defaultLatch s m a false) m false
    if m = .sup then s1 else emit s1 (.data m 0xFFFFFFFF)

/-- R404: DEFAULT_TARGET_ACCESS. -/
def execDefaultTargetAccess (m : Master) (a : BitVec 24) (wr : Bool) (s : State) : Host.Outcome State Fault Refusal :=
  done s (defaultAccess s m (a.toNat / 4 * 4) wr)

/-- R269: the register of a broker limit. -/
def limitReg (r : LimitReg) : Nat :=
  match r with
  | .hp => Reg.PWR_HP
  | .pool => Reg.PWR_POOL
  | .energy => Reg.PWR_ENERGY
  | .stand => Reg.PWR_STAND

/-- R269: BROKER_LIMIT_WRITE. -/
def execBrokerLimitWrite (m : Master) (r : LimitReg) (v : BitVec 32) (s : State) : Host.Outcome State Fault Refusal :=
  done s (busWrite s m (limitReg r) v.toNat 15)

/-- R335: MODE_WRITE. -/
def execModeWrite (m : Master) (v : BitVec 32) (s : State) : Host.Outcome State Fault Refusal :=
  done s (busWrite s m Reg.HIF_DUAL_CTRL v.toNat 15)

/-- R341: PROMOTE. -/
def execPromote (m : Master) (v : BitVec 32) (s : State) : Host.Outcome State Fault Refusal :=
  done s (busWrite s m Reg.HIF_DUAL_CMD v.toNat 15)

/-- R352: CARD_CLR. -/
def execCardClr (m : Master) (v : BitVec 32) (s : State) : Host.Outcome State Fault Refusal :=
  done s (busWrite s m Reg.HIF_DUAL_CMD v.toNat 15)

/-- R325: HIF_HALT. -/
def execHifHalt (m : Master) (v : BitVec 32) (s : State) : Host.Outcome State Fault Refusal :=
  done s (busWrite s m Reg.HIF_HALT v.toNat 15)

/-- R314: RING_EN_SET. -/
def execRingEnSet (m : Master) (p : Fin 2) (r : Fin 16) (v : BitVec 32) (s : State) : Host.Outcome State Fault Refusal :=
  done s (busWrite s m (Reg.HIF_RING_CFG p r) v.toNat 15)

/-- R314: RING_EN_CLEAR. -/
def execRingEnClear (m : Master) (p : Fin 2) (r : Fin 16) (v : BitVec 32) (s : State) : Host.Outcome State Fault Refusal :=
  done s (busWrite s m (Reg.HIF_RING_CFG p r) v.toNat 15)

/-- R332: HIF_PCNT_CLR. -/
def execHifPcntClr (m : Master) (p : Fin 2) (v : BitVec 32) (s : State) : Host.Outcome State Fault Refusal :=
  done s (busWrite s m (Reg.HIF_PCNT_CLR p) v.toNat 15)

/-- R326: HIF_PCNT_CLR_RING. -/
def execHifPcntClrRing (m : Master) (p : Fin 2) (v : BitVec 32) (s : State) : Host.Outcome State Fault Refusal :=
  done s (busWrite s m (Reg.HIF_PCNT_CLR p) v.toNat 15)

/-- R324: ISC_MTR_RATE. -/
def execIscMtrRate (m : Master) (i : Fin 33) (v : BitVec 32) (s : State) : Host.Outcome State Fault Refusal :=
  done s (busWrite s m (Reg.ISC_MTR_RATE i) v.toNat 15)

/-- R135: DRV_ENABLE. -/
def execDrvEnable (m : Master) (t : Fin 96) (v : BitVec 32) (s : State) : Host.Outcome State Fault Refusal :=
  done s (busWrite s m (Reg.DRV_CTRL t) v.toNat 15)

/-- R137: DRV_RELEASE. -/
def execDrvRelease (m : Master) (t : Fin 96) (v : BitVec 32) (s : State) : Host.Outcome State Fault Refusal :=
  done s (busWrite s m (Reg.DRV_CTRL t) v.toNat 15)

/-- R124: MANUAL. -/
def execManual (m : Master) (t : Fin 96) (v : BitVec 32) (s : State) : Host.Outcome State Fault Refusal :=
  done s (busWrite s m (Reg.DRV_CTRL t) v.toNat 15)

/-- R124: PENDING_REGISTER_WRITE. -/
def execPendingRegisterWrite (m : Master) (t : Fin 96) (c : Fin 128) (v : BitVec 32) (s : State) : Host.Outcome State Fault Refusal :=
  done s (busWrite s m (Reg.DRV_CH_CODE t c) v.toNat 15)

/-- R123: DRV_LOAD. -/
def execDrvLoad (m : Master) (t : Fin 96) (v : BitVec 32) (s : State) : Host.Outcome State Fault Refusal :=
  done s (busWrite s m (Reg.DRV_LOAD t) v.toNat 15)

/-- R142: DRV_TEST. -/
def execDrvTest (m : Master) (t : Fin 96) (v : BitVec 32) (s : State) : Host.Outcome State Fault Refusal :=
  done s (busWrite s m (Reg.DRV_TEST t) v.toNat 15)

/-- R165: MON_ENABLE. -/
def execMonEnable (m : Master) (t : Fin 96) (v : BitVec 32) (s : State) : Host.Outcome State Fault Refusal :=
  done s (busWrite s m (Reg.MON_CTRL t) v.toNat 15)

/-- R145: GAIN_CHANGE. -/
def execGainChange (m : Master) (t : Fin 96) (j : Fin 128) (v : BitVec 32) (s : State) : Host.Outcome State Fault Refusal :=
  done s (busWrite s m (Reg.MON_IN_CFG t j) v.toNat 15)

/-- R150: WINDOW_WRITE. -/
def execWindowWrite (m : Master) (t : Fin 96) (j : Fin 128) (v : BitVec 32) (s : State) : Host.Outcome State Fault Refusal :=
  done s (busWrite s m (Reg.MON_IN_WIN t j) v.toNat 15)

/-- R167: MON_DIAG. -/
def execMonDiag (m : Master) (t : Fin 96) (v : BitVec 32) (s : State) : Host.Outcome State Fault Refusal :=
  done s (busWrite s m (Reg.MON_DIAG t) v.toNat 15)

/-- R163: ADC_CALIBRATION_ALL. -/
def execAdcCalibrationAll (m : Master) (v : BitVec 32) (s : State) : Host.Outcome State Fault Refusal :=
  done s (busWrite s m Reg.CAL_ADC_CMD v.toNat 15)

/-- R163: ADC_CALIBRATION_SINGLE. -/
def execAdcCalibrationSingle (m : Master) (v : BitVec 32) (s : State) : Host.Outcome State Fault Refusal :=
  done s (busWrite s m Reg.CAL_ADC_CMD v.toNat 15)

/-- R228: HOOK_EN. -/
def execHookEn (m : Master) (k : Fin 100) (v : BitVec 32) (s : State) : Host.Outcome State Fault Refusal :=
  done s (busWrite s m (Reg.TRK_CTRL k) v.toNat 15)

/-- R252: RAIL_EN. -/
def execRailEn (m : Master) (k : Fin 5) (v : BitVec 32) (s : State) : Host.Outcome State Fault Refusal :=
  done s (busWrite s m (Reg.PWR_RAIL_CFG k) v.toNat 15)

/-- R252: RESTART. -/
def execRestart (m : Master) (k : Fin 5) (v : BitVec 32) (s : State) : Host.Outcome State Fault Refusal :=
  done s (busWrite s m (Reg.PWR_RAIL_CMD k) v.toNat 15)

/-- R251: RAIL_TARGET_WRITE. -/
def execRailTargetWrite (m : Master) (k : Fin 4) (v : BitVec 32) (s : State) : Host.Outcome State Fault Refusal :=
  done s (busWrite s m (Reg.PWR_RAIL_TGT k) v.toNat 15)

/-- R257: PER_WRITE. -/
def execPerWrite (m : Master) (n : Fin 24) (v : BitVec 32) (s : State) : Host.Outcome State Fault Refusal :=
  done s (busWrite s m (Reg.PWR_PWM_PER n) v.toNat 15)

/-- R257: CMP_WRITE. -/
def execCmpWrite (m : Master) (n : Fin 24) (v : BitVec 32) (s : State) : Host.Outcome State Fault Refusal :=
  done s (busWrite s m (Reg.PWR_PWM_CMP n) v.toNat 15)

/-- R258: PWR_PWM_COMMIT. -/
def execPwrPwmCommit (m : Master) (n : Fin 24) (v : BitVec 32) (s : State) : Host.Outcome State Fault Refusal :=
  done s (busWrite s m (Reg.PWR_PWM_COMMIT n) v.toNat 15)

/-- R274: SET. -/
def execSet (m : Master) (v : BitVec 32) (s : State) : Host.Outcome State Fault Refusal :=
  done s (busWrite s m Reg.TMU_CMD v.toNat 15)

/-- R281: STEP. -/
def execStep (m : Master) (v : BitVec 32) (s : State) : Host.Outcome State Fault Refusal :=
  done s (busWrite s m Reg.TMU_CMD v.toNat 15)

/-- R288: RC_ARM. -/
def execRcArm (m : Master) (v : BitVec 32) (s : State) : Host.Outcome State Fault Refusal :=
  done s (busWrite s m Reg.TMU_CMD v.toNat 15)

/-- R288: RC_NOW. -/
def execRcNow (m : Master) (v : BitVec 32) (s : State) : Host.Outcome State Fault Refusal :=
  done s (busWrite s m Reg.TMU_CMD v.toNat 15)

/-- R300: RC_STOP. -/
def execRcStop (m : Master) (v : BitVec 32) (s : State) : Host.Outcome State Fault Refusal :=
  done s (busWrite s m Reg.TMU_CMD v.toNat 15)

/-- R359: FORCE. -/
def execForce (m : Master) (k : Fin 11) (v : BitVec 32) (s : State) : Host.Outcome State Fault Refusal :=
  done s (busWrite s m (Reg.FLT_FORCE k) v.toNat 15)

/-- R92: INVAL. -/
def execInval (m : Master) (v : BitVec 32) (s : State) : Host.Outcome State Fault Refusal :=
  done s (busWrite s m Reg.BEL_CNT_CLR v.toNat 15)

/-- R92: REFUSE. -/
def execRefuse (m : Master) (v : BitVec 32) (s : State) : Host.Outcome State Fault Refusal :=
  done s (busWrite s m Reg.BEL_CNT_CLR v.toNat 15)

/-- R92: OUTCOME. -/
def execOutcome (m : Master) (v : BitVec 32) (s : State) : Host.Outcome State Fault Refusal :=
  done s (busWrite s m Reg.BEL_CNT_CLR v.toNat 15)

/-- R114: RTS_CNT_CLR. -/
def execRtsCntClr (m : Master) (v : BitVec 32) (s : State) : Host.Outcome State Fault Refusal :=
  done s (busWrite s m Reg.RTS_CNT_CLR v.toNat 15)

/-- R143: DRV_CNT_CLR. -/
def execDrvCntClr (m : Master) (t : Fin 96) (v : BitVec 32) (s : State) : Host.Outcome State Fault Refusal :=
  done s (busWrite s m (Reg.DRV_CNT_CLR t) v.toNat 15)

/-- R167: MON_CNT_CLR. -/
def execMonCntClr (m : Master) (t : Fin 96) (v : BitVec 32) (s : State) : Host.Outcome State Fault Refusal :=
  done s (busWrite s m (Reg.MON_CNT_CLR t) v.toNat 15)

/-- R228: TRK_CNT_CLR. -/
def execTrkCntClr (m : Master) (k : Fin 100) (v : BitVec 32) (s : State) : Host.Outcome State Fault Refusal :=
  done s (busWrite s m (Reg.TRK_CNT_CLR k) v.toNat 15)

/-- R247: CAL_CNT_CLR. -/
def execCalCntClr (m : Master) (v : BitVec 32) (s : State) : Host.Outcome State Fault Refusal :=
  done s (busWrite s m Reg.CAL_CNT_CLR v.toNat 15)

/-- R271: PWR_CNT_CLR. -/
def execPwrCntClr (m : Master) (v : BitVec 32) (s : State) : Host.Outcome State Fault Refusal :=
  done s (busWrite s m Reg.PWR_CNT_CLR v.toNat 15)

/-- R300: TMU_CNT_CLR. -/
def execTmuCntClr (m : Master) (v : BitVec 32) (s : State) : Host.Outcome State Fault Refusal :=
  done s (busWrite s m Reg.TMU_CNT_CLR v.toNat 15)

/-- R301: ETH_CNT_CLR. -/
def execEthCntClr (m : Master) (e : Fin 4) (v : BitVec 32) (s : State) : Host.Outcome State Fault Refusal :=
  done s (busWrite s m (Reg.ETH_CNT_CLR e) v.toNat 15)

/-- R333: ISC_CNT_CLR. -/
def execIscCntClr (m : Master) (v : BitVec 32) (s : State) : Host.Outcome State Fault Refusal :=
  done s (busWrite s m Reg.ISC_CNT_CLR v.toNat 15)

/-- R369: FLT_CNT_CLR. -/
def execFltCntClr (m : Master) (v : BitVec 32) (s : State) : Host.Outcome State Fault Refusal :=
  done s (busWrite s m Reg.FLT_CNT_CLR v.toNat 15)

/-- R378: THM_CNT_CLR. -/
def execThmCntClr (m : Master) (v : BitVec 32) (s : State) : Host.Outcome State Fault Refusal :=
  done s (busWrite s m Reg.THM_CNT_CLR v.toNat 15)

/-- R407: XBR_CNT_CLR. -/
def execXbrCntClr (m : Master) (v : BitVec 32) (s : State) : Host.Outcome State Fault Refusal :=
  done s (busWrite s m Reg.XBR_CNT_CLR v.toNat 15)

/-- R405: REMAP. -/
def execRemap (m : Master) (v : BitVec 32) (s : State) : Host.Outcome State Fault Refusal :=
  done s (busWrite s m Reg.XBR_CTRL v.toNat 15)

/-- R401: XBR_SLICE_WRITE. -/
def execXbrSliceWrite (m : Master) (i : Fin 13) (v : BitVec 32) (s : State) : Host.Outcome State Fault Refusal :=
  done s (busWrite s m (Reg.XBR_SLICE i) v.toNat 15)

/-- R400: XBR_PARK_WRITE. -/
def execXbrParkWrite (m : Master) (k : Fin 2) (v : BitVec 32) (s : State) : Host.Outcome State Fault Refusal :=
  done s (busWrite s m (Reg.XBR_PARK k) v.toNat 15)

/-- R385: GLB_RESET. -/
def execGlbReset (m : Master) (v : BitVec 32) (s : State) : Host.Outcome State Fault Refusal :=
  done s (busWrite s m Reg.GLB_RESET v.toNat 15)

/-- R395: GLB_WDOG_KICK. -/
def execGlbWdogKick (m : Master) (v : BitVec 32) (s : State) : Host.Outcome State Fault Refusal :=
  done s (busWrite s m Reg.GLB_WDOG_KICK v.toNat 15)

/-- R391: DOZE. -/
def execDoze (m : Master) (v : BitVec 32) (s : State) : Host.Outcome State Fault Refusal :=
  done s (busWrite s m Reg.GLB_PSTATE v.toNat 15)

/-- R391: NAP. -/
def execNap (m : Master) (v : BitVec 32) (s : State) : Host.Outcome State Fault Refusal :=
  done s (busWrite s m Reg.GLB_PSTATE v.toNat 15)

/-- R392: RUN. -/
def execRun (m : Master) (v : BitVec 32) (s : State) : Host.Outcome State Fault Refusal :=
  done s (busWrite s m Reg.GLB_PSTATE v.toNat 15)

/-- R382: CONFIRM. -/
def execConfirm (m : Master) (v : BitVec 32) (s : State) : Host.Outcome State Fault Refusal :=
  done s (busWrite s m Reg.BOOT_CMD v.toNat 15)

/-- R386: BOOT_CMD_STAGE. -/
def execBootCmdStage (m : Master) (v : BitVec 32) (s : State) : Host.Outcome State Fault Refusal :=
  done s (busWrite s m Reg.BOOT_CMD v.toNat 15)

/-- R389: JWRITE. -/
def execJwrite (m : Master) (v : BitVec 32) (s : State) : Host.Outcome State Fault Refusal :=
  done s (busWrite s m Reg.BOOT_CMD v.toNat 15)

/-- R395: READ_PAGE. -/
def execReadPage (m : Master) (v : BitVec 32) (s : State) : Host.Outcome State Fault Refusal :=
  done s (busWrite s m Reg.BOOT_PROG v.toNat 15)

/-- R395: PROGRAM_PAGE. -/
def execProgramPage (m : Master) (v : BitVec 32) (s : State) : Host.Outcome State Fault Refusal :=
  done s (busWrite s m Reg.BOOT_PROG v.toNat 15)

/-- R395: ERASE_BLOCK. -/
def execEraseBlock (m : Master) (v : BitVec 32) (s : State) : Host.Outcome State Fault Refusal :=
  done s (busWrite s m Reg.BOOT_PROG v.toNat 15)

end Sys2Proof.Machine
end

