-- ==== Sys2Proof/Machine/Maint.lean ====
section
/-! DEFINITION. The maintenance port (R406): the word address, reads and writes as master MNT, the status byte. -/

namespace Sys2Proof.Machine

/-- R406: a write with a bad PEC is not performed and sets PEC_ERR. -/
def pecGuard (s : State) (ok : Bool) (f : State → State) : State :=
  if ok then f s else { s with mnt := { s.mnt with pec := true } }

/-- R406: the word address, kept within the 24-bit device address space. -/
def mntSeek (s : State) (a : Nat) : State := { s with mnt := { s.mnt with addr := a % 2 ^ 24 / 4 * 4 } }

/-- R406: ADDR. -/
def execAddr (a : BitVec 24) (pecOk : Bool) (s : State) : Host.Outcome State Fault Refusal :=
  done s (pecGuard s pecOk (fun s => mntSeek s a.toNat))

/-- R406: the word at the address returned. -/
def mntRead (s : State) : State :=
  let r := busRead s .mnt s.mnt.addr
  emit r.1 (.data .mnt r.2)

/-- R406: READ. -/
def execRead (s : State) : Host.Outcome State Fault Refusal := done s (mntRead s)

/-- R406: READ_INC. -/
def execReadInc (s : State) : Host.Outcome State Fault Refusal := done s (mntSeek (mntRead s) (s.mnt.addr + 4))

/-- R406: WRITE. -/
def execWrite (v : BitVec 32) (pecOk : Bool) (s : State) : Host.Outcome State Fault Refusal :=
  done s (pecGuard s pecOk (fun s => busWrite s .mnt s.mnt.addr v.toNat 15))

/-- R406: WRITE_INC. -/
def execWriteInc (v : BitVec 32) (pecOk : Bool) (s : State) : Host.Outcome State Fault Refusal :=
  done s (pecGuard s pecOk (fun s => mntSeek (busWrite s .mnt s.mnt.addr v.toNat 15) (s.mnt.addr + 4)))

/-- R406: the status byte: BUSY, ERR, PEC_ERR, REFUSED. -/
def mntByte (s : State) : Nat := 2 * b2n s.mnt.err + 4 * b2n s.mnt.pec + 8 * b2n s.mnt.refused

/-- R406: STATUS: bits 3:1 clear on read. -/
def execStatus (s : State) : Host.Outcome State Fault Refusal :=
  done s { emit s (.mntStatus (mntByte s)) with mnt := { s.mnt with err := false, pec := false, refused := false } }

end Sys2Proof.Machine
end

