-- ==== Sys2Proof/Machine/PowerOn.lean ====
section
/-! DEFINITION. Power-on and boot (R45, R46, R53, R226, R380 to R384, R389, R421). -/

namespace Sys2Proof.Machine

/-! ## Slot choice (R381, R382) -/

/-- R382: a trial slot that was tried and not confirmed. -/
def trialSpent (s : State) (k : Nat) : Bool :=
  bit (flashRd s (slotAt k + 6) 2) 0 && decide (flashByte s (slotAt k + 0x1000) = 0) && decide (flashByte s (slotAt k + 0x1100) = 0xFF)

/-- R382: a slot is eligible. -/
def eligible (s : State) (k : Nat) : Bool := headerOk s k && !trialSpent s k

/-- R382: the eligible slots in the order in which they are tried. -/
def bootOrder (s : State) : List Nat :=
  let seq (k : Nat) : Nat := flashRd s (slotAt k + 8) 4
  (if seq 0 < seq 1 then [1, 0] else [0, 1]).filter (eligible s)

/-- R382: TRIED is programmed before a trial slot is loaded. -/
def markTried (s : State) (k : Nat) : State :=
  if bit (flashRd s (slotAt k + 6) 2) 0 then flashProg s (slotAt k + 0x1000) [0] else s

/-- R382, R395: why a slot that is tried fails: FAIL, and the failed check of the fabric map with its table and record. -/
def slotFail (s : State) (k : Nat) (sfdp : Bool) : Nat × Nat × Nat × Nat :=
  let m := sectionTab s k 3 1048576
  if !sfdp then (5, 0, 0, 0xFFFF)
  else if !(sections s k).all (sectionOk s k) then (2, 0, 0, 0xFFFF)
  else if !([1, 2, 3, 4, 5, 7].all (fun t => (sectionOf s k t).isSome)) then (3, 0, 0, 0xFFFF)
  else match mapCheck (fun o => rb m o) with
    | some (c, t, r) => (4, c, t, r)
    | none => (0, 0, 0, 0xFFFF)

/-- R395: BOOT_SLOTk. -/
def slotResult (s : State) (k : Nat) (f : Nat × Nat × Nat × Nat) : State :=
  rset s (Reg.BOOT_SLOT k) (BitVec.ofNat 32 (f.1 + 8 * b2n (decide (f.1 = 0)) + 16 * f.2.1 + 256 * f.2.2.1 + 65536 * f.2.2.2))

/-- R46, R382: slots are tried in order until one passes every check; a failed fabric map is recorded. -/
def trySlots (sfdp : Bool) : List Nat → State → State × Option Nat
  | [], s => (s, none)
  | k :: r, s =>
    let s1 := markTried s k
    let f := slotFail s1 k sfdp
    let s2 := slotResult s1 k f
    if f.1 = 0 then (s2, some k)
    else trySlots sfdp r (if f.1 = 4 then report s2 srcBoot 0x71 k f.2.1 else s2)

/-- R382, R395: the slot choice, with the slots that are not tried. -/
def chooseSlot (s : State) (sfdp : Bool) : State × Option Nat :=
  let s1 := [0, 1].foldl (fun s k =>
    slotResult s k ((if !headerOk s k then 1 else if trialSpent s k then 6 else 7), 0, 0, 0xFFFF)) s
  trySlots sfdp (bootOrder s1) s1

/-! ## What the image gives (R383) -/

/-- R44: the fabric map in its window. -/
def loadMap (s : State) (k : Nat) : State :=
  let m := sectionTab s k 3 1048576
  { s with mem := copyRange m 0 (mapLength (fun o => rb m o)) s.mem 0xE00000 }

/-- R53, R118, R361: the RETIRED flags and R_est come from the map. -/
def applyMap (s : State) : State :=
  (List.range 6144).foldl (fun s i =>
    if !cellPresent (fm s) i then s
    else
      let s1 := [0, 1].foldl (fun s arm => fset s (resReg (2 * i + arm)) Reg.DRV_CH_RES_REST (cellRes (fm s) i arm)) s
      if cellRetiredFlag (fm s1) i then setRetired s1 i true 1 else s1) s

/-! ## The journal and park codes (R384, R389) -/

/-- R389: a region holds a valid record. -/
def jrnlOk (s : State) (r : Nat) : Bool :=
  let b := jrnlAt r
  decide (crc32c (rbytes s.boot.flash b 60 0xFF ++ rbytes s.boot.flash (b + 64) 449536 0xFF) = flashRd s (b + 60) 4)

/-- R389: the region with the newest valid record. -/
def jrnlNewest (s : State) : Option Nat :=
  match jrnlOk s 0, jrnlOk s 1 with
  | false, false => none
  | true, false => some 0
  | false, true => some 1
  | true, true => if flashRd s (jrnlAt 0) 4 < flashRd s (jrnlAt 1) 4 then some 1 else some 0

/-- The calibration tables taken from bytes of the flash; the building tables start as copies (R245). -/
def tablesFrom (s : State) (a : Nat) : State :=
  let l := rbytes s.boot.flash a 393216 0xFF
  { s with mem := wbytes (wbytes s.mem 0x940000 l) 0x9A0000 l }

/-- R53: a cell whose retirement was lost with the supply rejoins the fabric uncalibrated (notes/assumptions/82). -/
def rejoin (s : State) : State :=
  (s.boot.wasRetired.filter (cellUsable s)).foldl (fun s i =>
    mset (mset s (actAt i) 1 (putBit (mbyte s (actAt i)) 0 false)) (bldAt i) 1 (putBit (mbyte s (bldAt i)) 0 false)) s

/-- R53, R245, R389: a record's tables and retirements, BOOT_JRNL, and the chart in force. -/
def journalLoad (s : State) (r : Nat) : State :=
  let b := jrnlAt r + 64
  let s1 := tablesFrom s b
  let s2 := (List.range 6144).foldl (fun s i =>
    if flashByte s (b + 393216 + i) ≠ 0 ∧ cellPresent (fm s) i ∧ !isRetired s i then setRetired s i true 2 else s) s1
  let s3 := fset (fset s2 Reg.BOOT_JRNL Reg.BOOT_JRNL_VALID 1) Reg.BOOT_JRNL Reg.BOOT_JRNL_REGION r
  { s3 with boot := { s3.boot with jSeq := flashRd s3 (jrnlAt r) 4 } }

/-- R381: section 9 seeds the tables. -/
def seedLoad (s : State) (k : Nat) : State :=
  match sectionOf s k 9 with
  | some x => if x.2.2.1 = 393216 then tablesFrom s (slotAt k + x.2.1) else s
  | none => s

/-- R136: a channel's park code and range. -/
def setPark (s : State) (h code rng : Nat) : State :=
  rset s (Reg.DRV_CH_PARK (h / 128) (h % 128)) (BitVec.ofNat 32 (code % 65536 + 65536 * (rng % 2)))

/-- R136, R384: the record's park codes; a cell without calibration parks at its NOM codes. -/
def parkJournal (s : State) (r : Nat) : State :=
  let b := jrnlAt r + 64 + 399360
  let s1 := (List.range 12288).foldl (fun s h =>
    if cellPresent (fm s) (h / 2) ∧ !calOf s (actAt (h / 2)) then setPark s h (cellNom (fm s) (h / 2) (h % 2)) (b2n (cellNomHi (fm s) (h / 2)))
    else setPark s h (flashRd s (b + 4 * h) 2) (flashByte s (b + 4 * h + 2))) s
  { s1 with bel := { s1.bel with forceChart := BitVec.ofNat 8192 (flashRd s1 (b + 49152) 1024) } }

/-- R136, R384: the park codes of a cell under the idle chart: calibrated drive at a temperature, or NOM codes in NOM_HI's range. -/
def parkCell (s : State) (sol : Solution) (i : Nat) (temp : Int) : State :=
  if !cellPresent (fm s) i then s
  else if calOf s (actAt i) then
    let u := driveFor s i (stateOf sol.st i) temp
    [0, 1].foldl (fun s arm =>
      if (if arm = 0 then 0 < u else u < 0) then (let c := planCode s i arm u.natAbs; setPark s (2 * i + arm) c.2 c.1)
      else setPark s (2 * i + arm) 0 0) s
  else [0, 1].foldl (fun s arm => setPark s (2 * i + arm) (cellNom (fm s) i arm) (b2n (cellNomHi (fm s) i))) s

/-- R384: the idle chart: section 8, or the chart that connects nothing. -/
def idleChart (s : State) (k : Nat) : BitVec 8192 :=
  match sectionOf s k 8 with
  | some x => BitVec.ofNat 8192 (flashRd s (slotAt k + x.2.1) 1024)
  | none => 0

/-- R384: the park codes from the idle chart's solve. The temperature that boot uses is open. -/
def parkIdle (s : State) (k : Nat) : State :=
  let ch := idleChart s k
  let sol := solve (fm s) (fun i => bit (faultSet s).toNat i) ch
  (List.range 96).foldl (fun s t =>
    let d := draw s
    (List.range 64).foldl (fun s c => parkCell s sol (64 * t + c) (sext (Config.openWord d.1).toNat 16)) d.2)
    { s with bel := { s.bel with forceChart := ch } }

/-- R384: the source of the park codes. -/
def parkAll (s : State) (k : Nat) : State :=
  match jrnlNewest s with
  | some r => if flashByte s (slotAt k + 0x13) = 0 then parkJournal s r else parkIdle s k
  | none => parkIdle s k

/-- R51, R140: the channels of retired cells stand at their fault value from the start. -/
def faultStart (s : State) : State :=
  (List.range 6144).foldl (fun s i =>
    if isRetired s i then [2 * i, 2 * i + 1].foldl (fun s h => setChan s h { (chanOf s h) with atFault := true }) s else s) s

/-! ## Cores (R226, R362) -/

/-- R225: a tile's coupling entries, eight places of 8 bytes for each cell, and its record with the adjacent tiles. -/
def ctxMap (s : State) (t : Nat) (m : Tab Byte) : Tab Byte :=
  let b := 2 ^ 14 * t
  let m1 := (List.range 64).foldl (fun m c =>
    let i := 64 * t + c
    if cellPresent (fm s) i then copyRange s.mem (0xE00000 + cplAt (fm s) (cellCplFirst (fm s) i)) (8 * min 8 (cellCplN (fm s) i)) m (b + 0x1000 + 64 * c)
    else m) m
  copyRange s.mem (0xE00000 + tileAt (fm s) t) 16 m1 (b + 0x2000)

/-- R225: the tile context stores take the active tables, the coupling entries and the adjacency. -/
def ctxFill (s : State) : State :=
  (List.range 96).foldl (fun s t =>
    { s with trk := { s.trk with ctx := ctxMap s t (copyRange s.mem (0x940000 + 0x1000 * t) 4096 s.trk.ctx (2 ^ 14 * t)) } }) s

/-- R362: every used tile is served by the core of its number. -/
def tilesFirst (s : State) : State :=
  (List.range 96).foldl (fun s t =>
    if tileUsed (fm s) t then fset (setTmap s t t) (Reg.TRK_STATUS t) Reg.TRK_STATUS_TILE t else s) s

/-! ## Power-on (R380, R383, R421) -/

/-- The state as power-on reset releases: nothing survives but the flash (R390). -/
def powerClear (s : State) (env : BootEnv) : State :=
  { State.reset with
    out := s.out, draws := s.draws,
    pins := { State.reset.pins with pwmLow := false, clamp := false },
    mnt := { State.reset.mnt with smbAddr := 0x58 + env.straps.toNat },
    boot := { State.reset.boot with flash := s.boot.flash, flashSize := if env.big then 0x2000000 else 0x1000000, auxValid := true,
                                    powered := true, dogRun := true, wasRetired := s.boot.wasRetired } }

/-- R380: the clock of a mode in MHz, at most. -/
def modeMHz (mode : Nat) : Nat := if mode = 0 then 50 else 100

/-- R380, R395: BOOT_STATUS after discovery, GLB_CLK after the PLLs lock. -/
def discover (s : State) (env : BootEnv) : State :=
  let mhz := min (min env.tableMHz.toNat (modeMHz env.mode)) (flashByte s 0x12)
  rset (rset s Reg.GLB_CLK 15) Reg.BOOT_STATUS (BitVec.ofNat 32 (8 * env.mode + 32 * b2n env.big + 65536 * mhz))

/-- R364, R390: the lanes' self-test. -/
def lanesTest (s : State) (bad : Nat) : State := [0, 1].foldl (fun s l => if bit bad (100 + l) then failLane s l else s) s

/-- R383: steps 3 to 7 with the booted slot. -/
def bootImage (s : State) (k : Nat) (env : BootEnv) : State :=
  let s1 := fset s Reg.BOOT_STATUS Reg.BOOT_STATUS_SLOT k
  let s2 := env.init.foldl (fun s w => busWrite s .sup w.1.toNat w.2.toNat 15) s1
  let s3 := applyMap (loadMap s2 k)
  let s4 := match jrnlNewest s3 with
    | some r => journalLoad s3 r
    | none => seedLoad s3 k
  let s5 := faultStart (parkAll (rejoin s4) k)
  let h := storeHalf s5 k
  let s6 := storeFlags { s5 with boot := { s5.boot with h0 := h, h1 := h } }
  warmCores (loadCode (tilesFirst (ctxFill s6)) h) ((List.range 100).filter (fun i => bit env.selfTest.toNat i)) 0

/-- R382, R383: power-on reset releases and the device boots from its flash; with no slot to boot it stays in ROM. It happens once,
until a supply is lost. -/
def powerOn (s : State) (env : BootEnv) : State :=
  if s.boot.powered then s
  else
    let s1 := lanesTest (discover (powerClear s env) env) env.selfTest.toNat
    let c := chooseSlot s1 env.sfdp
    match c.2 with
    | some k => bootImage c.1 k env
    | none =>
      let s2 := fset c.1 Reg.BOOT_STATUS Reg.BOOT_STATUS_ROM_ONLY 1
      { s2 with hif := { s2.hif with paused := true } }

/-- R383: POWER_ON_RESET. -/
def execPowerOnReset (env : BootEnv) (s : State) : Host.Outcome State Fault Refusal := done s (powerOn s env)

/-- R383: BOOT_READY: the boot is complete. -/
def execBootReady (s : State) : Host.Outcome State Fault Refusal :=
  done s (if s.boot.powered ∧ !romOnly s then fset s Reg.BOOT_STATUS Reg.BOOT_STATUS_READY 1 else s)

end Sys2Proof.Machine
end

