-- ==== Sys2Proof/Machine/Spi.lean ====
section
/-! DEFINITION. The forerunner SPI port (R330, R331). A frame reaches the port as its fields; its CRC-16 is the one that the controller
sent. -/

namespace Sys2Proof.Machine

/-- R332: LEG_CTRL.EN: the port takes frames. -/
def legOn (s : State) : Bool := decide (fget s Reg.LEG_CTRL Reg.LEG_CTRL_EN = 1)

/-- R330: LAST_NAK. -/
def lastNak (s : State) (b : Bool) : State := fset s Reg.LEG_STATUS Reg.LEG_STATUS_LAST_NAK (b2n b)

/-- R330: a frame that the controller ends with a CRC: ignored while the port is disabled, discarded where the CRC does not cover
`bytes`, otherwise handled. -/
def framed (s : State) (bytes : List Nat) (crc : Nat) (f : State → State) : State :=
  if !legOn s then s
  else
    let s1 := bump s (Reg.LEG_CNT 0)
    if crc16 bytes = crc then f (lastNak s1 false) else lastNak (bump s1 (Reg.LEG_CNT 1)) true

/-- R330: bytes returned with their CRC-16. -/
def answerSpi (s : State) (l : List Nat) : State := emit s (.spi (l ++ beBytes (crc16 l) 2))

/-- R330: READ_ID. -/
def readIdSpi (s : State) : State :=
  if !legOn s then s else answerSpi (bump s (Reg.LEG_CNT 0)) (beBytes (rget s Reg.GLB_ID).toNat 4)

/-- R330: READ_ID. -/
def execReadId (s : State) : Host.Outcome State Fault Refusal := done s (readIdSpi s)

/-- R330: the status byte: CPL_AVAIL, QFULL, LAST_NAK, HALTED, DISABLED. -/
def spiStatus (s : State) : Nat :=
  b2n (!s.spi.cpls.isEmpty) + 2 * b2n s.spi.qfull + 4 * fget s Reg.LEG_STATUS Reg.LEG_STATUS_LAST_NAK + 8 * b2n (halted s) + 16 * b2n (!legOn s)

/-- R330, R332: READ_STATUS answers on a disabled port too, with DISABLED set. -/
def execReadStatus (s : State) : Host.Outcome State Fault Refusal :=
  done s (emit (if legOn s then bump s (Reg.LEG_CNT 0) else s) (.spi [spiStatus s]))

/-- R313, R331: both queues have room for a descriptor and what it may owe. -/
def spiRoom (s : State) : Bool :=
  decide (s.spi.queue.length < 16) && decide (s.spi.cpls.length + s.spi.owed + 2 ≤ 16)

/-- R331: a format 1 descriptor joins the queue; without room the frame is discarded, and QFULL and LAST_NAK set. -/
def spiQueue (s : State) (raw : BitVec 512) (img : Option (BitVec 8192)) : State :=
  if !spiRoom s then lastNak { s with spi := { s.spi with qfull := true } } true
  else
    let o := newOrder s 32 true raw
    let e := Entry.mk raw true 32 (fget s Reg.LEG_CTRL Reg.LEG_CTRL_AS) 0 s.now s.now 0 o.1 img false false 0 none none o.2.hif.entrySeq 0 [] 0
    let s1 := { o.2 with
      hif := { o.2.hif with entrySeq := o.2.hif.entrySeq + 1 },
      spi := { o.2.spi with queue := o.2.spi.queue ++ [e], owed := o.2.spi.owed + 1, qfull := false } }
    bump (fset s1 Reg.LEG_STATUS Reg.LEG_STATUS_QLEN s1.spi.queue.length) (Reg.LEG_CNT 2)

/-- R330, R331: SUBMIT. -/
def execSubmit (d : BitVec 256) (crc : BitVec 16) (s : State) : Host.Outcome State Fault Refusal :=
  done s (framed s (0x02 :: leBytes d.toNat 32) crc.toNat (fun s => spiQueue s (BitVec.ofNat 512 d.toNat) none))

/-- R318: the format 1 CHART of a slot and TAG. -/
def chartDesc (slot tag : Nat) : BitVec 512 := BitVec.ofNat 512 (3 + slot * 2 ^ 16 + tag * 2 ^ 32)

/-- R330, R331: LOAD_CHART. -/
def execLoadChart (slot : BitVec 16) (tag : BitVec 32) (img : BitVec 8192) (crc : BitVec 16) (s : State) :
    Host.Outcome State Fault Refusal :=
  done s (framed s (0x20 :: (beBytes slot.toNat 2 ++ beBytes tag.toNat 4 ++ leBytes img.toNat 1024)) crc.toNat
    (fun s => spiQueue s (chartDesc slot.toNat tag.toNat) (some img)))

/-- Bytes for which the specification states no value. -/
def openBytes (s : State) : Nat → State × List Nat
  | 0 => (s, [])
  | n + 1 =>
    let d := draw s
    let r := openBytes d.2 n
    (r.1, (Config.openWord d.1).toNat % 256 :: r.2)

/-- R330: READ_CPL: the oldest record, removed after a complete read; with none waiting the bytes are open. -/
def readCplSpi (s : State) (complete : Bool) : State :=
  if !legOn s then s
  else
    let s1 := bump s (Reg.LEG_CNT 0)
    match s1.spi.cpls with
    | [] =>
      let r := openBytes s1 32
      answerSpi r.1 r.2
    | c :: rest =>
      let s2 := answerSpi s1 (leBytes c.toNat 32)
      if complete then
        bump (fset { s2 with spi := { s2.spi with cpls := rest } } Reg.LEG_STATUS Reg.LEG_STATUS_CPLS rest.length) (Reg.LEG_CNT 3)
      else s2

/-- R330: READ_CPL. -/
def execReadCpl (complete : Bool) (s : State) : Host.Outcome State Fault Refusal := done s (readCplSpi s complete)

/-- R330, R331: READ_REG: a word of the device address space. -/
def execReadReg (a : BitVec 24) (s : State) : Host.Outcome State Fault Refusal :=
  done s (if !legOn s then s else
    (let r := busRead (bump s (Reg.LEG_CNT 0)) .leg a.toNat
     answerSpi r.1 (beBytes r.2.toNat 4)))

/-- R330, R331: WRITE_REG. -/
def execWriteReg (a : BitVec 24) (v : BitVec 32) (crc : BitVec 16) (s : State) : Host.Outcome State Fault Refusal :=
  done s (framed s (0x12 :: (beBytes a.toNat 3 ++ beBytes v.toNat 4)) crc.toNat (fun s => busWrite s .leg a.toNat v.toNat 15))

/-- R331: both queues emptied and the owed records discarded; accepted bells stand. -/
def spiReset (s : State) : State :=
  let left := (s.hif.fetched.filter (fun e => !decide (e.src = 32) || e.tIn.isSome)).map
    (fun e => if e.src = 32 then { e with src := 64 } else e)
  let s1 := { s with
    spi := { s.spi with cpls := [], owed := 0, queue := [], qfull := false },
    hif := { s.hif with fetched := left },
    bel := { s.bel with
      bells := s.bel.bells.map (fun b => { b with src := (if b.src = 32 then 64 else b.src) }),
      checks := s.bel.checks.map (fun c => { c with src := (if c.src = 32 then 64 else c.src) }) } }
  fset (fset s1 Reg.LEG_STATUS Reg.LEG_STATUS_QLEN 0) Reg.LEG_STATUS Reg.LEG_STATUS_CPLS 0

/-- R330, R331: RESET_PORT: two good frames, the second within 1 ms of the first. -/
def execResetPort (gapNs : Nat) (crc1 crc2 : BitVec 16) (s : State) : Host.Outcome State Fault Refusal :=
  done s (framed s [0x66] crc1.toNat (fun s => framed s [0x99] crc2.toNat (fun s => if gapNs ≤ 1000000 then spiReset s else s)))

end Sys2Proof.Machine
end

