-- ==== Sys2Proof/Machine/Telem.lean ====
section
/-! DEFINITION. Telemetry streams and bell notices (R296 to R299, R327, R328): periods, records to host memory, frames on the network
ports. -/

namespace Sys2Proof.Machine

/-! ## What a stream copies (R327) -/

/-- R327, R396, R404: a word that a stream of CONTENT 4 copies; the crossbar serves the copy as master 12. -/
def copyWord (s : State) (a0 : Nat) : State × Nat :=
  let a := a0 / 4 * 4 % 2 ^ 24
  if !inTarget a then
    let s1 := bump s (Reg.XBR_CNT 0)
    (if fget s1 Reg.XBR_ERR Reg.XBR_ERR_VALID = 1 then s1
      else rset (rset s1 Reg.XBR_ERR (BitVec.ofNat 32 (12 + 2 ^ 31))) Reg.XBR_ERR_ADDR (BitVec.ofNat 32 a), 0xFFFFFFFF)
  else if Reg.TMU_NOW 0 ≤ a ∧ a ≤ Reg.TMU_NOW 3 then
    let d := draw s
    (d.2, (Config.openWord d.1).toNat)
  else
    let r := busRead s .sup a
    (r.1, r.2.toNat)

/-- R327: consecutive words copied, in wire order. -/
def copyWords (s : State) (a : Nat) : Nat → State × List Nat
  | 0 => (s, [])
  | n + 1 =>
    let w := copyWord s a
    let r := copyWords w.1 (a + 4) n
    (r.1, beBytes w.2 4 ++ r.2)

/-- R195, R246, R327: the body of a periodic record: 96 summaries or 96 status blocks of 64 bytes, or the copied words. -/
def periodBody (s : State) (x : Stream) : State × List Nat :=
  let words (base : Nat) : List Nat := wireWords s ((List.range 1536).map (fun j => base + 4 * j))
  if x.content = 2 then (s, words 0x932000)
  else if x.content = 3 then (s, words 0x936000)
  else copyWords s x.src x.words

/-- R327: a stream of a port. -/
def streamOf (s : State) (p i : Nat) : Stream := tget (portOf s p).streams Stream.init i
def setStream (s : State) (p i : Nat) (x : Stream) : State :=
  setPort s p { (portOf s p) with streams := tset (portOf s p).streams Stream.init i x }

/-- R325, R327: a stream's period has passed. -/
def streamDue (s : State) (p i : Nat) : State :=
  let x := streamOf s p i
  if !x.on ∨ x.content < 2 ∨ s.up < x.next ∨ !s.boot.powered ∨ s.restart.inWindow then s
  else
    let b := periodBody s x
    queueBody (setStream b.1 p i { x with next := x.next + 1000 * x.period }) p (fun j _ => decide (j = i)) b.2

/-- R327: STREAM_PERIOD. -/
def execStreamPeriod (p : Fin 2) (i : Fin 16) (s : State) : Host.Outcome State Fault Refusal := done s (streamDue s p i)

/-! ## Headers and the choice of a stream (R296) -/

/-- R296: the 16-byte header; `typ` 1 a notice, 2 telemetry. -/
def telHeader (s : State) (typ seq stream : Nat) : List Nat :=
  beBytes 0xA65E 2 ++ [1, typ] ++ beBytes seq 4 ++ beBytes (rget s Reg.GLB_ID).toNat 4 ++ beBytes stream 4

/-- One of several: the only one, or one that the specification leaves open. -/
def pickOne {α : Type} (s : State) (l : List α) : Option (α × State) :=
  match l with
  | [] => none
  | [x] => some (x, s)
  | x :: r =>
    let d := draw s
    some (((x :: r)[(Config.streamPick d.1).toNat % (r.length + 1)]?).getD x, d.2)

/-! ## Records to host memory (R328) -/

/-- R328: bytes padded to a multiple of 64. -/
def pad64 (l : List Nat) : List Nat := l ++ List.replicate ((64 - l.length % 64) % 64) 0

/-- R328: the length of a record with a body. -/
def recordLen (body : List Nat) : Nat := (24 + body.length + 63) / 64 * 64

/-- R328: a record: the frame word, the header, the body, the padding. -/
def hostRecord (s : State) (p i : Nat) (x : Stream) (body : List Nat) : List Nat :=
  pad64 (leBytes (recordLen body) 4 ++ leBytes 0 4 ++
    telHeader s (if x.content = 0 then 1 else 2) x.seq (if x.content = 0 then 0 else 16 * p + i) ++ body)

/-- R328: HIF_TSHAPE's bucket, filled up to the present, in thousandths of a byte. -/
def bucketNow (s : State) (p : Nat) : Nat :=
  let pt := portOf s p
  min (max 1 (fget s (Reg.HIF_TSHAPE p) Reg.HIF_TSHAPE_BURST) * 1024000)
    (pt.bucket + max 1 (fget s (Reg.HIF_TSHAPE p) Reg.HIF_TSHAPE_RATE) * (s.up - pt.bucketAt))

/-- R328: a record written at a stream's offset, after a frame word of LEN 0 where it would pass the buffer's end. -/
def putRecord (s : State) (p i : Nat) (body : List Nat) : State :=
  let x := streamOf s p i
  let n := recordLen body
  let wrap := decide (x.len < x.ofs + n)
  let s1 := if wrap then emit s (.stream p i x.ofs (List.replicate 8 0)) else s
  let ofs := if wrap then 0 else x.ofs
  let s2 := bumpN (emit s1 (.stream p i ofs (hostRecord s p i x body))) (Reg.HIF_PCNT p 7) (n / 64)
  let s3 := setStream s2 p i { x with seq := (x.seq + 1) % 2 ^ 32, ofs := (if ofs + n = x.len then 0 else ofs + n), queue := x.queue.drop 1 }
  sblkTouch (setPort s3 p { (portOf s3 p) with bucket := bucketNow s p - 1000 * n, bucketAt := s.up }) p

/-- R328: a queued record of a host-memory stream leaves once the bucket holds its length. -/
def hostTelemetry (s : State) (p : Nat) : State :=
  let ready := (List.range 16).filter (fun i =>
    let x := streamOf s p i
    x.on && decide (x.kind = 1) && !x.queue.isEmpty)
  if halted s ∨ s.restart.inWindow ∨ !portUp s p then s
  else match pickOne s ready with
    | none => s
    | some (i, s0) =>
      let x := streamOf s0 p i
      let body := x.queue.headD []
      if x.len < recordLen body then setStream s0 p i { x with queue := x.queue.drop 1 }
      else if bucketNow s0 p < 1000 * recordLen body then s0
      else putRecord s0 p i body

/-- R328: TELEMETRY_RECORD. -/
def execTelemetryRecord (p : Fin 2) (s : State) : Host.Outcome State Fault Refusal := done s (hostTelemetry s p)

/-! ## Frames (R291, R296 to R298) -/

/-- R301: the largest telemetry frame. -/
def maxLen (s : State) (e : Nat) : Nat := max 256 (min 1518 (fget s (Reg.ETH_CLASS e) Reg.ETH_CLASS_MAXLEN))

/-- R289: the line rate in Mb/s. -/
def lineRate (s : State) (e : Nat) : Nat :=
  match fget s (Reg.ETH_CTRL e) Reg.ETH_CTRL_MODE with
  | 0 => 25000
  | 1 => 10000
  | 2 => 1000
  | _ =>
    match fget s (Reg.ETH_STATUS e) Reg.ETH_STATUS_SPEED with
    | 0 => 10
    | 1 => 100
    | _ => 1000

/-- R296: the transport that DEST sets; 3 acts as no transport of the table and is refused at admission. -/
def streamTransport (x : Stream) : Nat := x.dest / 4 % 4

/-- The bytes of IP and UDP headers. -/
def ipBytes (x : Stream) : Nat :=
  match streamTransport x with
  | 0 => 0
  | 1 => 28
  | _ => 48

/-- R298: the bytes of a frame from destination address to FCS. -/
def frameLen (s : State) (e : Nat) (x : Stream) (payload : Nat) : Nat :=
  max 64 (18 + 4 * fget s (Reg.ETH_VLAN e) Reg.ETH_VLAN_TAG_TX + ipBytes x + payload)

/-- R291: the tag of a class with its PCP. -/
def frameTag (s : State) (e : Nat) (pcp : Fld) : Option (Nat × Nat) :=
  if fget s (Reg.ETH_VLAN e) Reg.ETH_VLAN_TAG_TX = 1 then
    some (fget s (Reg.ETH_VLAN e) pcp, fget s (Reg.ETH_VLAN e) Reg.ETH_VLAN_VID)
  else none

/-- R327: the destination MAC, first byte on the wire most significant. -/
def destMac (x : Stream) : Nat := (List.range 6).foldl (fun n j => n * 256 + bits x.addr.toNat (8 * j) 8) 0

/-- R296: a frame of a stream sent on a port. -/
def sendFrame (s : State) (e : Nat) (x : Stream) (pcp : Fld) (payload : List Nat) : State :=
  let ip := match streamTransport x with
    | 0 => fget s (Reg.ETH_CLASS e) Reg.ETH_CLASS_ETYPE
    | 1 => x.len
    | _ => x.ip6.toNat
  emit (ethCnt s e 3) (.frame e (destMac x) (frameTag s e pcp) (streamTransport x) ip (x.udpSrc, bits x.addr.toNat 48 16) payload)

/-- R296: SEQ of a port and type, as one number, moves on: the port for notices, 4 more for telemetry. -/
def countFrame (s : State) (k : Nat) : State :=
  { s with hif := { s.hif with frameSeq := tset s.hif.frameSeq 0 k ((tget s.hif.frameSeq 0 k + 1) % 2 ^ 32) } }

/-- R298: the port's telemetry bucket filled up to the present, in 1/8,000 bytes. -/
def tokensNow (s : State) (e : Nat) : Nat :=
  let x := eport s e
  min (max (maxLen s e) (64 * fget s (Reg.ETH_SHAPE e) Reg.ETH_SHAPE_BURST) * 8000)
    (x.tok + max 1 (min (lineRate s e) (fget s (Reg.ETH_SHAPE e) Reg.ETH_SHAPE_RATE)) * (s.up - x.tokAt))

/-- R301: how many bytes of a record one frame takes. -/
def chunkLen (s : State) (e : Nat) (x : Stream) : Nat := maxLen s e - (34 + ipBytes x)

/-- R291, R298: a telemetry frame of a stream leaves: the head of its queue, as much as a frame takes; it is in progress for its bytes at
line rate (notes/assumptions/109). -/
def putFrame (s : State) (e p i : Nat) : State :=
  let x := streamOf s p i
  let body := x.queue.headD []
  let part := body.take (chunkLen s e x)
  let rest := body.drop (chunkLen s e x)
  let n := frameLen s e x (16 + part.length)
  let ep := eport s e
  if tokensNow s e < 8000 * n then
    if ep.telWait then s else setEport (ethCnt s e 10) e { ep with telWait := true }
  else
    let q := tget s.hif.frameSeq 0 (4 + e)
    let s1 := countFrame (sendFrame (ethCnt s e 6) e x Reg.ETH_VLAN_PCP_TEL (telHeader s 2 q (16 * p + i) ++ part)) (4 + e)
    let s2 := setEport s1 e { ep with tok := tokensNow s e - 8000 * n, tokAt := s.up, telWait := false,
                                       telEnd := s.up + divUp (8000 * n) (lineRate s e) }
    setStream s2 p i { x with queue := if rest.isEmpty then x.queue.drop 1 else rest :: x.queue.drop 1 }

/-- R298: the streams of both hosts that send telemetry on a port. -/
def ethReady (s : State) (e : Nat) : List (Nat × Nat) :=
  [0, 1].flatMap (fun p => ((List.range 16).filter (fun i =>
    let x := streamOf s p i
    x.on && decide (x.kind = 2 ∧ x.content ≠ 0 ∧ x.dest % 4 = e) && !x.queue.isEmpty)).map (fun i => (p, i)))

/-- R298: a telemetry frame of a port. -/
def ethTelemetry (s : State) (e : Nat) : State :=
  if halted s ∨ s.restart.inWindow ∨ !ethUp s e ∨ fget s (Reg.ETH_CTRL e) Reg.ETH_CTRL_TEL_EN = 0 then s
  else match pickOne s (ethReady s e) with
    | none => s
    | some (x, s0) => putFrame s0 e x.1 x.2

/-- R298: TELEMETRY_FRAME. -/
def execTelemetryFrame (e : Fin 4) (s : State) : Host.Outcome State Fault Refusal := done s (ethTelemetry s e)

/-- R297: a notice frame of one stream. -/
def noticeFrame (s : State) (e : Nat) (x : Stream) (body : List Nat) : State :=
  countFrame (sendFrame (ethCnt s e 8) e x Reg.ETH_VLAN_PCP_NOTICE (telHeader s 1 (tget s.hif.frameSeq 0 e) 0 ++ body)) e

/-- R297: the streams of both hosts that carry notices on a port. -/
def noticeStreams (s : State) (e : Nat) : List Stream :=
  [0, 1].flatMap (fun p => (((portOf s p).streams.map (·.2)).filter (fun x => x.on && decide (x.content = 0 ∧ x.kind = 2 ∧ x.dest % 4 = e))))

/-- R297, R299: the oldest notice of a port is sent. -/
def noticeOut (s : State) (e : Nat) : State :=
  match tget s.hif.notices [] e with
  | [] => s
  | body :: rest =>
    if s.restart.inWindow ∨ !ethUp s e ∨ fget s (Reg.ETH_CTRL e) Reg.ETH_CTRL_TEL_EN = 0 then s
    else
      let s1 := { s with hif := { s.hif with notices := tset s.hif.notices [] e rest } }
      (noticeStreams s e).foldl (fun s x => noticeFrame s e x body) s1

/-- R297: BELL_NOTICE. -/
def execBellNotice (e : Fin 4) (s : State) : Host.Outcome State Fault Refusal := done s (noticeOut s e)

end Sys2Proof.Machine
end

