-- ==== Sys2Proof/Machine/Dispatch.lean ====
section
/-! DEFINITION. The command table: one arm per constructor, each a direct call of its meaning. -/

namespace Sys2Proof.Machine

def exec (i : Instr) (s : State) : Host.Outcome State Fault Refusal :=
  match i with
  | .sqTail p g ofs v be => Sys2Proof.Machine.execSqTail p g ofs v be s
  | .cqHead p g ofs v be => Sys2Proof.Machine.execCqHead p g ofs v be s
  | .descriptorFetchIssue => Sys2Proof.Machine.execDescriptorFetchIssue s
  | .descriptorFetchComplete p r data => Sys2Proof.Machine.execDescriptorFetchComplete p r data s
  | .dmaReadFailure p r image timeout status poison => Sys2Proof.Machine.execDmaReadFailure p r image timeout status poison s
  | .bell => Sys2Proof.Machine.execBell s
  | .now => Sys2Proof.Machine.execNow s
  | .amend => Sys2Proof.Machine.execAmend s
  | .cancel => Sys2Proof.Machine.execCancel s
  | .chart => Sys2Proof.Machine.execChart s
  | .chartImageFetchComplete p r img => Sys2Proof.Machine.execChartImageFetchComplete p r img s
  | .acquire => Sys2Proof.Machine.execAcquire s
  | .renew => Sys2Proof.Machine.execRenew s
  | .release => Sys2Proof.Machine.execRelease s
  | .armLease => Sys2Proof.Machine.execArmLease s
  | .seize => Sys2Proof.Machine.execSeize s
  | .round => Sys2Proof.Machine.execRound s
  | .sweepRequest => Sys2Proof.Machine.execSweepRequest s
  | .abort => Sys2Proof.Machine.execAbort s
  | .markStale => Sys2Proof.Machine.execMarkStale s
  | .routeCheck => Sys2Proof.Machine.execRouteCheck s
  | .bellState => Sys2Proof.Machine.execBellState s
  | .unRetire => Sys2Proof.Machine.execUnRetire s
  | .promoteOtherHost => Sys2Proof.Machine.execPromoteOtherHost s
  | .telem => Sys2Proof.Machine.execTelem s
  | .echo => Sys2Proof.Machine.execEcho s
  | .heartbeat => Sys2Proof.Machine.execHeartbeat s
  | .pairHoldExpiry => Sys2Proof.Machine.execPairHoldExpiry s
  | .leaseExpiry => Sys2Proof.Machine.execLeaseExpiry s
  | .overlapEnd => Sys2Proof.Machine.execOverlapEnd s
  | .firewatchChallenge => Sys2Proof.Machine.execFirewatchChallenge s
  | .reportCardGrade => Sys2Proof.Machine.execReportCardGrade s
  | .modeWrite m v => Sys2Proof.Machine.execModeWrite m v s
  | .promote m v => Sys2Proof.Machine.execPromote m v s
  | .cardClr m v => Sys2Proof.Machine.execCardClr m v s
  | .hifHalt m v => Sys2Proof.Machine.execHifHalt m v s
  | .ringEnSet m p r v => Sys2Proof.Machine.execRingEnSet m p r v s
  | .ringEnClear m p r v => Sys2Proof.Machine.execRingEnClear m p r v s
  | .hifPcntClr m p v => Sys2Proof.Machine.execHifPcntClr m p v s
  | .hifPcntClrRing m p v => Sys2Proof.Machine.execHifPcntClrRing m p v s
  | .iscMtrRate m idx v => Sys2Proof.Machine.execIscMtrRate m idx v s
  | .completionInterrupt p r => Sys2Proof.Machine.execCompletionInterrupt p r s
  | .statusBlockWrite p => Sys2Proof.Machine.execStatusBlockWrite p s
  | .perst p => Sys2Proof.Machine.execPerst p s
  | .functionLevelReset p => Sys2Proof.Machine.execFunctionLevelReset p s
  | .d3hotEntry p => Sys2Proof.Machine.execD3hotEntry p s
  | .d3hotExit p => Sys2Proof.Machine.execD3hotExit p s
  | .pcieLinkDown p => Sys2Proof.Machine.execPcieLinkDown p s
  | .pcieLinkUp p speed width => Sys2Proof.Machine.execPcieLinkUp p speed width s
  | .streamPeriod p idx => Sys2Proof.Machine.execStreamPeriod p idx s
  | .telemetryRecord p => Sys2Proof.Machine.execTelemetryRecord p s
  | .telemetryFrame e => Sys2Proof.Machine.execTelemetryFrame e s
  | .bellNotice e => Sys2Proof.Machine.execBellNotice e s
  | .readId => Sys2Proof.Machine.execReadId s
  | .readStatus => Sys2Proof.Machine.execReadStatus s
  | .submit d crc => Sys2Proof.Machine.execSubmit d crc s
  | .readCpl complete => Sys2Proof.Machine.execReadCpl complete s
  | .loadChart slot tag img crc => Sys2Proof.Machine.execLoadChart slot tag img crc s
  | .readReg a => Sys2Proof.Machine.execReadReg a s
  | .writeReg a v crc => Sys2Proof.Machine.execWriteReg a v crc s
  | .resetPort gapNs crc1 crc2 => Sys2Proof.Machine.execResetPort gapNs crc1 crc2 s
  | .addr a pecOk => Sys2Proof.Machine.execAddr a pecOk s
  | .read => Sys2Proof.Machine.execRead s
  | .readInc => Sys2Proof.Machine.execReadInc s
  | .write v pecOk => Sys2Proof.Machine.execWrite v pecOk s
  | .writeInc v pecOk => Sys2Proof.Machine.execWriteInc v pecOk s
  | .status => Sys2Proof.Machine.execStatus s
  | .registerWrite m a v be => Sys2Proof.Machine.execRegisterWrite m a v be s
  | .defaultTargetAccess m a wr => Sys2Proof.Machine.execDefaultTargetAccess m a wr s
  | .tmuNowCapture m be => Sys2Proof.Machine.execTmuNowCapture m be s
  | .drvSlotData m t be => Sys2Proof.Machine.execDrvSlotData m t be s
  | .solveStart => Sys2Proof.Machine.execSolveStart s
  | .solveComplete l traceFail => Sys2Proof.Machine.execSolveComplete l traceFail s
  | .xcheckDuplicate => Sys2Proof.Machine.execXcheckDuplicate s
  | .xcheckComplete bad => Sys2Proof.Machine.execXcheckComplete bad s
  | .routeCheckStart => Sys2Proof.Machine.execRouteCheckStart s
  | .routeCheckComplete traceFail => Sys2Proof.Machine.execRouteCheckComplete traceFail s
  | .routeCheckTimeout => Sys2Proof.Machine.execRouteCheckTimeout s
  | .planRequest => Sys2Proof.Machine.execPlanRequest s
  | .kickPreRaise => Sys2Proof.Machine.execKickPreRaise s
  | .kickReturn => Sys2Proof.Machine.execKickReturn s
  | .arm => Sys2Proof.Machine.execArm s
  | .fire seen => Sys2Proof.Machine.execFire seen s
  | .wave2Start => Sys2Proof.Machine.execWave2Start s
  | .playbackEnd t c => Sys2Proof.Machine.execPlaybackEnd t c s
  | .landingCheck cur => Sys2Proof.Machine.execLandingCheck cur s
  | .retryArm => Sys2Proof.Machine.execRetryArm s
  | .retryStrobe => Sys2Proof.Machine.execRetryStrobe s
  | .verifyComplete => Sys2Proof.Machine.execVerifyComplete s
  | .passRelease => Sys2Proof.Machine.execPassRelease s
  | .bellSkip => Sys2Proof.Machine.execBellSkip s
  | .retirement => Sys2Proof.Machine.execRetirement s
  | .spanStart => Sys2Proof.Machine.execSpanStart s
  | .spanEnd => Sys2Proof.Machine.execSpanEnd s
  | .drvEnable m t v => Sys2Proof.Machine.execDrvEnable m t v s
  | .drvRelease m t v => Sys2Proof.Machine.execDrvRelease m t v s
  | .manual m t v => Sys2Proof.Machine.execManual m t v s
  | .parked t => Sys2Proof.Machine.execParked t s
  | .pendingRegisterWrite m t c v => Sys2Proof.Machine.execPendingRegisterWrite m t c v s
  | .drvLoad m t v => Sys2Proof.Machine.execDrvLoad m t v s
  | .slewStep t c => Sys2Proof.Machine.execSlewStep t c s
  | .housekeepingMeasurement t nA uV => Sys2Proof.Machine.execHousekeepingMeasurement t nA uV s
  | .thresholdRecompute t c => Sys2Proof.Machine.execThresholdRecompute t c s
  | .headroomStepUp t c => Sys2Proof.Machine.execHeadroomStepUp t c s
  | .channelFault t c kind => Sys2Proof.Machine.execChannelFault t c kind s
  | .drvTest m t v => Sys2Proof.Machine.execDrvTest m t v s
  | .selftestComplete t result worst element => Sys2Proof.Machine.execSelftestComplete t result worst element s
  | .monEnable m t v => Sys2Proof.Machine.execMonEnable m t v s
  | .gainChange m t j v => Sys2Proof.Machine.execGainChange m t j v s
  | .windowWrite m t j v => Sys2Proof.Machine.execWindowWrite m t j v s
  | .windowHoldEnd t j cur ns => Sys2Proof.Machine.execWindowHoldEnd t j cur ns s
  | .exit t j cur ns => Sys2Proof.Machine.execExit t j cur ns s
  | .scanConversion adc cur recovery => Sys2Proof.Machine.execScanConversion adc cur recovery s
  | .watchBurstStart pair => Sys2Proof.Machine.execWatchBurstStart pair s
  | .watchBurstEnd pair seen => Sys2Proof.Machine.execWatchBurstEnd pair seen s
  | .monDiag m t v => Sys2Proof.Machine.execMonDiag m t v s
  | .diagConversion t cur recovery => Sys2Proof.Machine.execDiagConversion t cur recovery s
  | .adcCalibrationAll m v => Sys2Proof.Machine.execAdcCalibrationAll m v s
  | .adcCalibrationSingle m v => Sys2Proof.Machine.execAdcCalibrationSingle m v s
  | .selfCalibrationComplete res => Sys2Proof.Machine.execSelfCalibrationComplete res s
  | .eventEntry k => Sys2Proof.Machine.execEventEntry k s
  | .timerMatch k n => Sys2Proof.Machine.execTimerMatch k n s
  | .coreWatchdogExpiry k => Sys2Proof.Machine.execCoreWatchdogExpiry k s
  | .coreFault k kind => Sys2Proof.Machine.execCoreFault k kind s
  | .migration => Sys2Proof.Machine.execMigration s
  | .migrationComplete => Sys2Proof.Machine.execMigrationComplete s
  | .neighbourMessage => Sys2Proof.Machine.execNeighbourMessage s
  | .stageComplete k => Sys2Proof.Machine.execStageComplete k s
  | .hookEn m k v => Sys2Proof.Machine.execHookEn m k v s
  | .add k d a b fl => Sys2Proof.Machine.execAdd k d a b fl s
  | .sub k d a b fl => Sys2Proof.Machine.execSub k d a b fl s
  | .adds k d a b fl => Sys2Proof.Machine.execAdds k d a b fl s
  | .subs k d a b fl => Sys2Proof.Machine.execSubs k d a b fl s
  | .and k d a b fl => Sys2Proof.Machine.execAnd k d a b fl s
  | .or k d a b fl => Sys2Proof.Machine.execOr k d a b fl s
  | .xor k d a b fl => Sys2Proof.Machine.execXor k d a b fl s
  | .shl k d a b fl => Sys2Proof.Machine.execShl k d a b fl s
  | .shr k d a b fl => Sys2Proof.Machine.execShr k d a b fl s
  | .asr k d a b fl => Sys2Proof.Machine.execAsr k d a b fl s
  | .min k d a b fl => Sys2Proof.Machine.execMin k d a b fl s
  | .max k d a b fl => Sys2Proof.Machine.execMax k d a b fl s
  | .abs k d a fl => Sys2Proof.Machine.execAbs k d a fl s
  | .neg k d a fl => Sys2Proof.Machine.execNeg k d a fl s
  | .cmp k a b => Sys2Proof.Machine.execCmp k a b s
  | .norm k d a fl => Sys2Proof.Machine.execNorm k d a fl s
  | .addi k d a imm => Sys2Proof.Machine.execAddi k d a imm s
  | .andi k d a imm => Sys2Proof.Machine.execAndi k d a imm s
  | .cmpi k a imm => Sys2Proof.Machine.execCmpi k a imm s
  | .shli k d a imm => Sys2Proof.Machine.execShli k d a imm s
  | .shri k d a imm => Sys2Proof.Machine.execShri k d a imm s
  | .asri k d a imm => Sys2Proof.Machine.execAsri k d a imm s
  | .ldi k d imm => Sys2Proof.Machine.execLdi k d imm s
  | .mul k acc o frac ua ub => Sys2Proof.Machine.execMul k acc o frac ua ub s
  | .mac k acc o frac ua ub => Sys2Proof.Machine.execMac k acc o frac ua ub s
  | .msu k acc o frac ua ub => Sys2Proof.Machine.execMsu k acc o frac ua ub s
  | .mac2 k acc d x y frac ua ub => Sys2Proof.Machine.execMac2 k acc d x y frac ua ub s
  | .cmac k acc d x y frac => Sys2Proof.Machine.execCmac k acc d x y frac s
  | .cmsu k acc d x y frac => Sys2Proof.Machine.execCmsu k acc d x y frac s
  | .mova k d acc n => Sys2Proof.Machine.execMova k d acc n s
  | .clr k acc => Sys2Proof.Machine.execClr k acc s
  | .cmpa k acc d => Sys2Proof.Machine.execCmpa k acc d s
  | .ldA k acc m => Sys2Proof.Machine.execLdA k acc m s
  | .stA k acc m => Sys2Proof.Machine.execStA k acc m s
  | .ldB k d m => Sys2Proof.Machine.execLdB k d m s
  | .ldBu k d m => Sys2Proof.Machine.execLdBu k d m s
  | .ldH k d m => Sys2Proof.Machine.execLdH k d m s
  | .ldHu k d m => Sys2Proof.Machine.execLdHu k d m s
  | .ldW k d m => Sys2Proof.Machine.execLdW k d m s
  | .stB k d m => Sys2Proof.Machine.execStB k d m s
  | .stH k d m => Sys2Proof.Machine.execStH k d m s
  | .stW k d m => Sys2Proof.Machine.execStW k d m s
  | .ld2 k d e x y => Sys2Proof.Machine.execLd2 k d e x y s
  | .mov k r n src => Sys2Proof.Machine.execMov k r n src s
  | .lea k n d imm => Sys2Proof.Machine.execLea k n d imm s
  | .b k tgt => Sys2Proof.Machine.execB k tgt s
  | .bcc k c tgt => Sys2Proof.Machine.execBcc k c tgt s
  | .call k tgt => Sys2Proof.Machine.execCall k tgt s
  | .ret k => Sys2Proof.Machine.execRet k s
  | .rep k count tgt => Sys2Proof.Machine.execRep k count tgt s
  | .nop k => Sys2Proof.Machine.execNop k s
  | .sleep k => Sys2Proof.Machine.execSleep k s
  | .wait k c => Sys2Proof.Machine.execWait k c s
  | .rete k => Sys2Proof.Machine.execRete k s
  | .reth k => Sys2Proof.Machine.execReth k s
  | .movc k wr d csr => Sys2Proof.Machine.execMovc k wr d csr s
  | .inp k d port => Sys2Proof.Machine.execInp k d port s
  | .out k d port => Sys2Proof.Machine.execOut k d port s
  | .load k => Sys2Proof.Machine.execLoad k s
  | .watch k x => Sys2Proof.Machine.execWatch k x s
  | .msg k x y => Sys2Proof.Machine.execMsg k x y s
  | .retire k x => Sys2Proof.Machine.execRetire k x s
  | .stage k x => Sys2Proof.Machine.execStage k x s
  | .post k x => Sys2Proof.Machine.execPost k x s
  | .holdWake t c c0 c1 => Sys2Proof.Machine.execHoldWake t c c0 c1 s
  | .settle t c c0 c1 => Sys2Proof.Machine.execSettle t c c0 c1 s
  | .signchk t c c0 c1 => Sys2Proof.Machine.execSignchk t c c0 c1 s
  | .probeWait t c c0 c1 => Sys2Proof.Machine.execProbeWait t c c0 c1 s
  | .recover t c c0 c1 => Sys2Proof.Machine.execRecover t c c0 c1 s
  | .arriving t c c0 c1 => Sys2Proof.Machine.execArriving t c c0 c1 s
  | .arriveMax t c => Sys2Proof.Machine.execArriveMax t c s
  | .rampStep t c c0 c1 => Sys2Proof.Machine.execRampStep t c c0 c1 s
  | .temp t => Sys2Proof.Machine.execTemp t s
  | .wrapStep t c => Sys2Proof.Machine.execWrapStep t c s
  | .neighbour t => Sys2Proof.Machine.execNeighbour t s
  | .commit t => Sys2Proof.Machine.execCommit t s
  | .holdSummaryRefresh t => Sys2Proof.Machine.execHoldSummaryRefresh t s
  | .passiveMeasurement t c c0 c1 => Sys2Proof.Machine.execPassiveMeasurement t c c0 c1 s
  | .sweep t c => Sys2Proof.Machine.execSweep t c s
  | .dwell t c pairs => Sys2Proof.Machine.execDwell t c pairs s
  | .passRequestRetry t c => Sys2Proof.Machine.execPassRequestRetry t c s
  | .roundMax t => Sys2Proof.Machine.execRoundMax t s
  | .calibrationSwap => Sys2Proof.Machine.execCalibrationSwap s
  | .railEn m k v => Sys2Proof.Machine.execRailEn m k v s
  | .restart m k v => Sys2Proof.Machine.execRestart m k v s
  | .railInRegulation k volt curr => Sys2Proof.Machine.execRailInRegulation k volt curr s
  | .railOutOfRegulation k volt curr => Sys2Proof.Machine.execRailOutOfRegulation k volt curr s
  | .railFail k tripInput => Sys2Proof.Machine.execRailFail k tripInput s
  | .railTargetWrite m k v => Sys2Proof.Machine.execRailTargetWrite m k v s
  | .referenceFallStart k => Sys2Proof.Machine.execReferenceFallStart k s
  | .shutdownRampEnd => Sys2Proof.Machine.execShutdownRampEnd s
  | .periodBoundary n => Sys2Proof.Machine.execPeriodBoundary n s
  | .trip idx => Sys2Proof.Machine.execTrip idx s
  | .perWrite m n v => Sys2Proof.Machine.execPerWrite m n v s
  | .cmpWrite m n v => Sys2Proof.Machine.execCmpWrite m n v s
  | .pwrPwmCommit m n v => Sys2Proof.Machine.execPwrPwmCommit m n v s
  | .brokerLimitWrite m r v => Sys2Proof.Machine.execBrokerLimitWrite m r v s
  | .set m v => Sys2Proof.Machine.execSet m v s
  | .step m v => Sys2Proof.Machine.execStep m v s
  | .timeStep => Sys2Proof.Machine.execTimeStep s
  | .rcArm m v => Sys2Proof.Machine.execRcArm m v s
  | .rcNow m v => Sys2Proof.Machine.execRcNow m v s
  | .rcStop m v => Sys2Proof.Machine.execRcStop m v s
  | .rollCall => Sys2Proof.Machine.execRollCall s
  | .rollCallHeader => Sys2Proof.Machine.execRollCallHeader s
  | .offsetSample k => Sys2Proof.Machine.execOffsetSample k s
  | .waitToRestore => Sys2Proof.Machine.execWaitToRestore s
  | .ppsEdge m falling => Sys2Proof.Machine.execPpsEdge m falling s
  | .ppsWindowExpiry m => Sys2Proof.Machine.execPpsWindowExpiry m s
  | .ppsOut => Sys2Proof.Machine.execPpsOut s
  | .bellPulse n => Sys2Proof.Machine.execBellPulse n s
  | .ethLinkUp e rx tx an speed fec => Sys2Proof.Machine.execEthLinkUp e rx tx an speed fec s
  | .ethLinkDown e => Sys2Proof.Machine.execEthLinkDown e s
  | .sync e m => Sys2Proof.Machine.execSync e m s
  | .followUp e m => Sys2Proof.Machine.execFollowUp e m s
  | .delayReq e m => Sys2Proof.Machine.execDelayReq e m s
  | .delayResp e m => Sys2Proof.Machine.execDelayResp e m s
  | .pdelayReq e m => Sys2Proof.Machine.execPdelayReq e m s
  | .pdelayResp e m => Sys2Proof.Machine.execPdelayResp e m s
  | .pdelayRespFollowUp e m => Sys2Proof.Machine.execPdelayRespFollowUp e m s
  | .announce e m => Sys2Proof.Machine.execAnnounce e m s
  | .signaling e => Sys2Proof.Machine.execSignaling e s
  | .management e get => Sys2Proof.Machine.execManagement e get s
  | .syncInterval e => Sys2Proof.Machine.execSyncInterval e s
  | .delayReqInterval e => Sys2Proof.Machine.execDelayReqInterval e s
  | .announceInterval e => Sys2Proof.Machine.execAnnounceInterval e s
  | .announceReceiptTimeout e => Sys2Proof.Machine.execAnnounceReceiptTimeout e s
  | .arp e target srcMac srcIp => Sys2Proof.Machine.execArp e target srcMac srcIp s
  | .neighbourSolicitation e target srcMac => Sys2Proof.Machine.execNeighbourSolicitation e target srcMac s
  | .esmc e ql => Sys2Proof.Machine.execEsmc e ql s
  | .esmcTimeout => Sys2Proof.Machine.execEsmcTimeout s
  | .sensorPublication raw => Sys2Proof.Machine.execSensorPublication raw s
  | .releaseDwell => Sys2Proof.Machine.execReleaseDwell s
  | .graceExpiry => Sys2Proof.Machine.execGraceExpiry s
  | .recordWrite => Sys2Proof.Machine.execRecordWrite s
  | .force m k v => Sys2Proof.Machine.execForce m k v s
  | .faultInterrupt p => Sys2Proof.Machine.execFaultInterrupt p s
  | .inval m v => Sys2Proof.Machine.execInval m v s
  | .refuse m v => Sys2Proof.Machine.execRefuse m v s
  | .outcome m v => Sys2Proof.Machine.execOutcome m v s
  | .rtsCntClr m v => Sys2Proof.Machine.execRtsCntClr m v s
  | .drvCntClr m t v => Sys2Proof.Machine.execDrvCntClr m t v s
  | .monCntClr m t v => Sys2Proof.Machine.execMonCntClr m t v s
  | .trkCntClr m k v => Sys2Proof.Machine.execTrkCntClr m k v s
  | .calCntClr m v => Sys2Proof.Machine.execCalCntClr m v s
  | .pwrCntClr m v => Sys2Proof.Machine.execPwrCntClr m v s
  | .tmuCntClr m v => Sys2Proof.Machine.execTmuCntClr m v s
  | .ethCntClr m e v => Sys2Proof.Machine.execEthCntClr m e v s
  | .iscCntClr m v => Sys2Proof.Machine.execIscCntClr m v s
  | .fltCntClr m v => Sys2Proof.Machine.execFltCntClr m v s
  | .thmCntClr m v => Sys2Proof.Machine.execThmCntClr m v s
  | .xbrCntClr m v => Sys2Proof.Machine.execXbrCntClr m v s
  | .remap m v => Sys2Proof.Machine.execRemap m v s
  | .xbrSliceWrite m idx v => Sys2Proof.Machine.execXbrSliceWrite m idx v s
  | .xbrParkWrite m k v => Sys2Proof.Machine.execXbrParkWrite m k v s
  | .powerOnReset env => Sys2Proof.Machine.execPowerOnReset env s
  | .bootReady => Sys2Proof.Machine.execBootReady s
  | .supplyLoss => Sys2Proof.Machine.execSupplyLoss s
  | .rstN => Sys2Proof.Machine.execRstN s
  | .watchdogExpiry => Sys2Proof.Machine.execWatchdogExpiry s
  | .glbReset m v => Sys2Proof.Machine.execGlbReset m v s
  | .glbWdogKick m v => Sys2Proof.Machine.execGlbWdogKick m v s
  | .warmRestart selfTest => Sys2Proof.Machine.execWarmRestart selfTest s
  | .laneSelfTest l pass diff => Sys2Proof.Machine.execLaneSelfTest l pass diff s
  | .pipelineResume => Sys2Proof.Machine.execPipelineResume s
  | .doze m v => Sys2Proof.Machine.execDoze m v s
  | .nap m v => Sys2Proof.Machine.execNap m v s
  | .run m v => Sys2Proof.Machine.execRun m v s
  | .powerStateEntry => Sys2Proof.Machine.execPowerStateEntry s
  | .powerStateRefusal => Sys2Proof.Machine.execPowerStateRefusal s
  | .confirm m v => Sys2Proof.Machine.execConfirm m v s
  | .bootCmdStage m v => Sys2Proof.Machine.execBootCmdStage m v s
  | .jwrite m v => Sys2Proof.Machine.execJwrite m v s
  | .journalWriteBack => Sys2Proof.Machine.execJournalWriteBack s
  | .journalWriteComplete ok => Sys2Proof.Machine.execJournalWriteComplete ok s
  | .readPage m v => Sys2Proof.Machine.execReadPage m v s
  | .programPage m v => Sys2Proof.Machine.execProgramPage m v s
  | .eraseBlock m v => Sys2Proof.Machine.execEraseBlock m v s
  | .flashOperationComplete => Sys2Proof.Machine.execFlashOperationComplete s
  | .extest => Sys2Proof.Machine.execExtest s
  | .samplePreload => Sys2Proof.Machine.execSamplePreload s
  | .bypass => Sys2Proof.Machine.execBypass s
  | .idcode => Sys2Proof.Machine.execIdcode s
  | .syncReceiptTimeout e => Sys2Proof.Machine.execSyncReceiptTimeout e s
  | .synceFrequencyLimit inside => Sys2Proof.Machine.execSynceFrequencyLimit inside s
  | .adcConversionTimeout adc => Sys2Proof.Machine.execAdcConversionTimeout adc s
  | .tripInputRelease idx => Sys2Proof.Machine.execTripInputRelease idx s
  | .rstNRelease => Sys2Proof.Machine.execRstNRelease s
  | .vddAuxValid => Sys2Proof.Machine.execVddAuxValid s
  | .pllUnlock idx => Sys2Proof.Machine.execPllUnlock idx s
  | .pllLock idx => Sys2Proof.Machine.execPllLock idx s
  | .ecc2 a inSup => Sys2Proof.Machine.execEcc2 a inSup s
  | .droppedFrame e fcsError => Sys2Proof.Machine.execDroppedFrame e fcsError s
  | .discardedPtpMessage e => Sys2Proof.Machine.execDiscardedPtpMessage e s
  | .tapReset => Sys2Proof.Machine.execTapReset s
  | .functionLevelResetComplete p => Sys2Proof.Machine.execFunctionLevelResetComplete p s
  | .configurationRequest p wr reg v be => Sys2Proof.Machine.execConfigurationRequest p wr reg v be s
  | .esmcTransmission e => Sys2Proof.Machine.execEsmcTransmission e s

end Sys2Proof.Machine
end

