-- ==== Sys2Proof/Safety.lean ====
section
/-! DEFINITION. What counts as a safe state: the sparse tables keep their canonical form and the level outputs follow the
state. -/

namespace Sys2Proof.Machine

/-- The memories' canonical form: addresses strictly rising, no entry equal to what an unlisted address reads as. -/
def Memory.wf (m : Tab Byte) (d : Byte) : Bool := twf (fun _ => d) m

/-- The level outputs follow the state (R330, R358, R377). -/
def outsOk (s : State) : Bool := decide (s.pins.alert = alertNow s) && decide (s.pins.legIrq = !s.spi.cpls.isEmpty)

/-! ## The words of the statements: what a command leaves unchanged -/

/-- The pins of `s` with the two level outputs of `t`. -/
def levels (s t : State) : Pins := { s.pins with alert := t.pins.alert, legIrq := t.pins.legIrq }

/-- A full-word write of a register by a master is carried out: the SPI port's writes are enabled, no protection discards it
(R308, R331, R336, R382, R405). -/
def Reaches (s : State) (m : Master) (a : Nat) : Prop :=
  (m = .leg → fget s Reg.LEG_CTRL Reg.LEG_CTRL_WR_EN = 1) ∧ romBlocks s m a = false ∧ protects s m a = false

/-- Every register outside a list reads in `t` what it read in `s`. -/
def regsBut (A : List Nat) (s t : State) : Prop := ∀ a, a ∉ A → rget t a = rget s a

/-- Nothing but the listed registers and the level outputs differs. -/
def OnlyRegs (A : List Nat) (s t : State) : Prop := t = { s with regs := t.regs, pins := levels s t } ∧ regsBut A s t

/-- Nothing but the level outputs differs: the command has no effect. -/
def NoEffect (s t : State) : Prop := t = { s with pins := levels s t }

/-- A counter of 32 bits has advanced by `n`, or holds its largest value (R366). -/
def Counted (s t : State) (a n : Nat) : Prop := (rget t a).toNat = min ((rget s a).toNat + n) 0xFFFFFFFF

/-- The state in which the descriptor that admission takes next is handled: a reached lease expiry has acted (R345), and the
entry has left the intake. -/
def Taken (s : State) (e : Entry) : State := dropEntry (leaseNow s) e

/-- R61, R339: a shared-type descriptor that is well formed, permitted and new to the journal. -/
def SharedOk (u : State) (e : Entry) : Prop := malformed u e = 0 ∧ permitted u e = true ∧ journalFind u e.order = none

/-- R61, R337: a per-host descriptor that is well formed and permitted. -/
def HostOk (u : State) (e : Entry) : Prop := malformed u e = 0 ∧ ¬ (e.fmt1 = true ∧ dualMode u = 1)

/-- R344: a FENCE or ECHO that is well formed, in active-standby. -/
def FenceOk (u : State) (e : Entry) : Prop := malformed u e = 0 ∧ dualMode u = 2

/-- The registers that a report card's recomputation may change (R349): the cards, and the pending bits of a DUAL message. -/
def cardRegs : List Nat :=
  [Reg.HIF_RCARD 0 0, Reg.HIF_RCARD 0 3, Reg.HIF_RCARD 1 0, Reg.HIF_RCARD 1 3, Reg.HIF_MSIX_PBA 0 0, Reg.HIF_MSIX_PBA 0 1,
   Reg.HIF_MSIX_PBA 1 0, Reg.HIF_MSIX_PBA 1 1]

/-! ## The words of the statements: instructions of a core -/

/-- R213, R222: the core's clock runs and its hook, if it runs one, has budget left: an instruction row acts. -/
def Issues (s : State) (k : Nat) : Prop := issues s k = true ∧ overBudget (cycle s k) k = false

/-- A register of the bank that ran, read in `t`. -/
def bankReg (s t : State) (k i : Nat) : Nat := tget (coreOf t k).rf 0 (64 * (coreOf s k).level + i)

/-- R221, R222: no hook of customer code ends with the next instruction, whatever it is: none runs at the core's level, or no delay slot is
due and the end of customer memory is not reached. -/
def Quiet (s : State) (k : Nat) : Prop :=
  tfind (coreOf s k).hooks (coreOf s k).level = none ∨ ((coreOf s k).ctl = none ∧ (coreOf s k).pc + 4 < 0x8000)

/-- The core goes on in its level: no hook ends, and no SLEEP is due after this instruction. -/
def Stays (s : State) (k : Nat) : Prop := Quiet s k ∧ (coreOf s k).ctl ≠ some .sleep

/-- Nothing of the other cores, the SRAM windows and the bells differs. -/
def CoreAlone (s t : State) (k : Nat) : Prop := (∀ j, j ≠ k → coreOf t j = coreOf s j) ∧ t.mem = s.mem ∧ t.bel = s.bel

/-- What no instruction of a core other than a tile instruction changes, where no hook ends with it: the kernel's work then goes on. -/
def OtherCores (s t : State) (k : Nat) : Prop := Quiet s k → CoreAlone s t k

/-- The instruction completes and a register of the running bank takes the value that the core's state in this cycle gives. -/
def Computes (c : Instr) (k i : Nat) (f : State → Nat) : Prop :=
  ∀ s, Issues s k → ∃ t, exec c s = .next t ∧ bankReg s t k i = f (cycle s k) ∧ OtherCores s t k

/-- R205, R206: the instruction completes and its flags, a value that the relation allows, are on their way to the branches; where a SLEEP or
the end of a hook follows, another level may be entered, and they are there. -/
def SetsFlags (c : Instr) (k : Nat) (f : State → Nat → Prop) : Prop :=
  ∀ s, Issues s k → ∃ t x, exec c s = .next t ∧ f (cycle s k) x ∧ (Stays s k → Late.mk 3 1 0 0 x ∈ (coreOf t k).late) ∧
    (Late.mk 3 1 0 0 x ∈ (coreOf t k).late ∨ (coreOf t k).flags = x) ∧ OtherCores s t k

/-- R205, R206: the instruction completes and a write is on its way, where the core's state in this cycle gives one; where a SLEEP or the
end of a hook follows, another level may be entered, and every write has taken place. -/
def SendsWrite (c : Instr) (k : Nat) (w : State → Option Late) : Prop :=
  ∀ s l, Issues s k → w (cycle s k) = some l →
    ∃ t, exec c s = .next t ∧ (Stays s k → l ∈ (coreOf t k).late) ∧ (l ∈ (coreOf t k).late ∨ (coreOf t k).late = []) ∧ OtherCores s t k

/-- R205: the write of a register of the running bank that takes place after one delay slot, or after two. -/
def regLate (s : State) (k i n v : Nat) : Late := Late.mk (n + 1) 0 (64 * (coreOf s k).level + i) 0 v

end Sys2Proof.Machine
end

