-- ==== Sys2Proof/Certificates/Slice0/Obligations.lean ====
section
/-! DEFINITION. The statements about the device, in the order of the commands that they are about: the queue and the
interface first, then families of commands. Each docstring names the rules that its statement rests on. -/

open Sys2Proof Sys2Proof.Machine

/-- A step takes the command at the front of the queue and runs it on the state with the rest of the queue. (The model's choices in it:
notes/assumptions/77.) -/
def Obligations.StepRunsTheFrontCommand : Prop :=
  ∀ (c : Instr) (rest : List Instr) (s : State), step { s with pending := c :: rest } = exec c { s with pending := rest }

/-- R6, R272, R274: with no command waiting one core clock passes: device TAI advances at its rate, a SET or step whose edge has come applies,
elapsed time advances by 2 ns, and nothing is sent (the model's own reading of an empty queue, notes/assumptions/2). -/
def Obligations.AnEmptyQueueLetsOneClockPass : Prop :=
  ∀ s : State, s.pending = [] → ∃ t, step s = .next t ∧ t.pending = [] ∧ t.up = s.up + 2 ∧ t.mem = s.mem ∧ t.bel = s.bel ∧ t.out = s.out ∧
    (s.tmu.setDue = none → t.now = ((s.now : Int) + 2 * q40 + 2 * s.rho).toNat ∧ t.tmu = s.tmu) ∧
    (∀ e v, s.tmu.setDue = some (e, v) → e ≤ ((s.now : Int) + 2 * q40 + 2 * s.rho).toNat →
      t.now = v + (((s.now : Int) + 2 * q40 + 2 * s.rho).toNat - e) ∧ t.tmu.setDue = none)

/-- No command of the table stops the device, whatever the state: each answers a next state, in which the queue's rest waits unchanged. (The
model's choices in it: notes/assumptions/6.) -/
def Obligations.NoCommandStopsTheDevice : Prop :=
  ∀ (c : Instr) (s : State), ∃ t, exec c s = .next t ∧ t.pending = s.pending

/-- R330, R358, R377: an invariant of every step: SMB_ALERT_N is asserted exactly while its condition holds and LEG_IRQ_N exactly while a
completion waits on the SPI port, from whatever state the step starts. -/
def Obligations.EveryStepSettlesTheLevelOutputs : Prop :=
  ∀ s t : State, step s = .next t → outsOk t = true ∧ t.pending = s.pending.tail

/-- R330, R358: the level outputs follow the state right after reset. (The model's choices in it: notes/assumptions/1.) -/
def Obligations.LevelOutputsHoldAtReset : Prop := outsOk State.reset = true

/-- Commands are taken first in, first out and none is lost: as many steps as commands wait empty any queue, the first of them
running the front command. (The model's choices in it: notes/assumptions/2, 77.) -/
def Obligations.QueuesRunToTheirEnd : Prop :=
  ∀ s : State, ∃ t, Host.Core.run Sys2Proof.core s.pending.length s = .next t ∧ State.pending t = [] ∧
    (∀ c r, s.pending = c :: r → ∃ u, exec c { s with pending := r } = .next u ∧
      Host.Core.run Sys2Proof.core r.length u = .next t)

/-- R15, R26, R404: right after reset every register reads its P value, nothing waits, no bell is accepted, no host holds a lease, no supply is
valid and the clamp holds every heater output. (The model's choices in it: notes/assumptions/1.) -/
def Obligations.ResetHoldsThePowerOnValues : Prop :=
  (∀ a, rget State.reset a = resetWord a) ∧ State.reset.pending = [] ∧ State.reset.bel.bells = [] ∧ State.reset.dual.holder = none ∧
  State.reset.boot.powered = false ∧ State.reset.pins.clamp = true ∧ Memory.wf State.reset.mem 0 = true ∧ servo State.reset = 0 ∧
  srcNow State.reset = 7 ∧ inService State.reset = false

/-- R309, R311, R332: what a write to a doorbell page does, come as SQ_TAIL's row or as CQ_HEAD's: its offset decides. An access that is no
full-word write at offset 0 or 4 counts as discarded and does nothing else; a tail outside the ring counts as a doorbell and stops the ring with
ERR 1, its HEAD unchanged; a good tail becomes the ring's tail; a head becomes HEAD of the completion ring, whose TAIL stays. -/
def Obligations.DoorbellsMoveRingPointers : Prop :=
  (∀ (p : Fin 2) (g : Fin 16) (ofs : BitVec 12) (v : BitVec 32) (be : BitVec 4) (s : State) (c : Instr),
    c = .sqTail p g ofs v be ∨ c = .cqHead p g ofs v be → be ≠ 15#4 ∨ (ofs ≠ 0#12 ∧ ofs ≠ 4#12) →
    ∃ t, exec c s = .next t ∧ OnlyRegs [Reg.HIF_PCNT p 2] s t ∧ Counted s t (Reg.HIF_PCNT p 2) 1) ∧
  (∀ (p : Fin 2) (g : Fin 16) (v : BitVec 32) (s : State) (c : Instr), c = .sqTail p g 0 v 15 ∨ c = .cqHead p g 0 v 15 →
    sqSize s (16 * p + g) ≤ v.toNat % 4096 →
    ∃ t, exec c s = .next t ∧ t = { s with regs := t.regs, pins := levels s t, out := t.out } ∧
      regsBut ([Reg.HIF_PCNT p 1, Reg.HIF_RING_STAT p g] ++ cardRegs) s t ∧
      Counted s t (Reg.HIF_PCNT p 1) 1 ∧ fget t (Reg.HIF_RING_STAT p g) Reg.HIF_RING_STAT_ERR = 1 ∧
      fget t (Reg.HIF_RING_STAT p g) Reg.HIF_RING_STAT_HEAD = fget s (Reg.HIF_RING_STAT p g) Reg.HIF_RING_STAT_HEAD) ∧
  (∀ (p : Fin 2) (g : Fin 16) (v : BitVec 32) (s : State) (c : Instr), c = .sqTail p g 0 v 15 ∨ c = .cqHead p g 0 v 15 →
    v.toNat % 4096 < sqSize s (16 * p + g) →
    ∃ t, exec c s = .next t ∧ (ringOf t (16 * p + g)).tail = v.toNat % 4096 ∧
      (∀ j, j ≠ 16 * p.val + g.val → ringOf t j = ringOf s j) ∧
      t = { s with regs := t.regs, pins := levels s t, hif := { s.hif with rings := t.hif.rings } } ∧
      regsBut [Reg.HIF_PCNT p 1, Reg.HIF_RING_DEPTH p g] s t ∧ Counted s t (Reg.HIF_PCNT p 1) 1) ∧
  (∀ (p : Fin 2) (g : Fin 16) (v : BitVec 32) (s : State) (c : Instr), c = .sqTail p g 4 v 15 ∨ c = .cqHead p g 4 v 15 →
    ∃ t, exec c s = .next t ∧ OnlyRegs [Reg.HIF_PCNT p 1, Reg.HIF_RING_CQT p g] s t ∧
      Counted s t (Reg.HIF_PCNT p 1) 1 ∧ fget t (Reg.HIF_RING_CQT p g) Reg.HIF_RING_CQT_HEAD = v.toNat % 4096 ∧
      fget t (Reg.HIF_RING_CQT p g) Reg.HIF_RING_CQT_TAIL = fget s (Reg.HIF_RING_CQT p g) Reg.HIF_RING_CQT_TAIL)

/-- R322: an idle scheduler answers without a fetch; with URGENT ring 0 of a single port eligible it is chosen; a chosen ring's descriptors are
requested from HEAD on, at least one, and the ring shows a fetch in flight; a chosen SPI queue gives up its first entry. -/
def Obligations.FetchIssueRequestsTheChosenRing : Prop :=
  (∀ s : State, choose (countRed s) 99 0 = none →
    ∃ t, exec .descriptorFetchIssue s = .next t ∧ t = { s with regs := t.regs, pins := levels s t }) ∧
  (∀ s : State, ready s 0 0 = true → ready s 16 0 = false → choose s 99 0 = some 0) ∧
  (∀ s : State, ready s 0 0 = true → ready s 16 0 = true → choose s 99 0 = some (if s.hif.lastUrgent = 0 then 16 else 0)) ∧
  (∀ (s : State) (i : Nat), choose (countRed s) 99 0 = some i → i < 32 →
    ∃ t n, exec .descriptorFetchIssue s = .next t ∧ 1 ≤ n ∧ (ringOf t i).flight = some (n, s.now) ∧
      t.out = s.out ++ [.fetch (i / 16) (i % 16) (fget s (Reg.HIF_RING_STAT (i / 16) (i % 16)) Reg.HIF_RING_STAT_HEAD) n] ∧
      fget t (Reg.HIF_RING_STAT (i / 16) (i % 16)) Reg.HIF_RING_STAT_ACTIVE = 1 ∧
      t = { s with regs := t.regs, pins := levels s t, out := t.out,
                   hif := { s.hif with rings := t.hif.rings, lastUrgent := t.hif.lastUrgent } }) ∧
  (∀ s : State, choose (countRed s) 99 0 = some 32 →
    ∃ t, exec .descriptorFetchIssue s = .next t ∧ t.spi.queue = s.spi.queue.tail)

/-- R109, R304, R311, R313: what a ring's DMA reads bring. A descriptor fetch that completes advances HEAD by the descriptors fetched, counts
them, ends the flight and takes as many new entries into the intake, whose records it owes (said outside active-active, where a pair's record
may leave at once); a failed one ends the flight and stops the ring (ERR 2 a timeout, 3 another failure) and counts, every other ring's tail and
flight unchanged; a chart image arrives at its entry, and a failed image marks it; an answer to no request does nothing. -/
def Obligations.FetchAnswersReachTheRing : Prop :=
  (∀ (p : Fin 2) (r : Fin 16) (data : List (BitVec 512)) (s : State) (n t0 : Nat), (ringOf s (16 * p + r)).flight = some (n, t0) →
    ∃ t, exec (.descriptorFetchComplete p r data) s = .next t ∧ (ringOf t (16 * p + r)).flight = none ∧
      fget t (Reg.HIF_RING_STAT p r) Reg.HIF_RING_STAT_HEAD =
        (fget s (Reg.HIF_RING_STAT p r) Reg.HIF_RING_STAT_HEAD + n) % sqSize s (16 * p + r) ∧
      fget t (Reg.HIF_RING_STAT p r) Reg.HIF_RING_STAT_ACTIVE = 0 ∧ Counted s t (Reg.HIF_PCNT p 0) n ∧
      t.hif.entrySeq = s.hif.entrySeq + n ∧
      (dualMode s ≠ 1 → fget t (Reg.HIF_RING_STAT p r) Reg.HIF_RING_STAT_OWED =
        min (fget s (Reg.HIF_RING_STAT p r) Reg.HIF_RING_STAT_OWED + n) 8191)) ∧
  (∀ (p : Fin 2) (r : Fin 16) (data : List (BitVec 512)) (s : State), (ringOf s (16 * p + r)).flight = none →
    ∃ t, exec (.descriptorFetchComplete p r data) s = .next t ∧ NoEffect s t) ∧
  (∀ (p : Fin 2) (r : Fin 16) (tmo : Bool) (st : BitVec 3) (poison : Bool) (s : State), (ringOf s (16 * p + r)).flight.isSome = true →
    ∃ t, exec (.dmaReadFailure p r false tmo st poison) s = .next t ∧ (ringOf t (16 * p + r)).flight = none ∧
      fget t (Reg.HIF_RING_STAT p r) Reg.HIF_RING_STAT_ERR = (if tmo then 2 else 3) ∧
      fget t (Reg.HIF_RING_STAT p r) Reg.HIF_RING_STAT_ACTIVE = 0 ∧ Counted s t (Reg.HIF_PCNT p (if tmo then 5 else 6)) 1 ∧
      (∀ j, j ≠ 16 * p.val + r.val → (ringOf t j).tail = (ringOf s j).tail ∧ (ringOf t j).flight = (ringOf s j).flight) ∧
      t.mem = s.mem ∧ t.bel = s.bel ∧
      (s.hif.fetched = [] →
        t = { s with regs := t.regs, pins := levels s t, flt := t.flt, out := t.out, hif := { s.hif with rings := t.hif.rings } } ∧
        regsBut ([Reg.HIF_PCNT p (if tmo then 5 else 6), Reg.HIF_RING_STAT p r, Reg.FLT_LOST (srcHif p / 32), Reg.FLT_CNT 1] ++
          cardRegs) s t)) ∧
  (∀ (p : Fin 2) (r : Fin 16) (image tmo : Bool) (st : BitVec 3) (poison : Bool) (s : State),
    (if image then imageEntry s (16 * p + r) = none else (ringOf s (16 * p + r)).flight = none) →
    ∃ t, exec (.dmaReadFailure p r image tmo st poison) s = .next t ∧ NoEffect s t) ∧
  (∀ (p : Fin 2) (r : Fin 16) (tmo : Bool) (st : BitVec 3) (poison : Bool) (s : State) (e : Entry),
    imageEntry s (16 * p + r) = some e →
    ∃ t, exec (.dmaReadFailure p r true tmo st poison) s = .next t ∧
      (∃ x ∈ t.hif.fetched, x.seq = e.seq ∧ x.imgErr = true ∧ x.imgWait = false) ∧
      Counted s t (Reg.HIF_PCNT p (if tmo then 5 else 6)) 1) ∧
  (∀ (p : Fin 2) (r : Fin 16) (img : BitVec 8192) (s : State) (e : Entry), imageEntry s (16 * p + r) = some e →
    ∃ t, exec (.chartImageFetchComplete p r img) s = .next t ∧
      (∃ x ∈ t.hif.fetched, x.seq = e.seq ∧ x.img = some img ∧ x.imgWait = false) ∧
      t = { s with regs := t.regs, pins := levels s t, hif := t.hif, out := t.out }) ∧
  (∀ (p : Fin 2) (r : Fin 16) (img : BitVec 8192) (s : State), imageEntry s (16 * p + r) = none →
    ∃ t, exec (.chartImageFetchComplete p r img) s = .next t ∧ NoEffect s t)

/-- R302, R306, R332: what the PCIe events of a port do. PERST and a function-level reset reset the port's host domain and not the other port's
rings; the link's fields follow the link; owed records are written once the port can be written to. -/
def Obligations.PcieEventsResetTheHostDomain : Prop :=
  (∀ (p : Fin 2) (s : State), s.boot.powered = true →
    ∃ t, exec (.perst p) s = .next t ∧ fget t (Reg.HIF_PSTATUS p) Reg.HIF_PSTATUS_LINK = 0 ∧ (portOf t p).msixEn = false ∧
      (∀ r : Fin 16, (ringOf t (16 * p + r)).tail = 0 ∧ (ringOf t (16 * p + r)).doors = [] ∧ (ringOf t (16 * p + r)).flight = none) ∧
      (∀ j, j / 16 ≠ p.val → ringOf t j = ringOf s j) ∧ t.mem = s.mem) ∧
  (∀ (p : Fin 2) (s : State), s.boot.powered = false → ∃ t, exec (.perst p) s = .next t ∧ NoEffect s t) ∧
  (∀ (p : Fin 2) (s : State),
    ∃ t, exec (.functionLevelReset p) s = .next t ∧ fget t (Reg.HIF_PSTATUS p) Reg.HIF_PSTATUS_FLR_BUSY = 1 ∧
      (portOf t p).msixEn = false ∧
      (∀ r : Fin 16, (ringOf t (16 * p + r)).tail = 0 ∧ (ringOf t (16 * p + r)).doors = [] ∧ (ringOf t (16 * p + r)).flight = none) ∧
      (∀ j, j / 16 ≠ p.val → ringOf t j = ringOf s j) ∧ t.mem = s.mem) ∧
  (∀ (p : Fin 2) (s : State),
    ∃ t, exec (.functionLevelResetComplete p) s = .next t ∧ OnlyRegs [Reg.HIF_PSTATUS p] s t ∧
      fget t (Reg.HIF_PSTATUS p) Reg.HIF_PSTATUS_FLR_BUSY = 0 ∧
      fget t (Reg.HIF_PSTATUS p) Reg.HIF_PSTATUS_LINK = fget s (Reg.HIF_PSTATUS p) Reg.HIF_PSTATUS_LINK) ∧
  (∀ (p : Fin 2) (s : State),
    ∃ t, exec (.d3hotEntry p) s = .next t ∧ OnlyRegs [Reg.HIF_PSTATUS p] s t ∧ fget t (Reg.HIF_PSTATUS p) Reg.HIF_PSTATUS_D3 = 1 ∧
      fget t (Reg.HIF_PSTATUS p) Reg.HIF_PSTATUS_LINK = fget s (Reg.HIF_PSTATUS p) Reg.HIF_PSTATUS_LINK) ∧
  (∀ (p : Fin 2) (s : State), fget s (Reg.HIF_PSTATUS p) Reg.HIF_PSTATUS_D3 = 1 →
    ∃ t, exec (.d3hotExit p) s = .next t ∧ fget t (Reg.HIF_PSTATUS p) Reg.HIF_PSTATUS_D3 = 0 ∧
      (∀ x ∈ t.hif.waiting, x.dst / 16 ≠ p.val) ∧ t.mem = s.mem ∧
      ((portOf s p).noSoftReset = false → (portOf t p).msixEn = false)) ∧
  (∀ (p : Fin 2) (s : State),
    ∃ t, exec (.pcieLinkDown p) s = .next t ∧ fget t (Reg.HIF_PSTATUS p) Reg.HIF_PSTATUS_LINK = 0 ∧
      fget t (Reg.HIF_PSTATUS p) Reg.HIF_PSTATUS_SPEED = 0 ∧ fget t (Reg.HIF_PSTATUS p) Reg.HIF_PSTATUS_WIDTH = 0 ∧
      fget t (Reg.HIF_RCARD p 0) Reg.HIF_RCARD_GRADE = 3 ∧ t = { s with regs := t.regs, pins := levels s t, out := t.out } ∧
      regsBut (Reg.HIF_PSTATUS p :: cardRegs) s t) ∧
  (∀ (p : Fin 2) (speed width : BitVec 3) (s : State),
    ∃ t, exec (.pcieLinkUp p speed width) s = .next t ∧ fget t (Reg.HIF_PSTATUS p) Reg.HIF_PSTATUS_LINK = 1 ∧
      fget t (Reg.HIF_PSTATUS p) Reg.HIF_PSTATUS_SPEED = speed.toNat ∧ fget t (Reg.HIF_PSTATUS p) Reg.HIF_PSTATUS_WIDTH = width.toNat ∧
      (∀ x ∈ t.hif.waiting, x.dst / 16 ≠ p.val) ∧ t.mem = s.mem)

/-- R305, R308, R315, R329: the messages and answers of a port: a due completion interrupt is sent, or held pending while the function or its
vector is masked or the port cannot be written to; one that is not due does nothing; a waiting status block write is sent and numbered, and without
one nothing is; a configuration request is answered with retry status before the device is powered, with a word on a read, and a write stores its
enabled bytes in every register but the two read-only ones and is answered. (The model's choices in it: notes/assumptions/14, 15, 16.) -/
def Obligations.PortMessagesAndConfiguration : Prop :=
  (∀ (p : Fin 2) (r : Fin 16) (s : State), irqDue s (16 * p + r) = true → (portOf s p).msixEn = true → (portOf s p).msixMask = false →
    portUp s p = true →
    fget s (Reg.HIF_MSIX_CTRL p (fget s (Reg.HIF_RING_CFG p r) Reg.HIF_RING_CFG_VEC)) Reg.HIF_MSIX_CTRL_MASK = 0 →
    ∃ t, exec (.completionInterrupt p r) s = .next t ∧
      t.out = s.out ++ [.msix p (fget s (Reg.HIF_RING_CFG p r) Reg.HIF_RING_CFG_VEC)] ∧ (ringOf t (16 * p + r)).irqN = 0 ∧
      (∀ j, j ≠ 16 * p.val + r.val → ringOf t j = ringOf s j) ∧
      t = { s with pins := levels s t, out := t.out, hif := { s.hif with rings := t.hif.rings } }) ∧
  (∀ (p : Fin 2) (r : Fin 16) (s : State), irqDue s (16 * p + r) = true → (portOf s p).msixEn = true →
    (portOf s p).msixMask = true ∨ portUp s p = false ∨
      fget s (Reg.HIF_MSIX_CTRL p (fget s (Reg.HIF_RING_CFG p r) Reg.HIF_RING_CFG_VEC)) Reg.HIF_MSIX_CTRL_MASK = 1 →
    ∃ t, exec (.completionInterrupt p r) s = .next t ∧ t.out = s.out ∧ (ringOf t (16 * p + r)).irqN = 0 ∧
      (let v := fget s (Reg.HIF_RING_CFG p r) Reg.HIF_RING_CFG_VEC
       rbit t (Reg.HIF_MSIX_PBA p (v / 32)) (v % 32) = true ∧ regsBut [Reg.HIF_MSIX_PBA p (v / 32)] s t)) ∧
  (∀ (p : Fin 2) (r : Fin 16) (s : State), irqDue s (16 * p + r) = false →
    ∃ t, exec (.completionInterrupt p r) s = .next t ∧ NoEffect s t) ∧
  (∀ (p : Fin 2) (s : State), (portOf s p).sblkDirty.isSome = true → fget s (Reg.HIF_SBLK_LO p) Reg.HIF_SBLK_LO_EN = 1 →
    portUp s p = true →
    ∃ t, exec (.statusBlockWrite p) s = .next t ∧ t.out = s.out ++ [.statusBlock p (sblkBytes s p)] ∧
      portOf t p = { portOf s p with sblkDirty := none, sblkSeq := ((portOf s p).sblkSeq + 1) % 2 ^ 32 } ∧
      portOf t (1 - p) = portOf s (1 - p) ∧ regsBut [] s t ∧ t.mem = s.mem) ∧
  (∀ (p : Fin 2) (s : State), (portOf s p).sblkDirty = none ∨ fget s (Reg.HIF_SBLK_LO p) Reg.HIF_SBLK_LO_EN = 0 ∨ portUp s p = false →
    ∃ t, exec (.statusBlockWrite p) s = .next t ∧ NoEffect s t) ∧
  (∀ (p : Fin 2) (wr : Bool) (reg : BitVec 12) (v : BitVec 32) (be : BitVec 4) (s : State), s.boot.powered = false →
    ∃ t, exec (.configurationRequest p wr reg v be) s = .next t ∧ t = { s with pins := levels s t, out := s.out ++ [.config p true 0] }) ∧
  (∀ (p : Fin 2) (reg : BitVec 12) (v : BitVec 32) (be : BitVec 4) (s : State), s.boot.powered = true →
    ∃ t, exec (.configurationRequest p false reg v be) s = .next t ∧
      t = { s with pins := levels s t, out := s.out ++ [.config p false (configWord s p (reg.toNat / 4 * 4))] }) ∧
  (∀ (p : Fin 2) (reg : BitVec 12) (v : BitVec 32) (be : BitVec 4) (s : State), s.boot.powered = true →
    ∃ t l, exec (.configurationRequest p true reg v be) s = .next t ∧ t.out = s.out ++ .config p false 0 :: l ∧
      (∀ a, configWord t p a = if a = reg.toNat / 4 * 4 ∧ a ≠ 0 ∧ a ≠ 8
        then BitVec.ofNat 32 (mergeBytes (configWord s p a).toNat v.toNat be.toNat) else configWord s p a) ∧ t.mem = s.mem)

/-- R330, R331: the forerunner SPI port while it is enabled. A good SUBMIT or LOAD_CHART with room joins the queue as a format 1 descriptor; a
frame whose CRC-16 does not match is discarded and leaves LAST_NAK; without room QFULL and LAST_NAK are set; READ_CPL returns the oldest record
and removes it after a complete read; RESET_PORT within 1 ms empties both queues and keeps the accepted bells; READ_ID and READ_STATUS answer.
(The model's choices in it: notes/assumptions/60.) -/
def Obligations.SpiFramesQueueAndAnswer : Prop :=
  (∀ (d : BitVec 256) (crc : BitVec 16) (s : State), fget s Reg.LEG_CTRL Reg.LEG_CTRL_EN = 1 →
    crc16 (0x02 :: leBytes d.toNat 32) = crc.toNat → spiRoom s = true →
    ∃ t e, exec (.submit d crc) s = .next t ∧ t.spi.queue = s.spi.queue ++ [e] ∧ e.raw.toNat = d.toNat ∧ e.src = 32 ∧ e.fmt1 = true ∧
      e.img = none ∧ t.spi.owed = s.spi.owed + 1 ∧ t.spi.qfull = false ∧ Counted s t (Reg.LEG_CNT 2) 1 ∧
      fget t Reg.LEG_STATUS Reg.LEG_STATUS_LAST_NAK = 0 ∧
      regsBut [Reg.LEG_CNT 0, Reg.LEG_CNT 2, Reg.LEG_STATUS] s t ∧ t.mem = s.mem) ∧
  (∀ (slot : BitVec 16) (tag : BitVec 32) (img : BitVec 8192) (crc : BitVec 16) (s : State), fget s Reg.LEG_CTRL Reg.LEG_CTRL_EN = 1 →
    crc16 (0x20 :: (beBytes slot.toNat 2 ++ beBytes tag.toNat 4 ++ leBytes img.toNat 1024)) = crc.toNat → spiRoom s = true →
    ∃ t e, exec (.loadChart slot tag img crc) s = .next t ∧ t.spi.queue = s.spi.queue ++ [e] ∧ e.img = some img ∧ e.src = 32 ∧
      dB e.raw 2 2 = slot.toNat ∧ dB e.raw 4 4 = tag.toNat ∧ Counted s t (Reg.LEG_CNT 2) 1) ∧
  (∀ (d : BitVec 256) (crc : BitVec 16) (s : State), fget s Reg.LEG_CTRL Reg.LEG_CTRL_EN = 1 →
    crc16 (0x02 :: leBytes d.toNat 32) ≠ crc.toNat →
    ∃ t, exec (.submit d crc) s = .next t ∧ OnlyRegs [Reg.LEG_CNT 0, Reg.LEG_CNT 1, Reg.LEG_STATUS] s t ∧
      fget t Reg.LEG_STATUS Reg.LEG_STATUS_LAST_NAK = 1 ∧ Counted s t (Reg.LEG_CNT 1) 1) ∧
  (∀ (d : BitVec 256) (crc : BitVec 16) (s : State), fget s Reg.LEG_CTRL Reg.LEG_CTRL_EN = 1 →
    crc16 (0x02 :: leBytes d.toNat 32) = crc.toNat → spiRoom s = false →
    ∃ t, exec (.submit d crc) s = .next t ∧ t.spi.queue = s.spi.queue ∧ t.spi.qfull = true ∧
      fget t Reg.LEG_STATUS Reg.LEG_STATUS_LAST_NAK = 1) ∧
  (∀ (d : BitVec 256) (crc : BitVec 16) (s : State), fget s Reg.LEG_CTRL Reg.LEG_CTRL_EN = 0 →
    ∃ t, exec (.submit d crc) s = .next t ∧ NoEffect s t) ∧
  (∀ (c : BitVec 256) (rest : List (BitVec 256)) (s : State), fget s Reg.LEG_CTRL Reg.LEG_CTRL_EN = 1 → s.spi.cpls = c :: rest →
    ∃ t, exec (.readCpl true) s = .next t ∧ t.spi.cpls = rest ∧
      t.out = s.out ++ [.spi (leBytes c.toNat 32 ++ beBytes (crc16 (leBytes c.toNat 32)) 2)] ∧ Counted s t (Reg.LEG_CNT 3) 1) ∧
  (∀ (c : BitVec 256) (rest : List (BitVec 256)) (s : State), fget s Reg.LEG_CTRL Reg.LEG_CTRL_EN = 1 → s.spi.cpls = c :: rest →
    ∃ t, exec (.readCpl false) s = .next t ∧ t.spi = s.spi) ∧
  (∀ (gap : Nat) (s : State), fget s Reg.LEG_CTRL Reg.LEG_CTRL_EN = 1 → gap ≤ 1000000 →
    ∃ t, exec (.resetPort gap (BitVec.ofNat 16 (crc16 [0x66])) (BitVec.ofNat 16 (crc16 [0x99]))) s = .next t ∧ t.spi.queue = [] ∧
      t.spi.cpls = [] ∧ t.spi.owed = 0 ∧ fget t Reg.LEG_STATUS Reg.LEG_STATUS_QLEN = 0 ∧
      fget t Reg.LEG_STATUS Reg.LEG_STATUS_CPLS = 0 ∧ t.bel.bells.map (·.t) = s.bel.bells.map (·.t)) ∧
  (∀ s : State, fget s Reg.LEG_CTRL Reg.LEG_CTRL_EN = 1 →
    ∃ t, exec .readId s = .next t ∧ regsBut [Reg.LEG_CNT 0] s t ∧ Counted s t (Reg.LEG_CNT 0) 1 ∧
      t.out = s.out ++ [.spi (beBytes (rget s Reg.GLB_ID).toNat 4 ++ beBytes (crc16 (beBytes (rget s Reg.GLB_ID).toNat 4)) 2)]) ∧
  (∀ s : State, ∃ t, exec .readStatus s = .next t ∧ regsBut [Reg.LEG_CNT 0] s t ∧
      t.out = s.out ++ [.spi [b2n (!s.spi.cpls.isEmpty) + 2 * b2n s.spi.qfull + 4 * fget s Reg.LEG_STATUS Reg.LEG_STATUS_LAST_NAK +
        8 * b2n (halted s) + 16 * b2n (decide (fget s Reg.LEG_CTRL Reg.LEG_CTRL_EN ≠ 1))]])

/-- R330, R331, R406: the two narrow ports read and write the device address space as masters LEG and MNT: what they return is the word read at
the address, and a write does what the same write by that master does. (The model's choices in it: notes/assumptions/60, 61, 62.) -/
def Obligations.NarrowPortsReachTheAddressSpace : Prop :=
  (∀ (a : BitVec 24) (s : State), fget s Reg.LEG_CTRL Reg.LEG_CTRL_EN = 1 →
    ∃ t, exec (.readReg a) s = .next t ∧
      (let w := (busRead (bump s (Reg.LEG_CNT 0)) .leg a.toNat).2
       t.out = s.out ++ [.spi (beBytes w.toNat 4 ++ beBytes (crc16 (beBytes w.toNat 4)) 2)])) ∧
  (∀ (a : BitVec 24) (v : BitVec 32) (crc : BitVec 16) (s : State), fget s Reg.LEG_CTRL Reg.LEG_CTRL_EN = 1 →
    crc16 (0x12 :: (beBytes a.toNat 3 ++ beBytes v.toNat 4)) = crc.toNat →
    ∃ t, exec (.writeReg a v crc) s = .next t ∧
      exec (.registerWrite .leg a v 15) (fset (bump s (Reg.LEG_CNT 0)) Reg.LEG_STATUS Reg.LEG_STATUS_LAST_NAK 0) = .next t) ∧
  (∀ (a : BitVec 24) (s : State),
    ∃ t, exec (.addr a true) s = .next t ∧ t = { s with pins := levels s t, mnt := { s.mnt with addr := a.toNat / 4 * 4 } }) ∧
  (∀ (a : BitVec 24) (s : State),
    ∃ t, exec (.addr a false) s = .next t ∧ t = { s with pins := levels s t, mnt := { s.mnt with pec := true } }) ∧
  (∀ s : State, ∃ t, exec .read s = .next t ∧ t.mnt.addr = s.mnt.addr ∧
      t.out = s.out ++ [.data .mnt (busRead s .mnt s.mnt.addr).2]) ∧
  (∀ s : State, ∃ t, exec .readInc s = .next t ∧ t.mnt.addr = (s.mnt.addr + 4) % 2 ^ 24 / 4 * 4 ∧
      t.out = s.out ++ [.data .mnt (busRead s .mnt s.mnt.addr).2]) ∧
  (∀ (v : BitVec 32) (s : State), s.mnt.addr < 2 ^ 24 →
    ∃ t, exec (.write v true) s = .next t ∧ exec (.registerWrite .mnt (BitVec.ofNat 24 s.mnt.addr) v 15) s = .next t) ∧
  (∀ (v : BitVec 32) (s : State),
    ∃ t, exec (.write v false) s = .next t ∧ t = { s with pins := levels s t, mnt := { s.mnt with pec := true } }) ∧
  (∀ (v : BitVec 32) (s : State), s.mnt.addr < 2 ^ 24 →
    ∃ t u, exec (.writeInc v true) s = .next t ∧ exec (.registerWrite .mnt (BitVec.ofNat 24 s.mnt.addr) v 15) s = .next u ∧
      t = { u with mnt := { u.mnt with addr := (s.mnt.addr + 4) % 2 ^ 24 / 4 * 4 } }) ∧
  (∀ s : State, ∃ t, exec .status s = .next t ∧
      t = { s with pins := levels s t, mnt := { s.mnt with err := false, pec := false, refused := false },
                   out := s.out ++ [.mntStatus (2 * b2n s.mnt.err + 4 * b2n s.mnt.pec + 8 * b2n s.mnt.refused)] })

/-- R296 to R298, R327, R328: telemetry. A stream of CONTENT 2, 3 or 4 whose period has passed queues its record (6,144 bytes for CONTENT 2
and 3, its words for CONTENT 4) and moves on by the period, and before that does nothing; a host-memory record leaves once the bucket holds it,
with the stream's SEQ moved on; a telemetry frame leaves with its tokens, takes its record off the queue and moves the port's SEQ on, and one
without tokens waits and is counted once; the oldest notice of a port is sent on the stream that carries notices there. (The model's choices in
it: notes/assumptions/58, 59.) -/
def Obligations.TelemetryRecordsAreQueuedAndSent : Prop :=
  (∀ (p : Fin 2) (i : Fin 16) (s : State), (streamOf s p i).on = true → 2 ≤ (streamOf s p i).content → (streamOf s p i).next ≤ s.up →
    s.boot.powered = true → s.restart.inWindow = false → halted s = false →
    ∃ t body, exec (.streamPeriod p i) s = .next t ∧ (streamOf t p i).next = (streamOf s p i).next + 1000 * (streamOf s p i).period ∧
      (streamOf t p i).queue = (streamOf s p i).queue ++ [body] ∧ t.mem = s.mem ∧
      (if (streamOf s p i).content ≤ 3 then body.length = 6144 ∧ regsBut [] s t else body.length = 4 * (streamOf s p i).words)) ∧
  (∀ (p : Fin 2) (i : Fin 16) (s : State), s.up < (streamOf s p i).next → ∃ t, exec (.streamPeriod p i) s = .next t ∧ NoEffect s t) ∧
  (∀ (p : Fin 2) (i : Fin 16) (body : List Nat) (rest : List (List Nat)) (s : State), halted s = false → s.restart.inWindow = false →
    portUp s p = true → (streamOf s p i).on = true → (streamOf s p i).kind = 1 → (streamOf s p i).queue = body :: rest →
    (∀ j : Fin 16, j ≠ i → (streamOf s p j).on = false ∨ (streamOf s p j).kind ≠ 1 ∨ (streamOf s p j).queue = []) →
    recordLen body ≤ (streamOf s p i).len → 1000 * recordLen body ≤ bucketNow s p →
    ∃ t ofs bytes, exec (.telemetryRecord p) s = .next t ∧ (streamOf t p i).queue = rest ∧
      (streamOf t p i).seq = ((streamOf s p i).seq + 1) % 2 ^ 32 ∧ Output.stream p i ofs bytes ∈ t.out ∧ bytes.length = recordLen body ∧
      ofs + recordLen body ≤ (streamOf s p i).len ∧ Counted s t (Reg.HIF_PCNT p 7) (recordLen body / 64) ∧
      regsBut [Reg.HIF_PCNT p 7] s t ∧ t.mem = s.mem) ∧
  (∀ (e : Fin 4) (p : Fin 2) (i : Fin 16) (body : List Nat) (rest : List (List Nat)) (s : State), halted s = false →
    s.restart.inWindow = false → ethUp s e = true → fget s (Reg.ETH_CTRL e) Reg.ETH_CTRL_TEL_EN = 1 → ethReady s e = [(p.val, i.val)] →
    (streamOf s p i).queue = body :: rest → body.length ≤ chunkLen s e (streamOf s p i) →
    8000 * frameLen s e (streamOf s p i) (16 + body.length) ≤ tokensNow s e →
    ∃ t, exec (.telemetryFrame e) s = .next t ∧ (streamOf t p i).queue = rest ∧
      tget t.hif.frameSeq 0 (4 + e) = (tget s.hif.frameSeq 0 (4 + e) + 1) % 2 ^ 32 ∧ Counted s t (Reg.ETH_CNT e 6) 1 ∧
      (eport t e).tok = tokensNow s e - 8000 * frameLen s e (streamOf s p i) (16 + body.length) ∧
      t.out.length = s.out.length + 1 ∧ t.mem = s.mem) ∧
  (∀ (e : Fin 4) (p : Fin 2) (i : Fin 16) (body : List Nat) (rest : List (List Nat)) (s : State), halted s = false →
    s.restart.inWindow = false → ethUp s e = true → fget s (Reg.ETH_CTRL e) Reg.ETH_CTRL_TEL_EN = 1 → ethReady s e = [(p.val, i.val)] →
    (streamOf s p i).queue = body :: rest → body.length ≤ chunkLen s e (streamOf s p i) →
    tokensNow s e < 8000 * frameLen s e (streamOf s p i) (16 + body.length) →
    ∃ t, exec (.telemetryFrame e) s = .next t ∧ (streamOf t p i).queue = body :: rest ∧ t.out = s.out ∧ (eport t e).telWait = true ∧
      Counted s t (Reg.ETH_CNT e 10) (if (eport s e).telWait then 0 else 1)) ∧
  (∀ (e : Fin 4) (body : List Nat) (rest : List (List Nat)) (x : Stream) (s : State), s.restart.inWindow = false → ethUp s e = true →
    fget s (Reg.ETH_CTRL e) Reg.ETH_CTRL_TEL_EN = 1 → tget s.hif.notices [] e = body :: rest → noticeStreams s e = [x] →
    ∃ t, exec (.bellNotice e) s = .next t ∧ tget t.hif.notices [] e = rest ∧
      tget t.hif.frameSeq 0 e = (tget s.hif.frameSeq 0 e + 1) % 2 ^ 32 ∧ Counted s t (Reg.ETH_CNT e 8) 1 ∧
      t.out.length = s.out.length + 1 ∧ t.mem = s.mem)

/-- R56, R57, R61 to R65: a BELL or NOW that passes every test and gets its hall pass enters the timetable at the entry that it takes, waiting
for its solve, with its order number, instant and slot (a NOW at the first candidate that passes); one that fails the lead, the spacing or the
solver test, or a NOW without a passing candidate, adds no bell, and a BELL's refusal by one of these tests is counted. (The model's choices in
it: notes/assumptions/87, 88.) -/
def Obligations.AcceptedBellsEnterTheTimetable : Prop :=
  (∀ (s : State) (e : Entry), nextEntry s = some e → eType e = tyBell → SharedOk (Taken s e) e →
    loaded (Taken s e) (eSlot e) = true → pendingBells (Taken s e) < 4096 →
    eInstant (Taken s e) e * q40 ≤ eIn (Taken s e) e + 3600000000000 * q40 → leadOk (eIn (Taken s e) e) (eInstant (Taken s e) e) = true →
    spacingOk (Taken s e) (timetable (Taken s e)) (eInstant (Taken s e) e) = true →
    solverOk (Taken s e) (timetable (Taken s e)) e (eInstant (Taken s e) e) = true →
    (hallPass (takeIdx (Taken s e)).1 (takeIdx (Taken s e)).2 (eInstant (Taken s e) e)).2.1 = 0 →
    ∃ t, exec .bell s = .next t ∧ ∃ b ∈ t.bel.bells, b.idx = (takeIdx (Taken s e)).2 ∧ b.order = e.order ∧
      b.t = eInstant (Taken s e) e ∧ b.slot = eSlot e ∧ b.st = 1 ∧ b.now = false) ∧
  (∀ (s : State) (e : Entry) (w : Nat), nextEntry s = some e → eType e = tyNow → SharedOk (Taken s e) e →
    loaded (Taken s e) (eSlot e) = true → pendingBells (Taken s e) < 4096 →
    nowWalk (Taken s e) e (max 20 (fget (Taken s e) Reg.BEL_NOW Reg.BEL_NOW_WINDOW)) 9000
      (gridAfter (eIn (Taken s e) e + 20000 * q40)) = (w, 0) →
    (hallPass (takeIdx (Taken s e)).1 (takeIdx (Taken s e)).2 w).2.1 = 0 →
    ∃ t, exec .now s = .next t ∧ ∃ b ∈ t.bel.bells, b.idx = (takeIdx (Taken s e)).2 ∧ b.order = e.order ∧ b.t = w ∧
      b.slot = eSlot e ∧ b.st = 1 ∧ b.now = true) ∧
  (∀ (s : State) (e : Entry) (k : Nat), nextEntry s = some e → eType e = tyBell → SharedOk (Taken s e) e →
    loaded (Taken s e) (eSlot e) = true → pendingBells (Taken s e) < 4096 →
    eInstant (Taken s e) e * q40 ≤ eIn (Taken s e) e + 3600000000000 * q40 →
    (if leadOk (eIn (Taken s e) e) (eInstant (Taken s e) e) = false then k = 0
     else if spacingOk (Taken s e) (timetable (Taken s e)) (eInstant (Taken s e) e) = false then k = 1
     else solverOk (Taken s e) (timetable (Taken s e)) e (eInstant (Taken s e) e) = false ∧ k = 2) →
    ∃ t, exec .bell s = .next t ∧ t.bel.bells = s.bel.bells ∧ Counted s t (Reg.BEL_REFUSE k) 1) ∧
  (∀ (s : State) (e : Entry) (w st : Nat), nextEntry s = some e → eType e = tyNow → SharedOk (Taken s e) e →
    loaded (Taken s e) (eSlot e) = true → pendingBells (Taken s e) < 4096 → st ≠ 0 →
    nowWalk (Taken s e) e (max 20 (fget (Taken s e) Reg.BEL_NOW Reg.BEL_NOW_WINDOW)) 9000
      (gridAfter (eIn (Taken s e) e + 20000 * q40)) = (w, st) →
    ∃ t, exec .now s = .next t ∧ t.bel.bells = s.bel.bells)

/-- R58, R59, R62, R83: an AMEND that passes every test gives its bell the new instant, slot, quiet flag and outputs under the same entry and
order number; a CANCEL in time takes its bell out of the timetable; an AMEND or CANCEL that comes too late changes no bell and is counted. -/
def Obligations.AmendAndCancelChangeTheirBell : Prop :=
  (∀ (s : State) (e : Entry) (b : Bell), nextEntry s = some e → eType e = tyAmend → SharedOk (Taken s e) e →
    loaded (Taken s e) (eSlot e) = true → targetOf (Taken s e) e = some b →
    eInstant (Taken s e) e * q40 ≤ eIn (Taken s e) e + 3600000000000 * q40 →
    leadOk (eIn (Taken s e) e) (min b.t (eInstant (Taken s e) e)) = true →
    spacingOk (Taken s e) ((timetable (Taken s e)).filter (fun x => !decide (x.idx = b.idx))) (eInstant (Taken s e) e) = true →
    solverOk (Taken s e) ((timetable (Taken s e)).filter (fun x => !decide (x.idx = b.idx))) e (eInstant (Taken s e) e) = true →
    (hallPass (passRelease (Taken s e) b.idx) b.idx (eInstant (Taken s e) e)).2.1 = 0 →
    ∃ t, exec .amend s = .next t ∧ ∃ x ∈ t.bel.bells, x.idx = b.idx ∧ x.order = b.order ∧ x.t = eInstant (Taken s e) e ∧
      x.slot = eSlot e ∧ x.quiet = eQuiet e ∧ x.outmask = eOutmask e) ∧
  (∀ (s : State) (e : Entry) (b : Bell), nextEntry s = some e → eType e = tyAmend → SharedOk (Taken s e) e →
    loaded (Taken s e) (eSlot e) = true → targetOf (Taken s e) e = some b →
    eInstant (Taken s e) e * q40 ≤ eIn (Taken s e) e + 3600000000000 * q40 →
    leadOk (eIn (Taken s e) e) (min b.t (eInstant (Taken s e) e)) = false →
    ∃ t, exec .amend s = .next t ∧ t.bel.bells = s.bel.bells ∧ Counted s t (Reg.BEL_REFUSE 0) 1) ∧
  (∀ (s : State) (e : Entry) (b : Bell), nextEntry s = some e → eType e = tyCancel → SharedOk (Taken s e) e →
    targetOf (Taken s e) e = some b → leadOk (eIn (Taken s e) e) b.t = true →
    ∃ t, exec .cancel s = .next t ∧ ∀ x ∈ t.bel.bells, x.idx ≠ b.idx) ∧
  (∀ (s : State) (e : Entry) (b : Bell), nextEntry s = some e → eType e = tyCancel → SharedOk (Taken s e) e →
    targetOf (Taken s e) e = some b → leadOk (eIn (Taken s e) e) b.t = false →
    ∃ t, exec .cancel s = .next t ∧ t.bel.bells = s.bel.bells ∧ Counted s t (Reg.BEL_REFUSE 0) 1)

/-- R108 to R111: an accepted CHART replaces its slot's seating as a whole and no other slot's; a CHART for a locked slot, or
whose image is no seating, changes no slot and is counted; a clearing CHART empties its slot and no other. (The model's choices in it: notes/assumptions/34.) -/
def Obligations.ChartsLoadTheirSlot : Prop :=
  (∀ (s : State) (e : Entry) (im : BitVec 8192), nextEntry s = some e → eType e = tyChart → SharedOk (Taken s e) e → eSlot e < 1024 →
    locked (Taken s e) (eSlot e) = false → eClear e = false → e.img = some im → chartBad (fm (Taken s e)) im = none →
    ∃ t, exec .chart s = .next t ∧ chartOf t (eSlot e) = im ∧ loaded t (eSlot e) = true ∧
      (∀ k, k < 1024 → k ≠ eSlot e → chartOf t k = chartOf s k ∧ loaded t k = loaded s k)) ∧
  (∀ (s : State) (e : Entry) (im : BitVec 8192), nextEntry s = some e → eType e = tyChart → SharedOk (Taken s e) e → eSlot e < 1024 →
    locked (Taken s e) (eSlot e) = false → eClear e = false → e.img = some im → (chartBad (fm (Taken s e)) im).isSome = true →
    ∃ t, exec .chart s = .next t ∧ (∀ k, k < 1024 → chartOf t k = chartOf s k ∧ loaded t k = loaded s k) ∧ Counted s t (Reg.RTS_CNT 8) 1) ∧
  (∀ (s : State) (e : Entry), nextEntry s = some e → eType e = tyChart → SharedOk (Taken s e) e → eSlot e < 1024 →
    locked (Taken s e) (eSlot e) = true →
    ∃ t, exec .chart s = .next t ∧ (∀ k, k < 1024 → chartOf t k = chartOf s k ∧ loaded t k = loaded s k) ∧ Counted s t (Reg.RTS_CNT 8) 1) ∧
  (∀ (s : State) (e : Entry), nextEntry s = some e → eType e = tyChart → SharedOk (Taken s e) e → eSlot e < 1024 →
    locked (Taken s e) (eSlot e) = false → eClear e = true →
    ∃ t, exec .chart s = .next t ∧ loaded t (eSlot e) = false ∧
      (∀ k, k < 1024 → k ≠ eSlot e → chartOf t k = chartOf s k ∧ loaded t k = loaded s k))

/-- R344 to R346: leases in active-standby. An ACQUIRE of a free lease grants it for TERM from its intake under the next epoch; a RENEW by the
holder moves the expiry and keeps the epoch; a RELEASE frees it from its intake on, or passes it to the armed host; an ARM waits for the
holder; a SEIZE takes it from a host whose link is down; an expiry that is reached ends it as of its instant, or passes it to the armed host,
and opens the overlap, which ends 40 µs later. (The model's choices in it:
notes/assumptions/22.) -/
def Obligations.LeasesAreGrantedAndEnded : Prop :=
  (∀ (s : State) (e : Entry), nextEntry s = some e → eType e = tyFence → fenceKind s e = 0 → FenceOk (Taken s e) e →
    epochOk (Taken s e) e = true → unfit (Taken s e) e.port = false → (Taken s e).dual.holder = none →
    ∃ t, exec .acquire s = .next t ∧ t.dual.holder = some e.port ∧ t.dual.epoch = ((Taken s e).dual.epoch + 1) % 2 ^ 64 ∧
      t.dual.expiry = eIn (Taken s e) e + eTerm e * 1000 * q40 ∧ t.mem = s.mem) ∧
  (∀ (s : State) (e : Entry) (h : Nat), nextEntry s = some e → eType e = tyFence → fenceKind s e = 0 → FenceOk (Taken s e) e →
    (Taken s e).dual.holder = some h →
    ∃ t, exec .acquire s = .next t ∧ t.dual = (Taken s e).dual) ∧
  (∀ (s : State) (e : Entry), nextEntry s = some e → eType e = tyFence → fenceKind s e = 1 → FenceOk (Taken s e) e →
    (Taken s e).dual.holder = some e.port → epochOk (Taken s e) e = true →
    ∃ t, exec .renew s = .next t ∧
      t.dual = { (Taken s e).dual with expiry := eIn (Taken s e) e + eTerm e * 1000 * q40 } ∧ t.mem = s.mem) ∧
  (∀ (s : State) (e : Entry), nextEntry s = some e → eType e = tyFence → fenceKind s e = 2 → FenceOk (Taken s e) e →
    (Taken s e).dual.holder = some e.port → (Taken s e).dual.arm = none →
    ∃ t, exec .release s = .next t ∧ t.dual.holder = none ∧ t.dual.oldHolder = some e.port ∧ t.dual.oldEnd = eIn (Taken s e) e ∧
      t.dual.overlapOpen = true ∧ t.dual.epoch = (Taken s e).dual.epoch) ∧
  (∀ (s : State) (e : Entry) (q term : Nat), nextEntry s = some e → eType e = tyFence → fenceKind s e = 2 → FenceOk (Taken s e) e →
    (Taken s e).dual.holder = some e.port → (Taken s e).dual.arm = some (q, term) →
    ∃ t, exec .release s = .next t ∧ t.dual.holder = some q ∧ t.dual.epoch = ((Taken s e).dual.epoch + 1) % 2 ^ 64 ∧ t.dual.arm = none ∧
      t.dual.expiry = eIn (Taken s e) e + term * 1000 * q40) ∧
  (∀ (s : State) (e : Entry) (h : Nat), nextEntry s = some e → eType e = tyFence → fenceKind s e = 3 → FenceOk (Taken s e) e →
    epochOk (Taken s e) e = true → unfit (Taken s e) e.port = false → (Taken s e).dual.holder = some h → h ≠ e.port →
    ∃ t, exec .armLease s = .next t ∧ t.dual = { (Taken s e).dual with arm := some (e.port, eTerm e) } ∧ t.mem = s.mem) ∧
  (∀ (s : State) (e : Entry) (h : Nat), nextEntry s = some e → eType e = tyFence → fenceKind s e = 4 → FenceOk (Taken s e) e →
    epochOk (Taken s e) e = true → unfit (Taken s e) e.port = false → (Taken s e).dual.holder = some h →
    fget (Taken s e) (Reg.HIF_PSTATUS h) Reg.HIF_PSTATUS_LINK = 0 →
    ∃ t, exec .seize s = .next t ∧ t.dual.holder = some e.port ∧ t.dual.epoch = ((Taken s e).dual.epoch + 1) % 2 ^ 64 ∧
      t.dual.oldHolder = some h ∧ t.dual.expiry = eIn (Taken s e) e + eTerm e * 1000 * q40) ∧
  (∀ (s : State) (h : Nat), s.dual.holder = some h → s.dual.expiry ≤ s.now → s.restart.inWindow = false → s.dual.arm = none →
    ∃ t, exec .leaseExpiry s = .next t ∧ t.dual.holder = none ∧ t.dual.oldHolder = some h ∧ t.dual.oldEnd = s.dual.expiry ∧
      t.dual.overlapOpen = true) ∧
  (∀ (s : State) (h q term : Nat), s.dual.holder = some h → s.dual.expiry ≤ s.now → s.restart.inWindow = false →
    s.dual.arm = some (q, term) →
    ∃ t, exec .leaseExpiry s = .next t ∧ t.dual.holder = some q ∧ t.dual.arm = none ∧ t.dual.epoch = (s.dual.epoch + 1) % 2 ^ 64 ∧
      t.dual.expiry = s.dual.expiry + term * 1000 * q40 ∧ t.dual.oldHolder = some h ∧ t.dual.oldEnd = s.dual.expiry) ∧
  (∀ s : State, s.now < s.dual.expiry → ∃ t, exec .leaseExpiry s = .next t ∧ NoEffect s t) ∧
  (∀ s : State, s.dual.overlapOpen = true → s.dual.oldEnd + 40000 * q40 ≤ s.now →
    ∃ t, exec .overlapEnd s = .next t ∧ t.dual = { s.dual with overlapOpen := false, oldHolder := none } ∧ t.mem = s.mem)

/-- R54, R239, R242, R247, R327, R341: what the calibration, maintenance and telemetry descriptors do once they are accepted: while CAL is on, a
ROUND starts a round on every listed tile, which is ready at once where the round has nothing to wait for; a SWEEP_REQUEST makes the listed cells
due; an ABORT without cells ends all calibration work, one with cells the sweeps and requests of those cells; MARK_STALE sets STALE in both tables; UN_RETIRE takes the cell out of the fault set; PROMOTE returns the other host to ACTIVE with count 0; TELEM replaces its stream's
settings. (The model's choices in it: notes/assumptions/31.) -/
def Obligations.MaintenanceDescriptorsAct : Prop :=
  (∀ (s : State) (e : Entry), nextEntry s = some e → eType e = tyCal → eKind e = 0 → SharedOk (Taken s e) e →
    calArgs (Taken s e) e = true → calOn s = true →
    ∃ t, exec .round s = .next t ∧ ∀ k ∈ eTiles e, (tfind t.cal.rounds k).isSome = true ∨ k ∈ t.cal.ready) ∧
  (∀ (s : State) (e : Entry), nextEntry s = some e → eType e = tyCal → eKind e = 1 → SharedOk (Taken s e) e →
    calArgs (Taken s e) e = true →
    ∃ t, exec .sweepRequest s = .next t ∧ (∀ i ∈ eCells e, i ∈ t.cal.asked) ∧ t.cal.sweeps = s.cal.sweeps ∧ t.bel = s.bel) ∧
  (∀ (s : State) (e : Entry), nextEntry s = some e → eType e = tyCal → eKind e = 2 → SharedOk (Taken s e) e →
    calArgs (Taken s e) e = true → eCells e = [] →
    ∃ t, exec .abort s = .next t ∧ t.cal.rounds = [] ∧ t.cal.sweeps = [] ∧ t.cal.asked = [] ∧ t.cal.waits = []) ∧
  (∀ (s : State) (e : Entry), nextEntry s = some e → eType e = tyCal → eKind e = 2 → SharedOk (Taken s e) e →
    calArgs (Taken s e) e = true → eCells e ≠ [] →
    ∃ t, exec .abort s = .next t ∧ (∀ i ∈ eCells e, tfind t.cal.sweeps i = none ∧ i ∉ t.cal.asked ∧ ∀ x ∈ t.cal.waits, x.1 ≠ i) ∧
      t.cal.rounds = s.cal.rounds) ∧
  (∀ (s : State) (e : Entry), nextEntry s = some e → eType e = tyCal → eKind e = 3 → SharedOk (Taken s e) e →
    calArgs (Taken s e) e = true →
    ∃ t, exec .markStale s = .next t ∧
      ∀ i ∈ eCells e, bit (mbyte t (actAt i)) 1 = true ∧ bit (mbyte t (bldAt i)) 1 = true) ∧
  (∀ (s : State) (e : Entry), nextEntry s = some e → eType e = tyMaint → eKind e = 0 → SharedOk (Taken s e) e →
    cellPresent (fm s) (eMaintCell e) = true → isRetired s (eMaintCell e) = true → eMaintCell e < 6144 →
    ∃ t, exec .unRetire s = .next t ∧ isRetired t (eMaintCell e) = false ∧ Counted s t (Reg.FLT_CNT 5) 1) ∧
  (∀ (s : State) (e : Entry), nextEntry s = some e → eType e = tyMaint → eKind e = 1 → malformed (Taken s e) e = 0 →
    dualMode s = 1 → e.port = precedence s →
    ∃ t, exec .promoteOtherHost s = .next t ∧ role t (1 - e.port) = 0 ∧
      fget t (Reg.HIF_RCARD (1 - e.port) 1) Reg.HIF_RCARD_DIV = 0) ∧
  (∀ (s : State) (e : Entry), nextEntry s = some e → eType e = tyTelem → HostOk (Taken s e) e →
    ((telemStream e.raw).kind = 2 → fget s (Reg.ETH_CTRL ((telemStream e.raw).dest % 4)) Reg.ETH_CTRL_EN = 1) →
    ∃ t nx, exec .telem s = .next t ∧ streamOf t e.port (dB e.raw 0x10 1) = { telemStream e.raw with next := nx } ∧
      (∀ j, j ≠ dB e.raw 0x10 1 → streamOf t e.port j = streamOf s e.port j) ∧ t.mem = s.mem ∧ t.bel = s.bel)

/-- R112, R319, R340, R347 to R349: queries, holds and firewatch. A route check of a loaded slot is queued with its deadline; a bell's state is
answered on its ring, zeros where there is none; a hold whose end has come lets its entry into admission; a due challenge is issued with a value other than 0; a matching
ECHO or a HEARTBEAT answers it and clears UNFIT; the report card's grade is 3 without a link and 0 with nothing to report. (The model's choices in
it: notes/assumptions/32, 71.) -/
def Obligations.QueriesAndFirewatchAnswer : Prop :=
  (∀ (s : State) (e : Entry), nextEntry s = some e → eType e = tyQuery → eKind e ≠ 1 → HostOk (Taken s e) e →
    loaded (Taken s e) (eSlot e) = true →
    ∃ t, exec .routeCheck s = .next t ∧
      t.bel.checks = s.bel.checks ++ [⟨eSlot e, e.order, eIn (Taken s e) e, e.src, e.idx, eType e, eIn (Taken s e) e + 10000000 * q40⟩] ∧
      t.bel.bells = s.bel.bells ∧ t.mem = s.mem) ∧
  (∀ (s : State) (e : Entry), nextEntry s = some e → eType e = tyQuery → eKind e = 1 → HostOk (Taken s e) e →
    e.src < 32 → portUp (Taken s e) (e.src / 16) = true → s.hif.waiting = [] →
    ∃ t, exec .bellState s = .next t ∧ t.bel = s.bel ∧
      (let c := Reg.HIF_RING_CQT (e.src / 16) (e.src % 16)
       let b := s.bel.bells.find? (fun b => !b.repair && decide (b.order = eTarget e))
       t.out = (Taken s e).out ++ [.record (e.src / 16) (e.src % 16) (fget s c Reg.HIF_RING_CQT_TAIL)
         (recBits (intakeRec e 0 ((b.map (·.st)).getD 0) ((b.map (·.t / 1000000000)).getD 0) ((b.map (·.t % 1000000000)).getD 0)
           ((b.map (·.gen)).getD 0)) (fget s c Reg.HIF_RING_CQT_PHASE))])) ∧
  (∀ (s : State) (e : Entry) (T : Nat), s.hif.fetched.find? (fun x => decide (x.src = e.src) && x.tIn.isNone) = some e →
    (s.hif.fetched.map (·.seq)).Nodup → e.src < 33 → dualMode s = 1 → illFormed s e = 0 → e.hold = 2 → e.holdEnd = some T → T ≤ s.now →
    eType e ≠ tyChart → e.imgWait = false →
    ∃ t, exec .pairHoldExpiry s = .next t ∧ (∃ x ∈ t.hif.fetched, x.seq = e.seq ∧ x.tIn = some s.now) ∧ t.mem = s.mem ∧ t.bel = s.bel) ∧
  (∀ (s : State) (p : Fin 2), dualMode s = 2 → s.dual.nextChal ≤ s.up → s.restart.inWindow = false → s.dual.holder ≠ some p.val →
    fget s (Reg.HIF_PSTATUS p) Reg.HIF_PSTATUS_LINK = 1 → chalOf s p = none → fget s Reg.LEG_CTRL Reg.LEG_CTRL_EN = 0 →
    fget s (Reg.HIF_RING_CFG p 0) Reg.HIF_RING_CFG_EN = 1 → owed s (16 * p) < cqFreeAll s (16 * p) →
    ∃ t v, exec .firewatchChallenge s = .next t ∧ chalOf t p = some (v, s.now) ∧ v ≠ 0 ∧ t.dual.nextChal = s.up + 10000000) ∧
  (∀ (s : State) (e : Entry) (v at_ : Nat), nextEntry s = some e → eType e = tyEcho → e.fmt1 = false → FenceOk (Taken s e) e →
    e.port < 2 → chalOf s e.port = some (v, at_) → eChallenge e = v →
    ∃ t, exec .echo s = .next t ∧ chalOf t e.port = none ∧ fget t (Reg.HIF_RCARD e.port 0) Reg.HIF_RCARD_FW_RUN = 0 ∧
      fget t (Reg.HIF_RCARD e.port 0) Reg.HIF_RCARD_UNFIT = 0) ∧
  (∀ (s : State) (e : Entry) (v at_ : Nat), nextEntry s = some e → eType e = tyEcho → e.fmt1 = false → FenceOk (Taken s e) e →
    chalOf s e.port = some (v, at_) → eChallenge e ≠ v →
    ∃ t, exec .echo s = .next t ∧ chalOf t e.port = some (v, at_)) ∧
  (∀ (s : State) (e : Entry) (v at_ : Nat), nextEntry s = some e → eType e = tyEcho → e.fmt1 = true → FenceOk (Taken s e) e →
    e.port < 2 → chalOf s e.port = some (v, at_) →
    ∃ t, exec .heartbeat s = .next t ∧ chalOf t e.port = none ∧ fget t (Reg.HIF_RCARD e.port 0) Reg.HIF_RCARD_FW_RUN = 0 ∧
      fget t (Reg.HIF_RCARD e.port 0) Reg.HIF_RCARD_UNFIT = 0) ∧
  (∀ (s : State) (p : Fin 2), fget s (Reg.HIF_PSTATUS p) Reg.HIF_PSTATUS_LINK = 0 →
    ∃ t, exec .reportCardGrade s = .next t ∧ fget t (Reg.HIF_RCARD p 0) Reg.HIF_RCARD_GRADE = 3 ∧
      fget t (Reg.HIF_RCARD p 0) Reg.HIF_RCARD_LINK = 0 ∧ regsBut cardRegs s t ∧ t.mem = s.mem) ∧
  (∀ (s : State) (p : Fin 2), fget s (Reg.HIF_PSTATUS p) Reg.HIF_PSTATUS_LINK = 1 →
    fget s (Reg.HIF_RCARD p 0) Reg.HIF_RCARD_UNFIT = 0 → role s p ≠ 2 → ringErr s p = false →
    fget s (Reg.HIF_RCARD p 0) Reg.HIF_RCARD_FW_RUN = 0 → fget s (Reg.HIF_RCARD p 1) Reg.HIF_RCARD_DIV = 0 → holdSums s = (0, 0) →
    (rget s (Reg.HIF_PCNT p 4)).toNat ≤ (if p = 0 then s.dual.npBaseA else s.dual.npBaseB) →
    1000 ≤ fget s (Reg.HIF_RCARD p 4) Reg.HIF_RCARD_LMARGIN →
    ∃ t, exec .reportCardGrade s = .next t ∧ fget t (Reg.HIF_RCARD p 0) Reg.HIF_RCARD_GRADE = 0)

/-- R314, R324 to R326, R332, R335, R341, R352: writes of the host interface's control registers that reach them: a mode; PROMOTE and the card's
clear; HALT set, which empties the telemetry queues and ends the frames in progress, and released; a ring started anew and stopped; the port's
counters and ring maxima cleared as the bits written say; a meter's rate with its buckets filled, where the source is metered. (The model's choices in it: notes/assumptions/63.) -/
def Obligations.HostControlWritesAct : Prop :=
  (∀ (m : Master) (v : BitVec 32) (s : State), Reaches s m Reg.HIF_DUAL_CTRL →
    ∃ t, exec (.modeWrite m v) s = .next t ∧ fget t Reg.HIF_DUAL_CTRL Reg.HIF_DUAL_CTRL_MODE = v.toNat % 4 ∧
      fget t Reg.HIF_DUAL_CTRL Reg.HIF_DUAL_CTRL_DIV_LIMIT = v.toNat / 16 % 16 ∧
      (dualMode t ≠ dualMode s → t.dual.obsA = false ∧ t.dual.obsB = false ∧ t.dual.nextChal = s.up) ∧ t.mem = s.mem) ∧
  (∀ (m : Master) (v : BitVec 32) (p : Fin 2) (s : State), Reaches s m Reg.HIF_DUAL_CMD → bit v.toNat p = true →
    ∃ t, exec (.promote m v) s = .next t ∧ fget t (Reg.HIF_RCARD p 1) Reg.HIF_RCARD_DIV = 0 ∧
      (if p = 0 then t.dual.obsA = false ∧ t.dual.divA = 0 else t.dual.obsB = false ∧ t.dual.divB = 0)) ∧
  (∀ (m : Master) (v : BitVec 32) (p : Fin 2) (s : State), Reaches s m Reg.HIF_DUAL_CMD → bit v.toNat (p + 2) = true →
    ∃ t, exec (.cardClr m v) s = .next t ∧ fget t (Reg.HIF_RCARD p 1) Reg.HIF_RCARD_DUP = 0 ∧
      fget t (Reg.HIF_RCARD p 2) Reg.HIF_RCARD_FW_OK = 0 ∧ fget t (Reg.HIF_RCARD p 4) Reg.HIF_RCARD_NP = 0 ∧
      fget t (Reg.HIF_RCARD p 4) Reg.HIF_RCARD_LMARGIN = 0xFFFF) ∧
  (∀ (m : Master) (v : BitVec 32) (s : State), Reaches s m Reg.HIF_HALT → bit v.toNat 0 = true →
    ∃ t, exec (.hifHalt m v) s = .next t ∧ fget t Reg.HIF_HALT Reg.HIF_HALT_HALT = 1 ∧ fget t Reg.HIF_HALT Reg.HIF_HALT_DONE = 1 ∧
      fget t Reg.HIF_HALT Reg.HIF_HALT_BY = haltBy m ∧ (∀ (p : Fin 2) (i : Fin 16), (streamOf t p i).queue = []) ∧
      (∀ e : Fin 4, s.up < (eport s e).telEnd → Output.abort e.val ∈ t.out ∧ Counted s t (Reg.ETH_CNT e 7) 1) ∧
      regsBut (Reg.HIF_HALT :: (List.range 4).map (fun e => Reg.ETH_CNT e 7)) s t ∧ t.bel = s.bel) ∧
  (∀ (m : Master) (v : BitVec 32) (s : State), Reaches s m Reg.HIF_HALT → bit v.toNat 0 = false →
    ∃ t, exec (.hifHalt m v) s = .next t ∧ fget t Reg.HIF_HALT Reg.HIF_HALT_HALT = 0 ∧ regsBut [Reg.HIF_HALT] s t ∧ t.bel = s.bel) ∧
  (∀ (m : Master) (p : Fin 2) (r : Fin 16) (v : BitVec 32) (s : State), Reaches s m (Reg.HIF_RING_CFG p r) → bit v.toNat 0 = true →
    fget s (Reg.HIF_RING_CFG p r) Reg.HIF_RING_CFG_EN = 0 →
    ∃ t, exec (.ringEnSet m p r v) s = .next t ∧ fget t (Reg.HIF_RING_CFG p r) Reg.HIF_RING_CFG_EN = 1 ∧
      fget t (Reg.HIF_RING_STAT p r) Reg.HIF_RING_STAT_HEAD = 0 ∧ fget t (Reg.HIF_RING_STAT p r) Reg.HIF_RING_STAT_ERR = 0 ∧
      fget t (Reg.HIF_RING_CQT p r) Reg.HIF_RING_CQT_TAIL = 0 ∧ fget t (Reg.HIF_RING_CQT p r) Reg.HIF_RING_CQT_HEAD = 0 ∧
      fget t (Reg.HIF_RING_CQT p r) Reg.HIF_RING_CQT_PHASE = 1 ∧ (ringOf t (16 * p + r)).tail = 0 ∧
      (∀ j, j ≠ 16 * p.val + r.val → ringOf t j = ringOf s j)) ∧
  (∀ (m : Master) (p : Fin 2) (r : Fin 16) (v : BitVec 32) (s : State), Reaches s m (Reg.HIF_RING_CFG p r) → bit v.toNat 0 = false →
    ∃ t, exec (.ringEnClear m p r v) s = .next t ∧ fget t (Reg.HIF_RING_CFG p r) Reg.HIF_RING_CFG_EN = 0 ∧ t.hif = s.hif ∧ t.bel = s.bel) ∧
  (∀ (m : Master) (p : Fin 2) (v : BitVec 32) (s : State) (c : Instr), c = .hifPcntClr m p v ∨ c = .hifPcntClrRing m p v →
    Reaches s m (Reg.HIF_PCNT_CLR p) →
    ∃ t, exec c s = .next t ∧ (∀ k : Fin 8, rget t (Reg.HIF_PCNT p k) = if bit v.toNat 0 then 0 else rget s (Reg.HIF_PCNT p k)) ∧
      (∀ r : Fin 16,
        fget t (Reg.HIF_RING_DLY p r) Reg.HIF_RING_DLY_MAX =
          (if bit v.toNat 1 then 0 else fget s (Reg.HIF_RING_DLY p r) Reg.HIF_RING_DLY_MAX) ∧
        fget t (Reg.HIF_RING_DEPTH p r) Reg.HIF_RING_DEPTH_MAX =
          (if bit v.toNat 1 then 0 else fget s (Reg.HIF_RING_DEPTH p r) Reg.HIF_RING_DEPTH_MAX) ∧
        fget t (Reg.HIF_RING_DLY p r) Reg.HIF_RING_DLY_LAST = fget s (Reg.HIF_RING_DLY p r) Reg.HIF_RING_DLY_LAST ∧
        fget t (Reg.HIF_RING_DEPTH p r) Reg.HIF_RING_DEPTH_NOW = fget s (Reg.HIF_RING_DEPTH p r) Reg.HIF_RING_DEPTH_NOW) ∧
      regsBut ((List.range 8).map (Reg.HIF_PCNT p) ++ (List.range 16).map (Reg.HIF_RING_DLY p) ++
        (List.range 16).map (Reg.HIF_RING_DEPTH p)) s t ∧ t.hif = s.hif) ∧
  (∀ (m : Master) (i : Fin 33) (v : BitVec 32) (s : State), Reaches s m (Reg.ISC_MTR_RATE i) →
    ∃ t, exec (.iscMtrRate m i v) s = .next t ∧
      (if i = 0 ∨ i = 16 then NoEffect s t
       else rget t (Reg.ISC_MTR_RATE i) = v ∧ regsBut [Reg.ISC_MTR_RATE i] s t ∧ (ringOf t i).bc = (mtrBurst s i).1 * mtrOne ∧ (ringOf t i).bp = (mtrBurst s i).2 * mtrOne ∧
         (∀ j, j ≠ i.val → ringOf t j = ringOf s j)))

/-- R10, R12, R14, R143, R273, R400, R401, R403 to R405: the device address space. A full-word write of a register on which nothing else hangs
(FLT_ACT) stores its fields; a write with byte enables missing changes nothing and is recorded as PARTIAL_WRITE under the owner of the address; a
write to SRAM is refused; an access outside every target is counted, latched unless one is latched already, and a read of it returns ones; a
capture of TMU_NOW0 and a read of DRV_SLOT_DATA return the bytes selected; REMAP can only be set; slice and park words are stored. (The model's
choices in it: notes/assumptions/62, 102.) -/
def Obligations.AddressSpaceAccessesActByTheirTarget : Prop :=
  (∀ (m : Master) (n : Fin 352) (v : BitVec 32) (s : State), Reaches s m (Reg.FLT_ACT n) →
    ∃ t, exec (.registerWrite m (BitVec.ofNat 24 (Reg.FLT_ACT n)) v 15) s = .next t ∧ OnlyRegs [Reg.FLT_ACT n] s t ∧
      fget t (Reg.FLT_ACT n) Reg.FLT_ACT_IRQ_A = v.toNat % 2 ∧ fget t (Reg.FLT_ACT n) Reg.FLT_ACT_IRQ_B = v.toNat / 2 % 2 ∧
      fget t (Reg.FLT_ACT n) Reg.FLT_ACT_ALERT = v.toNat / 4 % 2 ∧ fget t (Reg.FLT_ACT n) Reg.FLT_ACT_HALT = v.toNat / 8 % 2) ∧
  (∀ (m : Master) (a : BitVec 24) (v : BitVec 32) (be : BitVec 4) (s : State), (m = .leg → fget s Reg.LEG_CTRL Reg.LEG_CTRL_WR_EN = 1) →
    a.toNat % 4 = 0 → inTarget a.toNat = true → be ≠ 15 → tfind s.flt.slots (owner a.toNat) = none →
    ∃ t, exec (.registerWrite m a v be) s = .next t ∧ t = { s with pins := levels s t, flt := t.flt } ∧
      tfind t.flt.slots (owner a.toNat) = some ⟨0x01, a.toNat, requester m, s.now, 0, 0, false⟩) ∧
  (∀ (m : Master) (a : BitVec 24) (v : BitVec 32) (s : State), (m = .leg → fget s Reg.LEG_CTRL Reg.LEG_CTRL_WR_EN = 1) →
    a.toNat % 4 = 0 → inTarget a.toNat = true → 0x800000 ≤ a.toNat → tfind s.flt.slots (owner a.toNat) = none →
    ∃ t, exec (.registerWrite m a v 15) s = .next t ∧ t.mem = s.mem ∧
      tfind t.flt.slots (owner a.toNat) = some ⟨0x02, a.toNat, requester m, s.now, 0, 0, false⟩) ∧
  (∀ (m : Master) (a : BitVec 24) (s : State), a.toNat % 4 = 0 → inTarget a.toNat = false →
    fget s Reg.XBR_ERR Reg.XBR_ERR_VALID = 0 →
    ∃ t, exec (.defaultTargetAccess m a false) s = .next t ∧
      t.out = s.out ++ [if m = .sup then .supFault false else .data m 0xFFFFFFFF] ∧
      t.mnt = (if m = .mnt then { s.mnt with err := true } else s.mnt) ∧ Counted s t (Reg.XBR_CNT 0) 1 ∧
      fget t Reg.XBR_ERR Reg.XBR_ERR_VALID = 1 ∧ fget t Reg.XBR_ERR Reg.XBR_ERR_MASTER = masterId m ∧
      fget t Reg.XBR_ERR Reg.XBR_ERR_WRITE = 0 ∧ (rget t Reg.XBR_ERR_ADDR).toNat = a.toNat ∧
      t = { s with regs := t.regs, pins := levels s t, out := t.out, mnt := t.mnt } ∧
      regsBut [Reg.XBR_CNT 0, Reg.XBR_ERR, Reg.XBR_ERR_ADDR] s t) ∧
  (∀ (m : Master) (a : BitVec 24) (s : State), a.toNat % 4 = 0 → inTarget a.toNat = false → fget s Reg.XBR_ERR Reg.XBR_ERR_VALID = 1 →
    ∃ t, exec (.defaultTargetAccess m a true) s = .next t ∧ Counted s t (Reg.XBR_CNT 1) 1 ∧ rget t Reg.XBR_ERR = rget s Reg.XBR_ERR ∧
      rget t Reg.XBR_ERR_ADDR = rget s Reg.XBR_ERR_ADDR ∧ t.mem = s.mem) ∧
  (∀ (m : Master) (a : BitVec 24) (wr : Bool) (s : State), inTarget (a.toNat / 4 * 4) = true →
    ∃ t, exec (.defaultTargetAccess m a wr) s = .next t ∧ NoEffect s t) ∧
  (∀ (m : Master) (be : BitVec 4) (s : State), romBlocks s m (Reg.TMU_NOW 0) = false →
    ∃ t, exec (.tmuNowCapture m be) s = .next t ∧ (let c := s.now
      t.out = s.out ++ [.data m (selected (BitVec.ofNat 32 (nsOf c)) be)] ∧ nowWord t m 1 = BitVec.ofNat 32 (fracOf c) ∧
      nowWord t m 2 = BitVec.ofNat 32 (secOf c) ∧ nowWord t m 3 = BitVec.ofNat 32 (secOf c / 2 ^ 32)) ∧
      t = { s with pins := levels s t, out := t.out, tmu := { s.tmu with caps := t.tmu.caps } }) ∧
  (∀ (m : Master) (k : Fin 96) (be : BitVec 4) (s : State), romBlocks s m (Reg.DRV_SLOT_DATA k) = false →
    fget s (Reg.DRV_SLOT_ADDR k) Reg.DRV_SLOT_ADDR_SLOT ≤ 8 → fget s (Reg.DRV_SLOT_ADDR k) Reg.DRV_SLOT_ADDR_WORD < 2192 →
    ∃ t, exec (.drvSlotData m k be) s = .next t ∧
      t.out = s.out ++ [.data m (selected (BitVec.ofNat 32 (rd s.slotMem (slotBase k (fget s (Reg.DRV_SLOT_ADDR k) Reg.DRV_SLOT_ADDR_SLOT) +
        4 * fget s (Reg.DRV_SLOT_ADDR k) Reg.DRV_SLOT_ADDR_WORD) 4)) be)] ∧
      fget t (Reg.DRV_SLOT_ADDR k) Reg.DRV_SLOT_ADDR_WORD = fget s (Reg.DRV_SLOT_ADDR k) Reg.DRV_SLOT_ADDR_WORD + 1 ∧
      regsBut [Reg.DRV_SLOT_ADDR k] s t) ∧
  (∀ (m : Master) (v : BitVec 32) (s : State), Reaches s m Reg.XBR_CTRL →
    ∃ t, exec (.remap m v) s = .next t ∧ OnlyRegs [Reg.XBR_CTRL] s t ∧
      fget t Reg.XBR_CTRL Reg.XBR_CTRL_REMAP = fget s Reg.XBR_CTRL Reg.XBR_CTRL_REMAP ||| v.toNat % 2) ∧
  (∀ (m : Master) (i : Fin 13) (v : BitVec 32) (s : State), Reaches s m (Reg.XBR_SLICE i) →
    ∃ t, exec (.xbrSliceWrite m i v) s = .next t ∧ OnlyRegs [Reg.XBR_SLICE i] s t ∧
      fget t (Reg.XBR_SLICE i) Reg.XBR_SLICE_SLICE = v.toNat % 2048) ∧
  (∀ (m : Master) (k : Fin 2) (v : BitVec 32) (s : State), Reaches s m (Reg.XBR_PARK k) →
    ∃ t, exec (.xbrParkWrite m k v) s = .next t ∧ OnlyRegs [Reg.XBR_PARK k] s t ∧
      (rget t (Reg.XBR_PARK k)).toNat % (if k = 0 then 2 ^ 32 else 4096) = v.toNat % (if k = 0 then 2 ^ 32 else 4096))

/-- R366 with R92, R114, R143, R167, R228, R247, R271, R300, R301, R333, R369, R378, R407: a 1 written to CLEAR of a block's counter clear that
reaches it clears that block's counters and nothing else; BEL_CNT_CLR clears the groups whose bits are written as 1. -/
def Obligations.CounterClearsClearTheirCounters : Prop :=
  (∀ (m : Master) (v : BitVec 32) (s : State) (c : Instr), c = .inval m v ∨ c = .refuse m v ∨ c = .outcome m v →
    Reaches s m Reg.BEL_CNT_CLR →
    ∃ t, exec c s = .next t ∧
      OnlyRegs ((List.range 7).map Reg.BEL_INVAL ++ (List.range 10).map Reg.BEL_REFUSE ++ (List.range 4).map Reg.BEL_OUTCOME) s t ∧
      (∀ k : Fin 7, rget t (Reg.BEL_INVAL k) = if bit v.toNat 0 then 0 else rget s (Reg.BEL_INVAL k)) ∧
      (∀ k : Fin 10, rget t (Reg.BEL_REFUSE k) = if bit v.toNat 1 then 0 else rget s (Reg.BEL_REFUSE k)) ∧
      (∀ k : Fin 4, rget t (Reg.BEL_OUTCOME k) = if bit v.toNat 2 then 0 else rget s (Reg.BEL_OUTCOME k))) ∧
  (∀ (m : Master) (v : BitVec 32) (s : State), Reaches s m Reg.RTS_CNT_CLR → bit v.toNat 0 = true →
    ∃ t, exec (.rtsCntClr m v) s = .next t ∧ OnlyRegs ((List.range 10).map Reg.RTS_CNT) s t ∧ (∀ k : Fin 10, rget t (Reg.RTS_CNT k) = 0)) ∧
  (∀ (m : Master) (i : Fin 96) (v : BitVec 32) (s : State), Reaches s m (Reg.DRV_CNT_CLR i) → bit v.toNat 0 = true →
    ∃ t, exec (.drvCntClr m i v) s = .next t ∧ OnlyRegs ((List.range 10).map (Reg.DRV_CNT i)) s t ∧ (∀ k : Fin 10, rget t (Reg.DRV_CNT i k) = 0)) ∧
  (∀ (m : Master) (i : Fin 96) (v : BitVec 32) (s : State), Reaches s m (Reg.MON_CNT_CLR i) → bit v.toNat 0 = true →
    ∃ t, exec (.monCntClr m i v) s = .next t ∧ OnlyRegs ((List.range 8).map (Reg.MON_CNT i)) s t ∧ (∀ k : Fin 8, rget t (Reg.MON_CNT i k) = 0)) ∧
  (∀ (m : Master) (i : Fin 100) (v : BitVec 32) (s : State), Reaches s m (Reg.TRK_CNT_CLR i) → bit v.toNat 0 = true →
    ∃ t, exec (.trkCntClr m i v) s = .next t ∧ OnlyRegs ((List.range 8).map (Reg.TRK_CNT i)) s t ∧ (∀ k : Fin 8, rget t (Reg.TRK_CNT i k) = 0)) ∧
  (∀ (m : Master) (v : BitVec 32) (s : State), Reaches s m Reg.CAL_CNT_CLR → bit v.toNat 0 = true →
    ∃ t, exec (.calCntClr m v) s = .next t ∧ OnlyRegs ((List.range 8).map Reg.CAL_CNT) s t ∧ (∀ k : Fin 8, rget t (Reg.CAL_CNT k) = 0)) ∧
  (∀ (m : Master) (v : BitVec 32) (s : State), Reaches s m Reg.PWR_CNT_CLR → bit v.toNat 0 = true →
    ∃ t, exec (.pwrCntClr m v) s = .next t ∧ OnlyRegs ((List.range 8).map Reg.PWR_CNT) s t ∧ (∀ k : Fin 8, rget t (Reg.PWR_CNT k) = 0)) ∧
  (∀ (m : Master) (v : BitVec 32) (s : State), Reaches s m Reg.TMU_CNT_CLR → bit v.toNat 0 = true →
    ∃ t, exec (.tmuCntClr m v) s = .next t ∧ OnlyRegs ((List.range 8).map Reg.TMU_CNT) s t ∧ (∀ k : Fin 8, rget t (Reg.TMU_CNT k) = 0)) ∧
  (∀ (m : Master) (i : Fin 4) (v : BitVec 32) (s : State), Reaches s m (Reg.ETH_CNT_CLR i) → bit v.toNat 0 = true →
    ∃ t, exec (.ethCntClr m i v) s = .next t ∧ OnlyRegs ((List.range 12).map (Reg.ETH_CNT i)) s t ∧ (∀ k : Fin 12, rget t (Reg.ETH_CNT i k) = 0)) ∧
  (∀ (m : Master) (v : BitVec 32) (s : State), Reaches s m Reg.FLT_CNT_CLR → bit v.toNat 0 = true →
    ∃ t, exec (.fltCntClr m v) s = .next t ∧ OnlyRegs ((List.range 8).map Reg.FLT_CNT) s t ∧ (∀ k : Fin 8, rget t (Reg.FLT_CNT k) = 0)) ∧
  (∀ (m : Master) (v : BitVec 32) (s : State), Reaches s m Reg.THM_CNT_CLR → bit v.toNat 0 = true →
    ∃ t, exec (.thmCntClr m v) s = .next t ∧ OnlyRegs ((List.range 6).map Reg.THM_CNT) s t ∧ (∀ k : Fin 6, rget t (Reg.THM_CNT k) = 0)) ∧
  (∀ (m : Master) (v : BitVec 32) (s : State), Reaches s m Reg.XBR_CNT_CLR → bit v.toNat 0 = true →
    ∃ t, exec (.xbrCntClr m v) s = .next t ∧ OnlyRegs ((List.range 4).map Reg.XBR_CNT) s t ∧ (∀ k : Fin 4, rget t (Reg.XBR_CNT k) = 0)) ∧
  (∀ (m : Master) (v : BitVec 32) (s : State), Reaches s m Reg.ISC_CNT_CLR → bit v.toNat 0 = true →
    ∃ t, exec (.iscCntClr m v) s = .next t ∧ (∀ (i : Fin 33) (k : Fin 3), rget t (Reg.ISC_MTR_G i k) = 0) ∧
      OnlyRegs ((List.range 33).flatMap (fun i => (List.range 3).map (Reg.ISC_MTR_G i))) s t)

/-- R82, R106, R107, R112, R114: what the pipeline's solve commands do: while the pipeline runs, the waiting solve with the earliest deadline
takes lane 0 where it is idle, else an idle lane 1, with its chart and the fault set of its cut-off at the latest; a completed solve gives its
bell the solution and is counted; a trace failure of a bell's solve or of a route check fails the lane and is counted; a cross-check duplicate
runs beside its original, and a mismatch fails the lane that it names; a route check runs on an idle lane, lane 1 where both are, answers in its
result area, and is refused when its deadline passes. (The model's choices in it: notes/assumptions/32, 89.) -/
def Obligations.SolvesRunOnTheLanes : Prop :=
  (∀ (s : State) (b : Bell) (rest : List Bell), waitingSolves s = b :: rest → pipeRuns s = true → laneIdle s 0 = true →
    ∃ t, exec .solveStart s = .next t ∧
      t.bel.laneA = some (Lane.mk 0 b.idx s.up (faultSet (inputsOf s b)) (chartFor s b).2 (chartFor s b).1) ∧
      t.bel.bells = s.bel.bells ∧ t.regs = s.regs ∧ t.mem = s.mem) ∧
  (∀ (s : State) (b : Bell) (rest : List Bell), waitingSolves s = b :: rest → pipeRuns s = true → laneKind s 0 = some 0 →
    laneIdle s 1 = true →
    ∃ t, exec .solveStart s = .next t ∧ t.bel.laneA = s.bel.laneA ∧
      t.bel.laneB = some (Lane.mk 0 b.idx s.up (faultSet (inputsOf s b)) (chartFor s b).2 (chartFor s b).1) ∧
      t.bel.bells = s.bel.bells ∧ t.regs = s.regs ∧ t.mem = s.mem) ∧
  (∀ (l : Fin 2) (s : State) (x : Lane) (b : Bell), laneDue s l 0 = some x → bellAt s x.bell = some b →
    ∃ t, exec (.solveComplete l none) s = .next t ∧ laneOf t l = none ∧
      bellAt t b.idx = some { b with st := 2, sol := some (laneSol s x) } ∧ Counted s t (Reg.RTS_CNT l) 1) ∧
  (∀ (l : Fin 2) (w : Fin 512) (s : State) (x : Lane), laneDue s l 0 = some x → laneOk s l = true →
    ∃ t, exec (.solveComplete l (some w)) s = .next t ∧ laneOf t l = none ∧ laneOk t l = false ∧ lanes t = lanes s - 1 ∧
      t.bel.bells = s.bel.bells ∧ Counted s t (Reg.RTS_CNT 9) 1) ∧
  (∀ (l : Fin 2) (s : State) (x : Lane), s.bel.xcheckDue = true → waitingSolves s = [] → s.bel.checks = [] → laneOf s l = some x →
    x.kind = 0 → x.at_ = s.up → laneIdle s (1 - l.val) = true →
    ∃ t, exec .xcheckDuplicate s = .next t ∧ t = { s with pins := levels s t, bel :=
      { (setLane s (1 - l.val) (some { x with kind := 2 })).bel with xcheckDue := false } }) ∧
  (∀ (l : Fin 2) (s : State) (x : Lane), (l = 1 → laneDue s 0 2 = none) → laneDue s l 2 = some x →
    ∃ t, exec (.xcheckComplete none) s = .next t ∧ t = { s with pins := levels s t, bel := (setLane s l none).bel }) ∧
  (∀ (l : Fin 2) (s : State) (x : Lane) (f : Fin 2) (c : Fin 6144), (l = 1 → laneDue s 0 2 = none) → laneDue s l 2 = some x →
    laneOk s f = true →
    ∃ t, exec (.xcheckComplete (some (f, c))) s = .next t ∧ t.bel = (setLane s l none).bel ∧ laneOk t f = false ∧
      lanes t = lanes s - 1 ∧ Counted s t (Reg.RTS_CNT 9) 1) ∧
  (∀ (s : State) (c : Check) (rest : List Check), s.bel.checks = c :: rest → pipeRuns s = true → waitingSolves s = [] →
    laneKind s 0 ≠ some 1 → laneIdle s 1 = true → loaded s c.slot = true →
    fget s Reg.THM_STATUS Reg.THM_STATUS_LEVEL < 2 →
    ∃ t, exec .routeCheckStart s = .next t ∧ t.bel.laneB = some (Lane.mk 1 0 s.up (faultSet s) c.slot (chartOf s c.slot)) ∧
      t.bel.checks = s.bel.checks ∧ t.regs = s.regs ∧ t.mem = s.mem) ∧
  (∀ (s : State) (c : Check) (rest : List Check), s.bel.checks = c :: rest → pipeRuns s = true → waitingSolves s = [] →
    laneKind s 1 = some 0 → laneIdle s 0 = true → loaded s c.slot = true →
    fget s Reg.THM_STATUS Reg.THM_STATUS_LEVEL < 2 →
    ∃ t, exec .routeCheckStart s = .next t ∧ t.bel.laneA = some (Lane.mk 1 0 s.up (faultSet s) c.slot (chartOf s c.slot)) ∧
      t.bel.laneB = s.bel.laneB ∧ t.bel.checks = s.bel.checks ∧ t.regs = s.regs ∧ t.mem = s.mem) ∧
  (∀ (l : Fin 2) (s : State) (c : Check) (rest : List Check) (x : Lane), s.bel.checks = c :: rest → pipeRuns s = true →
    (l = 1 → laneDue s 0 1 = none) → laneDue s l 1 = some x →
    ∃ t, exec (.routeCheckComplete none) s = .next t ∧ t.bel.checks = rest ∧ laneOf t l = none ∧
      mget t 0x930840 8 = c.order % 2 ^ 64 ∧ mget t 0x930848 2 = (laneSol s x).unroute.length % 2 ^ 16) ∧
  (∀ (l : Fin 2) (w : Fin 512) (s : State) (c : Check) (rest : List Check) (x : Lane), s.bel.checks = c :: rest → pipeRuns s = true →
    (l = 1 → laneDue s 0 1 = none) → laneDue s l 1 = some x → laneOk s l = true →
    ∃ t, exec (.routeCheckComplete (some w)) s = .next t ∧ t.bel.checks = s.bel.checks ∧ laneOf t l = none ∧ laneOk t l = false ∧
      lanes t = lanes s - 1 ∧ Counted s t (Reg.RTS_CNT 9) 1) ∧
  (∀ (s : State) (c : Check), s.bel.checks.find? (fun c => decide (c.deadline ≤ s.now)) = some c → s.restart.inWindow = false →
    ∃ t, exec .routeCheckTimeout s = .next t ∧ t.bel.checks = s.bel.checks.erase c ∧ Counted s t (Reg.BEL_REFUSE 2) 1 ∧
      (s.bel.checks.head? = some c → laneKind t 0 ≠ some 1 ∧ laneKind t 1 ≠ some 1))

/-- R68, R75, R76, R121, R128, R253: what planning, arming, firing and playback do: the next solved bell gets a plan of exactly its changing
cells, from its inputs, or keeps the plan that it has, and is staging, or staged where no tile has an entry; in service the KICK window of the
next bell opens; KICK returns to IDLE; a staged bell is armed; an armed bell fires and its chart, states and generation come into force,
whatever the aborted bursts had seen; wave 2 begins, a FINAL entry ending at once; a profile ends at its final code, every other channel
unchanged. (The model's choices in it: notes/assumptions/19, 33, 37, 112, 117.) -/
def Obligations.BellsArePlannedArmedAndFired : Prop :=
  (∀ (s : State) (b : Bell) (x : Solution), (aheadBells s).find? (fun b => decide (b.st < 4)) = some b → pipeRuns s = true →
    b.st = 2 → b.sol = some x → (∀ k, (k < 96 ∨ ∃ p, b.plan = some p ∧ k ∈ p.tiles) → canPlan s k = true) →
    ∃ t p b', exec .planRequest s = .next t ∧ b' ∈ t.bel.bells ∧ b'.idx = b.idx ∧ b'.plan = some p ∧
      b'.st = (if p.tiles.isEmpty then 4 else 3) ∧ b'.sol = some x ∧
      (b.plan = none → p.cells.map (·.1) = changing (inputsOf s b) b x) ∧ (∀ q, b.plan = some q → p = q)) ∧
  (∀ (s : State) (b : Bell) (rest : List Bell), fireOrder s = b :: rest → inService s = true → b.t ≤ nowNs s + 5000 →
    (∀ w ∈ s.pwr.wins, w ≠ (b.idx, b.t + 1700)) → (b.st < 3 ∨ b.plan = none ∨ ∃ p, b.plan = some p ∧ p.kick = true) →
    ∃ t, exec .kickPreRaise s = .next t ∧ t = { s with regs := t.regs, pins := levels s t, pwr := t.pwr } ∧
      t.pwr.wins = s.pwr.wins.filter (fun w => decide (nowNs s ≤ w.2)) ++ [(b.idx, b.t + 1700)] ∧
      regsBut [Reg.PWR_CNT 7] s t ∧ Counted s t (Reg.PWR_CNT 7) 1) ∧
  (∀ (s : State), s.pwr.wins ≠ [] →
    (s.pwr.wins.map (·.2)).foldl max 0 + fget s Reg.PWR_KICK2 Reg.PWR_KICK2_HOLDOFF * 1000 ≤ nowNs s →
    ∃ t, exec .kickReturn s = .next t ∧ t = { s with pins := levels s t, pwr := t.pwr } ∧ t.pwr.wins = [] ∧
      (railLive s 4 = true → (railOf t 4).v1 = nV (fget s Reg.PWR_KICK Reg.PWR_KICK_IDLE) ∧ (railOf t 4).v0 = refNow s 4)) ∧
  (∀ (s : State) (b : Bell) (rest : List Bell) (p : Plan) (sol : Solution), liveOrder s = b :: rest → pipeRuns s = true →
    inService s = true → b.st = 4 → b.t ≤ nowNs s + 500 → b.plan = some p → b.sol = some sol →
    ∃ t b', exec .arm s = .next t ∧ b' ∈ t.bel.bells ∧ b'.idx = b.idx ∧ b'.st = 5 ∧ b'.plan = some p ∧ b'.sol = some sol) ∧
  (∀ (s : State) (seen : List (Fin 384 × List (Nat × Bool))) (b : Bell) (rest : List Bell) (p : Plan) (sol : Solution),
    liveOrder s = b :: rest → pipeRuns s = true → inService s = true → b.st = 5 → b.t ≤ nowNs s → b.plan = some p → b.sol = some sol →
    ∃ t b', exec (.fire seen) s = .next t ∧ b' ∈ t.bel.bells ∧ b'.idx = b.idx ∧ b'.st = 6 ∧ t.bel.lastFire = some b.t ∧
      t.bel.sol = some sol ∧ t.bel.forceChart = (chartFor s b).1 ∧ rget t Reg.RTS_IMG_GEN = BitVec.ofNat 32 b.gen) ∧
  (∀ (s : State) (h : Nat) (p : Play), h < 12288 → (chanOf s h).play = some p → p.begun = false → p.t0 + 20 * p.o ≤ nowNs s →
    ∃ t, exec .wave2Start s = .next t ∧ (p.mode = 1 → (chanOf t h).play = none) ∧
      (p.mode ≠ 1 → ∃ q, (chanOf t h).play = some q ∧ q.begun = true ∧ q.t0 = p.t0 ∧ q.o = p.o)) ∧
  (∀ (k : Fin 96) (c : Fin 128) (s : State) (p : Play), (chanOf s (128 * k + c)).play = some p → p.begun = true →
    p.t0 + 20 * (p.o + 32) ≤ nowNs s →
    ∃ t, exec (.playbackEnd k c) s = .next t ∧ (chanOf t (128 * k + c)).play = none ∧ codeOf t (128 * k + c) = p.fin % 65536 ∧
      (∀ h, h ≠ 128 * k.val + c.val → chanOf t h = chanOf s h) ∧ t.mem = s.mem ∧ t.bel = s.bel)

/-- R26, R77, R79, R81, R86, R89, R90, R129, R266: what verify and completion do: a landing check of a wave, after the comparators have followed
the currents of that instant, lands every cell of the wave that is not judged or reports IN, and ends in the second wave's check, in a retry or
in stage 5; a retry is armed in the tiles of its cells under the bell's generation, strobed, and checked: a cell still out of its window asks for
retirement; verify's completion ends the bell with a valid report, a restart's cut-off one too; a bell of a restart window, or due out of service,
is skipped with a report, a repair fire without one; a bell's pass is released; an open span begins with its group's mask, and ends. (The model's
choices in it: notes/assumptions/13, 35, 83, 106.) -/
def Obligations.FiredBellsAreVerifiedAndCompleted : Prop :=
  (∀ (s : State) (cur : List (Fin 12288 × Nat)) (w : Nat) (b : Bell) (p : Plan) (sol : Solution),
    verifying s (fun st => decide (st = 0 ∨ st = 1 ∨ st = 4)) = some b → bellAt s b.idx = some b → b.plan = some p → b.sol = some sol →
    (w = 0 ∧ b.ver.stage = 0 ∧ b.t + 680 ≤ nowNs s) ∨ (w = 1 ∧ b.ver.stage = 1 ∧ b.t + 800 ≤ nowNs s) →
    ∃ t u b', exec (.landingCheck cur) s = .next t ∧ u = p.tiles.foldl bellWake (cur.foldl (fun s c => cmpSee s c.1 c.2 0) s) ∧
      b' ∈ t.bel.bells ∧ b'.idx = b.idx ∧
      b'.ver.stage = (if w = 0 ∧ p.waves = 2 then 1 else if b'.ver.retry.isEmpty then 5 else 2) ∧
      ∀ c ∈ p.cells, c.2 = w → isRetired u c.1 = false → c.1 ∉ b.ver.landed →
        (c.1 ∈ b'.ver.landed ↔ ¬ (judgedCell u (crossings u sol.st u.bel.forceChart) c.1 = true ∧ inWindow u c.1 = false))) ∧
  (∀ (s : State) (cur : List (Fin 12288 × Nat)) (b : Bell) (p : Plan) (sol : Solution),
    verifying s (fun st => decide (st = 0 ∨ st = 1 ∨ st = 4)) = some b → bellAt s b.idx = some b → b.plan = some p → b.sol = some sol →
    b.ver.stage = 4 → b.t + 1680 ≤ nowNs s →
    ∃ t u b', exec (.landingCheck cur) s = .next t ∧ u = p.tiles.foldl bellWake (cur.foldl (fun s c => cmpSee s c.1 c.2 0) s) ∧
      b' ∈ t.bel.bells ∧ b'.idx = b.idx ∧ b'.ver.stage = 5 ∧
      ∀ i ∈ b.ver.retry, isRetired u i = false →
        (inWindow u i = true → i ∈ b'.ver.landed) ∧ (inWindow u i = false → (i, 3, b.t + 1700) ∈ t.bel.retireQ)) ∧
  (∀ (s : State) (b : Bell) (p : Plan), verifying s (fun st => decide (st = 2)) = some b → b.plan = some p → pipeRuns s = true →
    b.t + 960 ≤ nowNs s →
    ∃ t b', exec .retryArm s = .next t ∧ b' ∈ t.bel.bells ∧ b'.idx = b.idx ∧ b'.ver.stage = 3 ∧
      ∀ i ∈ b.ver.retry, i < 6144 → isRetired s i = false → (∃ e ∈ p.entries, e.h / 2 = i) →
        i / 64 ∈ b'.ver.rTiles ∧ fget t (Reg.DRV_ARM (i / 64)) Reg.DRV_ARM_RVALID = 1 ∧
        rget t (Reg.DRV_RETRY_GEN (i / 64)) = BitVec.ofNat 32 b.gen) ∧
  (∀ (s : State) (b : Bell), verifying s (fun st => decide (st = 3)) = some b → pipeRuns s = true → b.t + 1000 ≤ nowNs s →
    ∃ t b', exec .retryStrobe s = .next t ∧ b' ∈ t.bel.bells ∧ b'.idx = b.idx ∧ b'.ver.stage = 4 ∧ b'.ver.retry = b.ver.retry ∧
      ∀ k ∈ b.ver.rTiles, k < 96 → fget t (Reg.DRV_ARM k) Reg.DRV_ARM_RVALID = 0) ∧
  (∀ (s : State) (b : Bell) (p : Plan) (sol : Solution),
    (sortBy (fun b => (b.t : Int)) s.bel.bells).find? (fun b => decide (b.st = 6)) = some b → b.plan = some p → b.sol = some sol →
    pipeRuns s = true →
    (s.bel.cutOff.contains b.idx = true ∨
      (s.bel.cutOff.contains b.idx = false ∧ (∀ x ∈ fireOrder s, windowed s x = false) ∧ b.ver.stage = 5 ∧
        (∀ c ∈ p.cells, c.1 ∈ b.ver.landed ∨ isRetired s c.1 = true ∨ c.1 ∈ b.ver.passOn) ∧
        (seedsOpen s p.tiles = false ∨ b.t + 2000 ≤ nowNs s))) →
    ∃ t, exec .verifyComplete s = .next t ∧ (∀ x ∈ t.bel.bells, x.idx ≠ b.idx) ∧
      fget t Reg.BEL_REPORT_LAST Reg.BEL_REPORT_LAST_VALID = 1) ∧
  (∀ (s : State) (b : Bell) (rest : List Bell), fireOrder s = b :: rest → pipeRuns s = true → s.bel.cutOff = [] →
    b.t ≤ nowNs s → windowed s b = true ∨ inService s = false →
    ∃ t, exec .bellSkip s = .next t ∧ (∀ x ∈ t.bel.bells, x.idx ≠ b.idx) ∧
      (b.repair = false → fget t Reg.BEL_REPORT_LAST Reg.BEL_REPORT_LAST_VALID = 1) ∧ (b.repair = true → t.regs = s.regs)) ∧
  (∀ (s : State) (p : GPass), p ∈ s.pwr.passes → p.kind = 0 → p.start + 1700 ≤ nowNs s →
    (∀ b ∈ s.bel.bells, b.idx = p.entry → 6 ≤ b.st) →
    ∃ t q, exec .passRelease s = .next t ∧ q ∈ s.pwr.passes ∧ q.kind = 0 ∧ q.start + 1700 ≤ nowNs s ∧
      t.pwr.passes = s.pwr.passes.filter (fun x => !decide (x.entry = q.entry)) ∧ t.regs = s.regs) ∧
  (∀ (s : State) (x : Nat × Span) (rest : List (Nat × Span)), s.bel.openSpans = x :: rest → x.2.begun = false →
    x.1 + x.2.ofs ≤ nowNs s → spanOpen s x = true →
    ∃ t, exec .spanStart s = .next t ∧
      t.bel = { s.bel with openSpans := (x.1, { x.2 with begun := true, mask := groupMask s x.2.group }) :: rest } ∧
      t.regs = s.regs ∧ t.mem = s.mem ∧ t.pwr = s.pwr) ∧
  (∀ (s : State) (x : Nat × Span) (rest : List (Nat × Span)), s.bel.openSpans = x :: rest → spanOpen s x = false →
    ∃ t, exec .spanEnd s = .next t ∧ t.bel.openSpans = rest ∧ t.bel.bells = s.bel.bells)

/-- R123, R124, R135 to R137, R142: what the commands to a tile's drive block do, the three rows of DRV_CTRL alike: ENABLE takes the tile to ZERO
or names why not; RELEASE takes a parked tile to RUN and clears MANUAL, which follows its bit until then; parking ends in PARKED, or in RUN where
released; a pending register is kept under MANUAL, counted where the channel is owned, refused without MANUAL; DRV_LOAD is a load strobe of a
parked tile under MANUAL and nothing else; a self-test's channel number is stored, its GO starts it where it is allowed and none runs, and it ends
with its result, a failure with the channel's flag and kind. (The model's choices in it: notes/assumptions/17, 18.) -/
def Obligations.DriveCommandsAct : Prop :=
  (∀ (m : Master) (k : Fin 96) (v : BitVec 32) (s : State) (c : Instr), c = .drvEnable m k v ∨ c = .drvRelease m k v ∨ c = .manual m k v →
    Reaches s m (Reg.DRV_CTRL k) → bit v.toNat 0 = true → fget s (Reg.DRV_CTRL k) Reg.DRV_CTRL_ENABLE = 0 →
    ∃ t, exec c s = .next t ∧
      (enRefuse s k = 0 → fget t (Reg.DRV_CTRL k) Reg.DRV_CTRL_ENABLE = 1 ∧ drvState t k = 1) ∧
      (enRefuse s k ≠ 0 → fget t (Reg.DRV_CTRL k) Reg.DRV_CTRL_ENABLE = 0 ∧
        fget t (Reg.DRV_STATUS k) Reg.DRV_STATUS_ENREFUSE = enRefuse s k ∧ (bit v.toNat 1 = false → drvState t k = drvState s k))) ∧
  (∀ (m : Master) (k : Fin 96) (v : BitVec 32) (s : State) (c : Instr), c = .drvEnable m k v ∨ c = .drvRelease m k v ∨ c = .manual m k v →
    Reaches s m (Reg.DRV_CTRL k) → bit v.toNat 1 = true →
    fget s (Reg.DRV_CTRL k) Reg.DRV_CTRL_ENABLE = 1 → fget s (Reg.DRV_CTRL k) Reg.DRV_CTRL_RELEASE = 0 →
    ∃ t, exec c s = .next t ∧ fget t (Reg.DRV_CTRL k) Reg.DRV_CTRL_RELEASE = 1 ∧
      fget t (Reg.DRV_CTRL k) Reg.DRV_CTRL_MANUAL = 0 ∧ drvState t k = (if drvState s k = 3 then 4 else drvState s k)) ∧
  (∀ (m : Master) (k : Fin 96) (v : BitVec 32) (s : State) (c : Instr), c = .drvEnable m k v ∨ c = .drvRelease m k v ∨ c = .manual m k v →
    Reaches s m (Reg.DRV_CTRL k) → (bit v.toNat 0 = false ∨ fget s (Reg.DRV_CTRL k) Reg.DRV_CTRL_ENABLE = 1) →
    (bit v.toNat 1 = false ∨ fget s (Reg.DRV_CTRL k) Reg.DRV_CTRL_RELEASE = 1) →
    ∃ t, exec c s = .next t ∧ OnlyRegs [Reg.DRV_CTRL k] s t ∧ fget t (Reg.DRV_CTRL k) Reg.DRV_CTRL_MANUAL =
      (if fget s (Reg.DRV_CTRL k) Reg.DRV_CTRL_RELEASE = 0 then b2n (bit v.toNat 2) else 0)) ∧
  (∀ (k : Fin 96) (s : State), drvState s k = 2 → (∀ c < 128, slewing s (128 * k + c) = false) →
    ∃ t, exec (.parked k) s = .next t ∧
      drvState t k = (if fget s (Reg.DRV_CTRL k) Reg.DRV_CTRL_RELEASE = 1 then 4 else 3) ∧
      (fget s (Reg.DRV_CTRL k) Reg.DRV_CTRL_RELEASE = 0 → OnlyRegs [Reg.DRV_STATUS k] s t)) ∧
  (∀ (m : Master) (k : Fin 96) (c : Fin 128) (v : BitVec 32) (s : State), Reaches s m (Reg.DRV_CH_CODE k c) →
    drvManual s k = true → owned s (128 * k + c) = false →
    ∃ t, exec (.pendingRegisterWrite m k c v) s = .next t ∧ (chanOf t (128 * k + c)).written = true ∧
      fget t (Reg.DRV_CH_CODE k c) Reg.DRV_CH_CODE_CODE = v.toNat % 65536 ∧
      fget t (Reg.DRV_CH_CODE k c) Reg.DRV_CH_CODE_RANGE = v.toNat / 65536 % 2 ∧ regsBut [Reg.DRV_CH_CODE k c] s t ∧
      (∀ h, h ≠ 128 * k.val + c.val → chanOf t h = chanOf s h)) ∧
  (∀ (m : Master) (k : Fin 96) (c : Fin 128) (v : BitVec 32) (s : State), Reaches s m (Reg.DRV_CH_CODE k c) →
    drvManual s k = true → owned s (128 * k + c) = true →
    ∃ t, exec (.pendingRegisterWrite m k c v) s = .next t ∧ OnlyRegs [Reg.DRV_CNT k 3] s t ∧ Counted s t (Reg.DRV_CNT k 3) 1) ∧
  (∀ (m : Master) (k : Fin 96) (c : Fin 128) (v : BitVec 32) (s : State), Reaches s m (Reg.DRV_CH_CODE k c) → drvManual s k = false →
    ∃ t, exec (.pendingRegisterWrite m k c v) s = .next t ∧ t = { s with regs := t.regs, pins := levels s t, flt := t.flt, mnt := t.mnt } ∧
      regsBut [Reg.XBR_CNT 3, Reg.FLT_CNT 1, Reg.FLT_LOST (srcDrv k / 32)] s t ∧ Counted s t (Reg.XBR_CNT 3) 1) ∧
  (∀ (m : Master) (k : Fin 96) (v : BitVec 32) (s : State), Reaches s m (Reg.DRV_LOAD k) → v.toNat % 2 = 1 → drvManual s k = true →
    drvState s k = 3 →
    ∃ t, exec (.drvLoad m k v) s = .next t ∧ Counted s t (Reg.DRV_CNT k 0) 1 ∧
      (∀ c < 128, (chanOf t (128 * k + c)).written = false) ∧ t.mem = s.mem ∧ t.bel = s.bel) ∧
  (∀ (m : Master) (k : Fin 96) (v : BitVec 32) (s : State), Reaches s m (Reg.DRV_LOAD k) →
    (v.toNat % 2 = 0 ∨ drvManual s k = false ∨ drvState s k ≠ 3) → ∃ t, exec (.drvLoad m k v) s = .next t ∧ NoEffect s t) ∧
  (∀ (m : Master) (k : Fin 96) (v : BitVec 32) (s : State), Reaches s m (Reg.DRV_TEST k) →
    ∃ t, exec (.drvTest m k v) s = .next t ∧ fget t (Reg.DRV_TEST k) Reg.DRV_TEST_CH = v.toNat % 128 ∧ t.mem = s.mem ∧ t.bel = s.bel ∧
      (if bit v.toNat 8 = true ∧ fget s (Reg.DRV_TEST k) Reg.DRV_TEST_BUSY = 0 then
        (if (drvState s k = 3 ∧ drvManual s k = true) ∨ isRetired s ((128 * k + v.toNat % 128) / 2) = true
         then fget t (Reg.DRV_TEST k) Reg.DRV_TEST_BUSY = 1 ∧
          testOf t k = some (SelfTest.mk (128 * k + v.toNat % 128) 0 (codeOf s (128 * k + v.toNat % 128)) s.up)
         else fget t (Reg.DRV_TEST k) Reg.DRV_TEST_RESULT = 3 ∧ OnlyRegs [Reg.DRV_TEST k] s t)
       else OnlyRegs [Reg.DRV_TEST k] s t ∧ fget t (Reg.DRV_TEST k) Reg.DRV_TEST_BUSY = fget s (Reg.DRV_TEST k) Reg.DRV_TEST_BUSY)) ∧
  (∀ (k : Fin 96) (r : BitVec 2) (w : BitVec 16) (x : BitVec 6) (s : State) (y : SelfTest),
    fget s (Reg.DRV_TEST k) Reg.DRV_TEST_BUSY = 1 → testOf s k = some y → 126 ≤ y.step →
    ∃ t, exec (.selftestComplete k r w x) s = .next t ∧ fget t (Reg.DRV_TEST k) Reg.DRV_TEST_BUSY = 0 ∧ testOf t k = none ∧
      fget t (Reg.DRV_TEST k) Reg.DRV_TEST_RESULT = r.toNat ∧ fget t (Reg.DRV_TEST_RES k) Reg.DRV_TEST_RES_WORST = w.toNat ∧
      fget t (Reg.DRV_TEST_RES k) Reg.DRV_TEST_RES_ELEMENT = x.toNat ∧ t.mem = s.mem ∧ t.bel = s.bel ∧
      (r ≠ 0 → chFault t y.ch = 5 ∧ rbit t (Reg.DRV_FAULT k (y.ch % 128 / 32)) (y.ch % 32) = true)) ∧
  (∀ (k : Fin 96) (r : BitVec 2) (w : BitVec 16) (x : BitVec 6) (s : State),
    fget s (Reg.DRV_TEST k) Reg.DRV_TEST_BUSY = 0 ∨ testOver s k = false →
    ∃ t, exec (.selftestComplete k r w x) s = .next t ∧ NoEffect s t)

/-- R118 to R120, R122, R130, R139, R140, R142: what happens at a heater channel: a slew step moves the code by at most the step, a self-test's at
rest goes on to its next code; the measurement that is due gives R_est, and the next falls due 1 µs on; thresholds follow it, and no code stays
above CODE_VMAX; low headroom moves the channel up one rail; a fault that can be detected sets its flag and kind, asks for the cell's retirement and
clamps a short or an overcurrent; each does nothing else where it does not apply. (The model's choices in it: notes/assumptions/18, 67, 80.) -/
def Obligations.DriveEventsAct : Prop :=
  (∀ (k : Fin 96) (c : Fin 128) (s : State), slewing s (128 * k + c) = true → (chanOf s (128 * k + c)).play = none →
    (chanOf s (128 * k + c)).stepAt ≤ nowNs s → (chanOf s (128 * k + c)).target < 65536 →
    ∃ t, exec (.slewStep k c) s = .next t ∧
      codeOf t (128 * k + c) =
        (if codeOf s (128 * k + c) ≤ (chanOf s (128 * k + c)).target
         then codeOf s (128 * k + c) + min (fget s (Reg.DRV_SLEW k) Reg.DRV_SLEW_STEP + 1)
           ((chanOf s (128 * k + c)).target - codeOf s (128 * k + c))
         else codeOf s (128 * k + c) - min (fget s (Reg.DRV_SLEW k) Reg.DRV_SLEW_STEP + 1)
           (codeOf s (128 * k + c) - (chanOf s (128 * k + c)).target)) ∧
      slewing t (128 * k + c) = decide (codeOf t (128 * k + c) ≠ (chanOf s (128 * k + c)).target) ∧
      regsBut [Reg.DRV_CH_STAT k c, Reg.DRV_CNT k 5] s t ∧ (∀ h, h ≠ 128 * k.val + c.val → chanOf t h = chanOf s h)) ∧
  (∀ (k : Fin 96) (c : Fin 128) (s : State) (x : SelfTest), testOf s k = some x → x.ch = 128 * k.val + c.val →
    slewing s (128 * k + c) = false → x.step < 126 →
    ∃ t, exec (.slewStep k c) s = .next t ∧ testOf t k = some { x with step := x.step + 1 } ∧
      (x.step < 125 → (chanOf t (128 * k + c)).target = min (testCode (x.step + 1)) (codeVmax s (128 * k + c)))) ∧
  (∀ (k : Fin 96) (nA uV : Nat) (s : State), houseDue s k ≤ s.up → chRail s (houseChan s k) ≠ 7 → 1000000 ≤ nA →
    mismatch s (houseChan s k) nA = false →
    ∃ t, exec (.housekeepingMeasurement k nA uV) s = .next t ∧ houseDue t k = houseDue s k + 1000 ∧
      (chanOf t (houseChan s k)).meas =
        ((chanOf s (houseChan s k)).meas ++ [divRound (uV * 10000) nA]).drop ((chanOf s (houseChan s k)).meas.length + 1 - 8) ∧
      rEst t (houseChan s k) = divRound ((chanOf t (houseChan s k)).meas.foldl (· + ·) 0)
        (chanOf t (houseChan s k)).meas.length % 65536 ∧
      regsBut [resReg (houseChan s k)] s t) ∧
  (∀ (k : Fin 96) (nA uV : Nat) (s : State), s.up < houseDue s k →
    ∃ t, exec (.housekeepingMeasurement k nA uV) s = .next t ∧ NoEffect s t) ∧
  (∀ (k : Fin 96) (c : Fin 128) (s : State),
    ∃ t, exec (.thresholdRecompute k c) s = .next t ∧ t = { s with regs := t.regs, pins := levels s t, drv := t.drv } ∧
      codeVmax t (128 * k + c) = vmaxCode s (chRange s (128 * k + c)) (rEst s (128 * k + c)) ∧
      (∀ j < 4, upOf t (128 * k + c) j =
        topCode (railMV s j) (marginMV s k) (chRange s (128 * k + c)) (rEst s (128 * k + c))) ∧
      ((chanOf s (128 * k + c)).play = none →
        codeOf t (128 * k + c) ≤ codeVmax t (128 * k + c) ∧ (chanOf t (128 * k + c)).target ≤ codeVmax t (128 * k + c)) ∧
      regsBut [Reg.DRV_CH_TH0 k c, Reg.DRV_CH_TH1 k c, Reg.DRV_CH_RES k c, Reg.DRV_CH_STAT k c, Reg.DRV_CNT k 4] s t) ∧
  (∀ (k : Fin 96) (c : Fin 128) (s : State), chRail s (128 * k + c) < 4 →
    ∃ t, exec (.headroomStepUp k c) s = .next t ∧ OnlyRegs [Reg.DRV_CH_STAT k c, Reg.DRV_CNT k 5] s t ∧
      chRail t (128 * k + c) = chRail s (128 * k + c) + 1 ∧ codeOf t (128 * k + c) = codeOf s (128 * k + c) ∧
      Counted s t (Reg.DRV_CNT k 5) 1) ∧
  (∀ (k : Fin 96) (c : Fin 128) (s : State), 4 ≤ chRail s (128 * k + c) →
    ∃ t, exec (.headroomStepUp k c) s = .next t ∧ NoEffect s t) ∧
  (∀ (k : Fin 96) (c : Fin 128) (x : Fin 6) (s : State), faultOpen s (128 * k + c) x = true → chRail s (128 * k + c) ≠ 7 →
    ∃ t, exec (.channelFault k c x) s = .next t ∧ chFault t (128 * k + c) = x ∧
      rbit t (Reg.DRV_FAULT k (c / 32)) (c % 32) = true ∧
      t.bel.retireQ = s.bel.retireQ ++ [((128 * k.val + c.val) / 2, 6, gridAfter s.now)] ∧ (chanOf t (128 * k + c)).atFault = true ∧
      (x.val = 2 ∨ x.val = 3 → chRail t (128 * k + c) = 7 ∧ codeOf t (128 * k + c) = 0) ∧ t.mem = s.mem) ∧
  (∀ (k : Fin 96) (c : Fin 128) (x : Fin 6) (s : State), faultOpen s (128 * k + c) x = false ∨ chRail s (128 * k + c) = 7 →
    ∃ t, exec (.channelFault k c x) s = .next t ∧ NoEffect s t)

/-- R145 to R148, R150, R163 to R165, R167: what the commands to the monitor do: a tile's scan is enabled and its photodiodes biased, or the
refusal is named; an input's gain, dark code and enables are written, a gain change waiting for a burst; a window takes effect with a hold of
20 ns; a diagnostic conversion is asked for and gives the code of its photocurrent; a self-calibration starts or is refused, and its end takes
each ADC's result or failure; a conversion that times out takes its ADC out of scan; each does nothing else where it does not apply. (The model's
choices in it: notes/assumptions/24, 92, 93.) -/
def Obligations.MonitorCommandsAct : Prop :=
  (∀ (m : Master) (k : Fin 96) (v : BitVec 32) (s : State), Reaches s m (Reg.MON_CTRL k) → v.toNat % 2 = 1 → monOn s k = false →
    ∃ t, exec (.monEnable m k v) s = .next t ∧
      ((∀ j < 8, adcValid s (8 * k + j) = true) ∧ tileUsed (fm s) k = true ∧ mapHeld s = true →
        monOn t k = true ∧ fget t (Reg.MON_CTRL k) Reg.MON_CTRL_ENABLE = 1 ∧ tget t.mon.bias (0, 0) k = (mapBias (fm s), s.up)) ∧
      ((∃ j < 8, adcValid s (8 * k + j) = false) ∨ tileUsed (fm s) k = false ∨ mapHeld s = false →
        OnlyRegs [Reg.MON_STATUS k] s t ∧ monOn t k = false ∧
        ((∃ j < 8, adcValid s (8 * k + j) = false) → fget t (Reg.MON_STATUS k) Reg.MON_STATUS_ENREFUSE = 1) ∧
        ((∀ j < 8, adcValid s (8 * k + j) = true) →
          fget t (Reg.MON_STATUS k) Reg.MON_STATUS_ENREFUSE = (if tileUsed (fm s) k then 3 else 2)))) ∧
  (∀ (m : Master) (k : Fin 96) (v : BitVec 32) (s : State), Reaches s m (Reg.MON_CTRL k) → (v.toNat % 2 = 0 ∨ monOn s k = true) →
    ∃ t, exec (.monEnable m k v) s = .next t ∧ NoEffect s t) ∧
  (∀ (m : Master) (k : Fin 96) (j : Fin 128) (v : BitVec 32) (s : State), Reaches s m (Reg.MON_IN_CFG k j) →
    ∃ t, exec (.gainChange m k j v) s = .next t ∧ fget t (Reg.MON_IN_CFG k j) Reg.MON_IN_CFG_DARK = v.toNat / 16 % 1024 ∧
      fget t (Reg.MON_IN_CFG k j) Reg.MON_IN_CFG_WAKE_EN = v.toNat / 2 ^ 17 % 2 ∧
      fget t (Reg.MON_IN_CFG k j) Reg.MON_IN_CFG_FILT = v.toNat / 2 ^ 18 % 4 ∧
      fget t (Reg.MON_IN_CFG k j) Reg.MON_IN_CFG_CMP_EN =
        (if cellUsable s ((128 * k + j) / 2) then v.toNat / 2 ^ 16 % 2 else 0) ∧
      (underBurst s (128 * k + j) = false → fget t (Reg.MON_IN_CFG k j) Reg.MON_IN_CFG_GAIN = v.toNat % 8) ∧
      (underBurst s (128 * k + j) = true → gainOf t (128 * k + j) = gainOf s (128 * k + j) ∧
        (min 4 (v.toNat % 8) ≠ gainOf s (128 * k + j) → (inpOf t (128 * k + j)).gainWait = some (v.toNat % 8))) ∧
      regsBut [Reg.MON_IN_CFG k j, Reg.MON_IN_WIN k j] s t ∧ t.mem = s.mem) ∧
  (∀ (m : Master) (k : Fin 96) (j : Fin 128) (v : BitVec 32) (s : State), Reaches s m (Reg.MON_IN_WIN k j) →
    ∃ t, exec (.windowWrite m k j v) s = .next t ∧ fget t (Reg.MON_IN_WIN k j) Reg.MON_IN_WIN_LO = v.toNat % 4096 ∧
      fget t (Reg.MON_IN_WIN k j) Reg.MON_IN_WIN_HI = v.toNat / 65536 % 4096 ∧
      fget t (Reg.MON_IN_WIN k j) Reg.MON_IN_WIN_STATE = fget s (Reg.MON_IN_WIN k j) Reg.MON_IN_WIN_STATE ∧
      (inpOf t (128 * k + j)).holdEnd = some (s.up + 20) ∧ regsBut [Reg.MON_IN_WIN k j] s t) ∧
  (∀ (m : Master) (k : Fin 96) (v : BitVec 32) (s : State), Reaches s m (Reg.MON_DIAG k) →
    ∃ t, exec (.monDiag m k v) s = .next t ∧ OnlyRegs [Reg.MON_DIAG k] s t ∧
      fget t (Reg.MON_DIAG k) Reg.MON_DIAG_INPUT = v.toNat % 128 ∧
      fget t (Reg.MON_DIAG k) Reg.MON_DIAG_BUSY = (if bit v.toNat 7 then 1 else fget s (Reg.MON_DIAG k) Reg.MON_DIAG_BUSY)) ∧
  (∀ (k : Fin 96) (cur : Nat) (rec : Bool) (s : State),
    ∃ t i, exec (.diagConversion k cur rec) s = .next t ∧ i = 128 * k.val + fget s (Reg.MON_DIAG k) Reg.MON_DIAG_INPUT ∧
      (if fget s (Reg.MON_DIAG k) Reg.MON_DIAG_BUSY = 0 then NoEffect s t
       else OnlyRegs [Reg.MON_DIAG k, Reg.MON_CNT k 7] s t ∧ fget t (Reg.MON_DIAG k) Reg.MON_DIAG_BUSY = 0 ∧
        fget t (Reg.MON_DIAG k) Reg.MON_DIAG_SAMPLE % 4096 = codeFor s i cur ∧
        fget t (Reg.MON_DIAG k) Reg.MON_DIAG_SAMPLE / 8192 % 2 = b2n (overFor s i cur rec))) ∧
  (∀ (m : Master) (v : BitVec 32) (s : State) (c : Instr), c = .adcCalibrationAll m v ∨ c = .adcCalibrationSingle m v →
    Reaches s m Reg.CAL_ADC_CMD → bit v.toNat 11 = true → bit v.toNat 10 = true →
    ∃ t, exec c s = .next t ∧
      (s.mon.calRun = none ∧ (∀ k < 96, monOn s k = false) → t.mon.calRun = some none ∧
        fget t Reg.CAL_ADC_STATUS Reg.CAL_ADC_STATUS_BUSY = 1 ∧ fget t Reg.CAL_ADC_STATUS Reg.CAL_ADC_STATUS_REFUSED = 0) ∧
      (s.mon.calRun ≠ none ∨ (∃ k < 96, monOn s k = true) →
        t.mon = s.mon ∧ fget t Reg.CAL_ADC_STATUS Reg.CAL_ADC_STATUS_REFUSED = 1)) ∧
  (∀ (m : Master) (v : BitVec 32) (s : State) (c : Instr), c = .adcCalibrationAll m v ∨ c = .adcCalibrationSingle m v →
    Reaches s m Reg.CAL_ADC_CMD → bit v.toNat 11 = true → bit v.toNat 10 = false →
    ∃ t a, exec c s = .next t ∧ a = v.toNat % 1024 ∧
      (if s.mon.calRun = none ∧ a < 768 ∧ adcOk s (partner a) = true ∧ tileUsed (fm s) (a / 8) = true then
        t.mon.calRun = some (some a) ∧
        fget t Reg.CAL_ADC_STATUS Reg.CAL_ADC_STATUS_BUSY = 1 ∧ fget t Reg.CAL_ADC_STATUS Reg.CAL_ADC_STATUS_REFUSED = 0
       else t.mon = s.mon ∧ fget t Reg.CAL_ADC_STATUS Reg.CAL_ADC_STATUS_REFUSED = 1)) ∧
  (∀ (m : Master) (v : BitVec 32) (s : State) (c : Instr), c = .adcCalibrationAll m v ∨ c = .adcCalibrationSingle m v →
    Reaches s m Reg.CAL_ADC_CMD → bit v.toNat 11 = false → ∃ t, exec c s = .next t ∧ OnlyRegs [Reg.CAL_ADC_CMD] s t) ∧
  (∀ (res : List (Fin 768 × BitVec 12 × BitVec 16 × List (BitVec 16))) (s : State), s.mon.calRun ≠ none →
    ∃ t, exec (.selfCalibrationComplete res) s = .next t ∧ t.mon.calRun = none ∧
      fget t Reg.CAL_ADC_STATUS Reg.CAL_ADC_STATUS_BUSY = 0 ∧
      ∀ r ∈ res, adcInCal s r.1 = true → (∀ x ∈ res, x.1 = r.1 → x = r) →
        (calFit r.2.1.toNat r.2.2.1.toNat = true → adcValid t r.1 = true ∧
          fget t (Reg.MON_ADC_CAL (r.1 / 8) (r.1 % 8)) Reg.MON_ADC_CAL_OFFSET = r.2.1.toNat ∧
          fget t (Reg.MON_ADC_CAL (r.1 / 8) (r.1 % 8)) Reg.MON_ADC_CAL_GAIN = r.2.2.1.toNat ∧
          tget t.mon.caps [] r.1 = (r.2.2.2.map (·.toNat)).take 6) ∧
        (calFit r.2.1.toNat r.2.2.1.toNat = false → adcOk t r.1 = false)) ∧
  (∀ (res : List (Fin 768 × BitVec 12 × BitVec 16 × List (BitVec 16))) (s : State), s.mon.calRun = none →
    ∃ t, exec (.selfCalibrationComplete res) s = .next t ∧ NoEffect s t) ∧
  (∀ (a : Fin 768) (s : State),
    ∃ t, exec (.adcConversionTimeout a) s = .next t ∧
      (if monOn s (a / 8) = true ∧ adcRuns s a = true then adcOk t a = false ∧
        fget t (Reg.MON_WATCH (a / 8) (a / 2 % 4)) Reg.MON_WATCH_SINGLE = 1 ∧ t.mem = s.mem
       else NoEffect s t))

/-- R144, R147 to R157: what happens at the monitor's inputs: an exit and the end of a hold judge STATE by the window, outside holds and blanking;
one that has lasted the filter time sets its flag, counts, and makes a wake request where enabled and not masked; a conversion gives the code of
its photocurrent less the dark current and the scan goes on; a watch burst takes its pair with the next request and gives it back; each does
nothing else where it does not apply. (The model's choices in it: notes/assumptions/23, 24, 92, 95.) -/
def Obligations.MonitorEventsAct : Prop :=
  (∀ (k : Fin 96) (j : Fin 128) (cur : Nat) (ns : Fin 64) (s : State) (i : Nat) (c : Instr), i = 128 * k.val + j.val →
    (c = .exit k j cur ns ∨ (c = .windowHoldEnd k j cur ns ∧ (inpOf s i).holdEnd.isSome = true)) →
    cmpOn s i = true → (inpOf s i).blankEnd ≤ s.up → (∀ e, (inpOf s i).holdEnd = some e → e ≤ s.up) →
    ∃ t, exec c s = .next t ∧ (inpOf t i).holdEnd = none ∧ fget t (Reg.MON_IN_WIN k j) Reg.MON_IN_WIN_STATE = winState s i cur ∧
      (if winState s i cur ≠ 1 ∧ ((inpOf s i).exitWait = true ∨ (inpOf s i).holdEnd.isSome = true ∨
          fget s (Reg.MON_IN_WIN k j) Reg.MON_IN_WIN_STATE = 1) then
        (if filtNs s i ≤ ns then rbit t (Reg.MON_EXIT k (j / 32)) (j % 32) = true ∧ Counted s t (Reg.MON_CNT k 0) 1 ∧
          (inpOf t i).exitWait = false ∧
          (wakeMasked s (i / 2) = false → fget s (Reg.MON_IN_CFG k j) Reg.MON_IN_CFG_WAKE_EN = 1 →
            Counted s t (Reg.MON_CNT k 1) 1 ∧ exitWake t k = true) ∧
          (wakeMasked s (i / 2) = true → i ∈ t.mon.masked ∧ rget t (Reg.MON_CNT k 1) = rget s (Reg.MON_CNT k 1))
         else (inpOf t i).exitWait = true ∧ regsBut [Reg.MON_IN_WIN k j] s t)
       else (inpOf t i).exitWait = false ∧ regsBut [Reg.MON_IN_WIN k j] s t)) ∧
  (∀ (k : Fin 96) (j : Fin 128) (cur : Nat) (ns : Fin 64) (s : State),
    cmpOn s (128 * k + j) = false ∨ s.up < (inpOf s (128 * k + j)).blankEnd ∨
      (∃ e, (inpOf s (128 * k + j)).holdEnd = some e ∧ s.up < e) →
    ∃ t, exec (.exit k j cur ns) s = .next t ∧ NoEffect s t) ∧
  (∀ (k : Fin 96) (j : Fin 128) (cur : Nat) (ns : Fin 64) (s : State),
    (∀ e, (inpOf s (128 * k + j)).holdEnd = some e → s.up < e) ∨
      (cmpOn s (128 * k + j) = true ∧ s.up < (inpOf s (128 * k + j)).blankEnd) →
    ∃ t, exec (.windowHoldEnd k j cur ns) s = .next t ∧ NoEffect s t) ∧
  (∀ (a : Fin 768) (cur : Nat) (rec : Bool) (s : State), monOn s (a / 8) = true → adcRuns s a = true →
    scanStopped s = false → fget s (Reg.MON_STATUS (a / 8)) Reg.MON_STATUS_SUSPENDED = 0 → (pairGet s (a / 2)).burst = none →
    scanList s a ≠ [] →
    ∃ t i, exec (.scanConversion a cur rec) s = .next t ∧
      i = (scanList s a).getD (tget s.mon.slots 0 a % (scanList s a).length) 0 ∧
      tget t.mon.slots 0 a = (tget s.mon.slots 0 a + 1) % (scanList s a).length ∧
      fget t (lastReg i) Reg.MON_IN_LAST_SAMPLE % 4096 =
        min 4095 (4096 * (cur - 100 * fget s (cfgReg i) Reg.MON_IN_CFG_DARK) / ifsPA (gainOf s i)) ∧
      fget t (lastReg i) Reg.MON_IN_LAST_SEQ = (fget s (lastReg i) Reg.MON_IN_LAST_SEQ + 1) % 256) ∧
  (∀ (a : Fin 768) (cur : Nat) (rec : Bool) (s : State), monOn s (a / 8) = false ∨ adcRuns s a = false ∨ scanStopped s = true ∨
      fget s (Reg.MON_STATUS (a / 8)) Reg.MON_STATUS_SUSPENDED = 1 ∨ (pairGet s (a / 2)).burst.isSome = true ∨ scanList s a = [] →
    ∃ t, exec (.scanConversion a cur rec) s = .next t ∧ NoEffect s t) ∧
  (∀ (p : Fin 384) (s : State) (q : Req) (rest : List Req), (pairGet s p).queue = q :: rest → (pairGet s p).burst = none →
    scanStopped s = false → (q.bell = true ∨ fget s (Reg.MON_STATUS (p / 4)) Reg.MON_STATUS_SUSPENDED = 0) →
    (q.bell = true ∨ inPassInterval s = true ∨ 1000 ≤ tokens s) → (adcRuns s (2 * p) = true ∨ adcRuns s (2 * p + 1) = true) →
    ∃ t, exec (.watchBurstStart p) s = .next t ∧ pairGet t p = { queue := rest, burst := some (q, s.up, burstN s p) } ∧
      fget t (Reg.MON_WATCH (p / 4) (p % 4)) Reg.MON_WATCH_ACTIVE = 1 ∧
      fget t (Reg.MON_WATCH (p / 4) (p % 4)) Reg.MON_WATCH_INPUT = q.input % 128 ∧
      fget t (Reg.MON_WATCH (p / 4) (p % 4)) Reg.MON_WATCH_QLEN = rest.length % 8 ∧ Counted s t (Reg.MON_CNT (p / 4) 2) 1 ∧
      (∀ x, x ≠ p.val → pairGet t x = pairGet s x) ∧ t.mem = s.mem) ∧
  (∀ (p : Fin 384) (l : List (Nat × Bool)) (s : State) (q : Req) (t0 n : Nat), (pairGet s p).burst = some (q, t0, n) →
    t0 + burstNs s p n ≤ s.up →
    ∃ t, exec (.watchBurstEnd p l) s = .next t ∧ pairGet t p = { queue := (pairGet s p).queue, burst := none } ∧
      fget t (Reg.MON_WATCH (p / 4) (p % 4)) Reg.MON_WATCH_ACTIVE = 0 ∧
      fget t (lastReg (128 * (p / 4) + q.input)) Reg.MON_IN_LAST_SEQ =
        (fget s (lastReg (128 * (p / 4) + q.input)) Reg.MON_IN_LAST_SEQ + min n l.length) % 256 ∧
      (∀ x, x ≠ p.val → pairGet t x = pairGet s x) ∧ t.mem = s.mem) ∧
  (∀ (p : Fin 384) (l : List (Nat × Bool)) (s : State), (∀ q t0 n, (pairGet s p).burst = some (q, t0, n) → s.up < t0 + burstNs s p n) →
    ∃ t, exec (.watchBurstEnd p l) s = .next t ∧ NoEffect s t)

/-- R208, R219: the results of the ALU instructions: D takes the sum, the difference, the saturated sum or difference, the bitwise results, the
shifts by fewer than 24 places, minimum, maximum, absolute value and negation (of a value other than −2^23), and the immediate forms. -/
def Obligations.AluInstructionsCompute : Prop :=
  (∀ (k : Fin 100) (d a b : Fin 16) (fl : Bool),
    Computes (.add k d a b fl) k (ixD d) (fun s => enc (sD s k a + sD s k b) 24) ∧
    Computes (.sub k d a b fl) k (ixD d) (fun s => enc (sD s k a - sD s k b) 24) ∧
    Computes (.adds k d a b fl) k (ixD d) (fun s => enc (satS (sD s k a + sD s k b) 24) 24) ∧
    Computes (.subs k d a b fl) k (ixD d) (fun s => enc (satS (sD s k a - sD s k b) 24) 24) ∧
    Computes (.and k d a b fl) k (ixD d) (fun s => (rdD s k a &&& rdD s k b) % 2 ^ 24) ∧
    Computes (.or k d a b fl) k (ixD d) (fun s => (rdD s k a ||| rdD s k b) % 2 ^ 24) ∧
    Computes (.xor k d a b fl) k (ixD d) (fun s => (rdD s k a ^^^ rdD s k b) % 2 ^ 24) ∧
    Computes (.min k d a b fl) k (ixD d) (fun s => enc (min (sD s k a) (sD s k b)) 24) ∧
    Computes (.max k d a b fl) k (ixD d) (fun s => enc (max (sD s k a) (sD s k b)) 24)) ∧
  (∀ (k : Fin 100) (d a b : Fin 16) (fl : Bool) (s : State), Issues s k → rdD (cycle s k) k b < 24 →
    (∃ t, exec (.shl k d a b fl) s = .next t ∧ OtherCores s t k ∧
      bankReg s t k (ixD d) = rdD (cycle s k) k a * 2 ^ rdD (cycle s k) k b % 2 ^ 24) ∧
    (∃ t, exec (.shr k d a b fl) s = .next t ∧ OtherCores s t k ∧
      bankReg s t k (ixD d) = rdD (cycle s k) k a / 2 ^ rdD (cycle s k) k b % 2 ^ 24) ∧
    (∃ t, exec (.asr k d a b fl) s = .next t ∧ OtherCores s t k ∧
      bankReg s t k (ixD d) = enc (sD (cycle s k) k a / 2 ^ rdD (cycle s k) k b) 24)) ∧
  (∀ (k : Fin 100) (d a : Fin 16) (fl : Bool) (s : State), Issues s k → rdD (cycle s k) k a ≠ 2 ^ 23 →
    (∃ t, exec (.abs k d a fl) s = .next t ∧ OtherCores s t k ∧ bankReg s t k (ixD d) = (sD (cycle s k) k a).natAbs % 2 ^ 24) ∧
    (∃ t, exec (.neg k d a fl) s = .next t ∧ OtherCores s t k ∧ bankReg s t k (ixD d) = enc (-(sD (cycle s k) k a)) 24)) ∧
  (∀ (k : Fin 100) (d a : Fin 16) (imm : BitVec 16),
    Computes (.addi k d a imm) k (ixD d) (fun s => enc (sD s k a + sext imm.toNat 16) 24) ∧
    Computes (.andi k d a imm) k (ixD d) (fun s => (rdD s k a &&& imm.toNat) % 2 ^ 24) ∧
    (imm.toNat < 24 →
      Computes (.shli k d a imm) k (ixD d) (fun s => rdD s k a * 2 ^ imm.toNat % 2 ^ 24) ∧
      Computes (.shri k d a imm) k (ixD d) (fun s => rdD s k a / 2 ^ imm.toNat % 2 ^ 24) ∧
      Computes (.asri k d a imm) k (ixD d) (fun s => enc (sD s k a / 2 ^ imm.toNat) 24))) ∧
  (∀ (k : Fin 100) (d : Fin 16) (imm : BitVec 24), Computes (.ldi k d imm) k (ixD d) (fun _ => imm.toNat))

/-- R200, R205, R208, R219: flags: an ALU instruction of the flag-setting form sends Z and N of its result, V where the exact result does not fit,
and C of an addition or subtraction; CMP and CMPI send those of a difference; CMPA those of the accumulator minus D. Where the specification
states no result (a shift by 24 or more, ABS and NEG of −2^23, NORM) the instruction still completes; that its C, and that result, are open is the
model's reading (notes/assumptions/40, 41). -/
def Obligations.AluInstructionsSetFlags : Prop :=
  (∀ (k : Fin 100) (d a b : Fin 16),
    SetsFlags (.add k d a b true) k (fun s x => x = flagsOf (zOf (enc (sD s k a + sD s k b) 24)) (nOf (enc (sD s k a + sD s k b) 24))
      (ovf24 (sD s k a + sD s k b)) (carryAdd (rdD s k a) (rdD s k b))) ∧
    SetsFlags (.sub k d a b true) k (fun s x => x = flagsOf (zOf (enc (sD s k a - sD s k b) 24)) (nOf (enc (sD s k a - sD s k b) 24))
      (ovf24 (sD s k a - sD s k b)) (carrySub (rdD s k a) (rdD s k b))) ∧
    SetsFlags (.and k d a b true) k (fun s x => ∃ c, x = flagsOf (zOf (rdD s k a &&& rdD s k b)) (nOf (rdD s k a &&& rdD s k b)) false c) ∧
    SetsFlags (.or k d a b true) k (fun s x => ∃ c, x = flagsOf (zOf (rdD s k a ||| rdD s k b)) (nOf (rdD s k a ||| rdD s k b)) false c) ∧
    SetsFlags (.xor k d a b true) k (fun s x => ∃ c, x = flagsOf (zOf (rdD s k a ^^^ rdD s k b)) (nOf (rdD s k a ^^^ rdD s k b)) false c) ∧
    SetsFlags (.cmp k a b) k (fun s x => x = flagsOf (decide (sD s k a = sD s k b)) (nOf (enc (sD s k a - sD s k b) 24))
      (ovf24 (sD s k a - sD s k b)) (carrySub (rdD s k a % 2 ^ 24) (rdD s k b % 2 ^ 24)))) ∧
  (∀ (k : Fin 100) (a : Fin 16) (imm : BitVec 16),
    SetsFlags (.cmpi k a imm) k (fun s x => ∃ c, x = flagsOf (decide (sD s k a = s24 (enc (sext imm.toNat 16) 24)))
      (nOf (enc (sD s k a - s24 (enc (sext imm.toNat 16) 24)) 24)) (ovf24 (sD s k a - s24 (enc (sext imm.toNat 16) 24))) c)) ∧
  (∀ (k : Fin 100) (acc : Fin 4) (d : Fin 16),
    SetsFlags (.cmpa k acc d) k (fun s x => ∃ c, x = flagsOf (decide (accSeen s k acc = sD s k d)) (decide (accSeen s k acc < sD s k d))
      (decide (accSeen s k acc - sD s k d ≠ satS (accSeen s k acc - sD s k d) 56)) c)) ∧
  (∀ (k : Fin 100) (d a b : Fin 16) (imm : BitVec 16) (fl : Bool) (c : Instr) (s : State), Issues s k →
    c ∈ [Instr.norm k d a fl, .shl k d a b fl, .shr k d a b fl, .asr k d a b fl, .shli k d a imm, .shri k d a imm, .asri k d a imm,
      .abs k d a fl, .neg k d a fl] →
    ∃ t, exec c s = .next t ∧ bankReg s t k (ixD d) < 2 ^ 24 ∧ OtherCores s t k)

/-- R201, R205, R207 to R209: the multiply and accumulator instructions: a product, signed or unsigned, of D registers or memory words, doubled by
the .F form, goes to, is added to or is subtracted from an accumulator, which saturates at 56 bits; MAC2 accumulates two products, in ACCp and
ACCp + 1, and is illegal where there is none (the model's reading, notes/assumptions/42), and CMAC and CMSU a complex one; MOVA rounds and saturates
into D; CLR clears; LD.A and ST.A move 56 bits. (The model's choices in it: notes/assumptions/42.) -/
def Obligations.MultipliesAccumulate : Prop :=
  (∀ (k : Fin 100) (acc : Fin 4) (o : MulOpd) (frac ua ub : Bool) (s u : State) (x y : Nat), Issues s k →
    mulOpds (cycle s k) k o = some (x, y, u) →
    (∃ t, exec (.mul k acc o frac ua ub) s = .next t ∧ OtherCores s t k ∧
      bankReg s t k (ixAcc acc) = enc (satS (mulProd (mulVal x ua) (mulVal y ub) frac) 56) 56) ∧
    (∃ t, exec (.mac k acc o frac ua ub) s = .next t ∧ OtherCores s t k ∧
      bankReg s t k (ixAcc acc) = enc (satS (accGet u k acc + mulProd (mulVal x ua) (mulVal y ub) frac) 56) 56) ∧
    (∃ t, exec (.msu k acc o frac ua ub) s = .next t ∧ OtherCores s t k ∧
      bankReg s t k (ixAcc acc) = enc (satS (accGet u k acc - mulProd (mulVal x ua) (mulVal y ub) frac) 56) 56)) ∧
  (∀ (k : Fin 100) (p : Fin 4) (d : Fin 16) (mx my : MemForm) (frac ua ub : Bool) (s u : State) (x y : Nat), Issues s k → p.val < 3 →
    slotPair (cycle s k) k mx my = some (x, y, u) →
    ∃ t, exec (.mac2 k p d mx my frac ua ub) s = .next t ∧ OtherCores s t k ∧
      bankReg s t k (ixAcc p) = enc (satS (accGet u k p + mulProd (mulVal (rdD (cycle s k) k d) ua) (mulVal x ub) frac) 56) 56 ∧
      bankReg s t k (ixAcc (p + 1)) =
        enc (satS (accGet u k (p + 1) + mulProd (mulVal (rdD (cycle s k) k d) ua) (mulVal y ub) frac) 56) 56) ∧
  (∀ (k : Fin 100) (d : Fin 16) (mx my : MemForm) (frac ua ub : Bool) (s : State), Issues s k → (coreOf s k).pc < 0x6000 →
    ∃ t, exec (.mac2 k 3 d mx my frac ua ub) s = .next t ∧ coreState t k = 3 ∧
      fget t (Reg.TRK_FAULT k) Reg.TRK_FAULT_KIND = 3 ∧ fget t (Reg.TRK_FAULT k) Reg.TRK_FAULT_PC = (coreOf s k).pc) ∧
  (∀ (k : Fin 100) (p : Fin 2) (d : Fin 8) (mx my : MemForm) (frac : Bool) (s u : State) (x y : Nat) (re im : Int), Issues s k →
    slotPair (cycle s k) k mx my = some (x, y, u) → re = sD (cycle s k) k (2 * d) → im = sD (cycle s k) k (2 * d + 1) →
    (∃ t, exec (.cmac k p d mx my frac) s = .next t ∧ OtherCores s t k ∧
      bankReg s t k (ixAcc (2 * p)) =
        enc (satS (accGet u k (2 * p) + (mulProd re (s24 x) frac - mulProd im (s24 y) frac)) 56) 56 ∧
      bankReg s t k (ixAcc (2 * p + 1)) =
        enc (satS (accGet u k (2 * p + 1) + (mulProd re (s24 y) frac + mulProd im (s24 x) frac)) 56) 56) ∧
    (∃ t, exec (.cmsu k p d mx my frac) s = .next t ∧ OtherCores s t k ∧
      bankReg s t k (ixAcc (2 * p)) =
        enc (satS (accGet u k (2 * p) - (mulProd re (s24 x) frac - mulProd im (s24 y) frac)) 56) 56 ∧
      bankReg s t k (ixAcc (2 * p + 1)) =
        enc (satS (accGet u k (2 * p + 1) - (mulProd re (s24 y) frac + mulProd im (s24 x) frac)) 56) 56)) ∧
  (∀ (k : Fin 100) (d : Fin 16) (acc : Fin 4) (n : Fin 64), n.val < 48 →
    Computes (.mova k d acc n) k (ixD d) (fun s => enc (satS (roundShift (accSeen s k acc) n) 24) 24)) ∧
  (∀ (k : Fin 100) (acc : Fin 4), Computes (.clr k acc) k (ixAcc acc) (fun _ => 0)) ∧
  (∀ (k : Fin 100) (acc : Fin 4) (m : MemForm), shortForm m = true →
    SendsWrite (.ldA k acc m) k (fun s => if aligned (memAddr s k m).1 8 = true
      then some (regLate s k (ixAcc acc) 1 (dget s k (memAddr s k m).1 8 % 2 ^ 56)) else none) ∧
    SendsWrite (.stA k acc m) k (fun s => if aligned (memAddr s k m).1 8 = true ∧ storeOk s k (memAddr s k m).1 8 = true
      then some (Late.mk 3 2 ((memAddr s k m).1 % 65536) 8 (enc (accSeen s k acc) 64)) else none))

/-- R201, R205, R209, R219: loads and stores of aligned operands, dual loads, and the address registers: a load reaches D after one delay slot, a
store reaches the data memory and a move an address register after two; LEA forms an address. (The model's choices in it: notes/assumptions/42.) -/
def Obligations.LoadsStoresAndAddresses : Prop :=
  (∀ (k : Fin 100) (d : Fin 16) (m : MemForm),
    SendsWrite (.ldB k d m) k (fun s => some (regLate s k (ixD d) 1 (enc (sext (dget s k (memAddr s k m).1 1) 8) 24))) ∧
    SendsWrite (.ldBu k d m) k (fun s => some (regLate s k (ixD d) 1 (dget s k (memAddr s k m).1 1 % 2 ^ 24))) ∧
    SendsWrite (.ldH k d m) k (fun s => if aligned (memAddr s k m).1 2 = true
      then some (regLate s k (ixD d) 1 (enc (sext (dget s k (memAddr s k m).1 2) 16) 24)) else none) ∧
    SendsWrite (.ldHu k d m) k (fun s => if aligned (memAddr s k m).1 2 = true
      then some (regLate s k (ixD d) 1 (dget s k (memAddr s k m).1 2 % 2 ^ 24)) else none) ∧
    SendsWrite (.ldW k d m) k (fun s => if aligned (memAddr s k m).1 4 = true
      then some (regLate s k (ixD d) 1 (wordAt s k (memAddr s k m).1)) else none) ∧
    SendsWrite (.stB k d m) k (fun s => if storeOk s k (memAddr s k m).1 1 = true
      then some (Late.mk 3 2 ((memAddr s k m).1 % 65536) 1 (enc (sD s k d) 8)) else none) ∧
    SendsWrite (.stH k d m) k (fun s => if aligned (memAddr s k m).1 2 = true ∧ storeOk s k (memAddr s k m).1 2 = true
      then some (Late.mk 3 2 ((memAddr s k m).1 % 65536) 2 (enc (sD s k d) 16)) else none) ∧
    SendsWrite (.stW k d m) k (fun s => if aligned (memAddr s k m).1 4 = true ∧ storeOk s k (memAddr s k m).1 4 = true
      then some (Late.mk 3 2 ((memAddr s k m).1 % 65536) 4 (enc (sD s k d) 32)) else none)) ∧
  (∀ (k : Fin 100) (d e : Fin 16) (x y : MemForm), shortForm x = true → shortForm y = true →
    SendsWrite (.ld2 k d e x y) k (fun s => if aligned (memAddr s k x).1 4 = true ∧ aligned (memAddr s k y).1 4 = true
      then some (regLate s k (ixD d) 1 (wordAt s k (memAddr s k x).1)) else none) ∧
    SendsWrite (.ld2 k d e x y) k (fun s => if aligned (memAddr s k x).1 4 = true ∧ aligned (memAddr s k y).1 4 = true
      then some (regLate s k (ixD e) 1 (wordAt s k (memAddr s k y).1)) else none)) ∧
  (∀ (k : Fin 100) (r : AddrReg) (n : Fin 8) (d : Fin 16) (v : BitVec 16),
    SendsWrite (.mov k r n (.fromD d)) k (fun s => some (regLate s k (ixAddr r n) 2 (rdD s k d % 2 ^ 16))) ∧
    SendsWrite (.mov k r n (.imm v)) k (fun s => some (regLate s k (ixAddr r n) 2 v.toNat)) ∧
    Computes (.mov k r n (.toD d)) k (ixD d) (fun s => rf s k (ixAddr r n) % 2 ^ 24) ∧
    Computes (.lea k n d v) k (ixD d) (fun s => enc ((rf s k (ixA n) : Int) + sext v.toNat 16) 16)) ∧
  (∀ (k : Fin 100) (n : Fin 8) (s : State), rf s k (ixL n) = 0 →
    rf (postMod s k n) k (ixA n) = enc ((rf s k (ixA n) : Int) + sext (rf s k (ixO n)) 16) 16)

/-- R200, R205, R211 to R214, R219, R221: control instructions. In no delay slot: B, CALL and RET, and BCC on its condition only, transfer after
their delay slot, and are illegal inside a REP block (the model's reading, notes/assumptions/97); SLEEP, WAIT and RETH act after theirs; a REP
block is noted, or skipped where its count is 0. A branch that is due goes to its target. SLEEP with nothing pending stops the clock, and enters a
pending level's handler else; RETE resumes the preempted level at its EPC unless a level that preempts it is pending, and stops the clock where
there is none. MOVC moves CST, TCNT and a compare of which D gives 24 bits. (The model's choices in it: notes/assumptions/43, 65, 95.) -/
def Obligations.ControlInstructionsTransfer : Prop :=
  (∀ (k : Fin 100) (tgt : BitVec 14) (cd : Cond) (s : State), Issues s k → (coreOf s k).ctl = none →
    (coreOf s k).pc + 4 < 0x8000 → inRep (cycle s k) k = false →
    (∃ t, exec (.b k tgt) s = .next t ∧ (coreOf t k).ctl = some (.jump (4 * tgt.toNat % 0x8000)) ∧ OtherCores s t k) ∧
    (∃ t, exec (.bcc k cd tgt) s = .next t ∧ OtherCores s t k ∧ (coreOf t k).ctl =
      (if condHolds cd (coreOf (cycle s k) k).flags = true then some (.jump (4 * tgt.toNat % 0x8000)) else none)) ∧
    (∃ t, exec (.call k tgt) s = .next t ∧ (coreOf t k).ctl = some (.jump (4 * tgt.toNat % 0x8000)) ∧
      (coreOf t k).calls = ((coreOf s k).pc + 8) % 0x8000 :: (coreOf s k).calls ∧ OtherCores s t k) ∧
    (∃ t, exec (.ret k) s = .next t ∧ (coreOf t k).ctl = some .ret ∧ OtherCores s t k)) ∧
  (∀ (k : Fin 100) (tgt : BitVec 14) (cd : Cond) (n : Fin 64) (c : Instr) (s : State), Issues s k → (coreOf s k).pc < 0x6000 →
    inRep (cycle s k) k = true → c ∈ [Instr.b k tgt, .bcc k cd tgt, .call k tgt, .ret k, .rep k n tgt] →
    ∃ t, exec c s = .next t ∧ coreState t k = 3 ∧ fget t (Reg.TRK_FAULT k) Reg.TRK_FAULT_KIND = 3) ∧
  (∀ (k : Fin 100) (w : WaitCond) (s : State), Issues s k → (coreOf s k).ctl = none → (coreOf s k).pc + 4 < 0x8000 →
    (∃ t, exec (.reth k) s = .next t ∧ (coreOf t k).ctl = some .reth ∧ OtherCores s t k) ∧
    (∃ t, exec (.sleep k) s = .next t ∧ (coreOf t k).ctl = some .sleep ∧ OtherCores s t k) ∧
    (∃ t, exec (.wait k w) s = .next t ∧ (coreOf t k).ctl = some (.wait w) ∧ OtherCores s t k)) ∧
  (∀ (k : Fin 100) (a : Nat) (s : State), Issues s k → (coreOf s k).ctl = some (.jump a) → (coreOf s k).pc < 0x6000 → a < 0x6000 →
    ∃ t, exec (.nop k) s = .next t ∧ pcOf t k = a ∧ (coreOf t k).ctl = none ∧ OtherCores s t k) ∧
  (∀ (k : Fin 100) (w : WaitCond) (s : State), Issues s k → (coreOf s k).ctl = some (.wait w) → (coreOf s k).pc < 0x6000 →
    ∃ t, exec (.nop k) s = .next t ∧ OtherCores s t k ∧
      (coreOf t k).waitOn = (if waitDone (cycle s k) k w = true then none else some w)) ∧
  (∀ (k : Fin 100) (s : State), Issues s k → (coreOf s k).ctl = some .sleep → (coreOf s k).pc < 0x6000 → (coreOf s k).stack = [] →
    ∃ t, exec (.nop k) s = .next t ∧ OtherCores s t k ∧ (nextLevel s k = none → coreState t k = 1) ∧
      (∀ n, nextLevel s k = some n → coreState t k = 2 ∧ (coreOf t k).level = n ∧ pcOf t k = 0x20 * n)) ∧
  (∀ (k : Fin 100) (s : State), Issues s k → (coreOf s k).ctl = none → (coreOf s k).pc + 4 < 0x8000 → rf (cycle s k) k ixRepN = 0 →
    ∃ t, exec (.nop k) s = .next t ∧ pcOf t k = (coreOf s k).pc + 4 ∧ OtherCores s t k) ∧
  (∀ (k : Fin 100) (n : Fin 64) (tgt : BitVec 14) (s : State) (c : Nat), Issues s k → (coreOf s k).ctl = none →
    (coreOf s k).pc + 4 < 0x8000 → inRep (cycle s k) k = false → c = (if n = 0 then rdD (cycle s k) k 0 else n.val) →
    ∃ t, exec (.rep k n tgt) s = .next t ∧ OtherCores s t k ∧ (c = 0 → pcOf t k = 4 * tgt.toNat % 0x8000) ∧
      (c ≠ 0 → (coreOf s k).pc + 4 < 4 * tgt.toNat % 0x8000 →
        bankReg s t k ixRepN = c ∧ bankReg s t k ixRepS = (coreOf s k).pc + 4 ∧ bankReg s t k ixRepE = 4 * tgt.toNat % 0x8000)) ∧
  (∀ (k : Fin 100) (s : State) (p : Nat) (rest : List Nat), Issues s k → (coreOf s k).pc < 0x6000 → (coreOf s k).stack = p :: rest →
    (∀ n, nextLevel s k = some n → p ≤ n ∧ p ≠ 0) →
    ∃ t, exec (.rete k) s = .next t ∧ (coreOf t k).level = p ∧ (coreOf t k).stack = rest ∧ pcOf t k = rf (cycle s k) k ixEpc ∧
      OtherCores s t k) ∧
  (∀ (k : Fin 100) (s : State) (n : Nat), Issues s k → (coreOf s k).pc < 0x6000 → nextLevel s k = some n →
    (∀ p rest, (coreOf s k).stack = p :: rest → n < p ∨ p = 0) →
    ∃ t, exec (.rete k) s = .next t ∧ (coreOf t k).level = n ∧ (coreOf t k).stack = (coreOf s k).stack ∧ pcOf t k = 0x20 * n ∧
      OtherCores s t k) ∧
  (∀ (k : Fin 100) (s : State), Issues s k → (coreOf s k).pc < 0x6000 → (coreOf s k).stack = [] → nextLevel s k = none →
    ∃ t, exec (.rete k) s = .next t ∧ coreState t k = 1 ∧ (coreOf t k).level = 0 ∧ OtherCores s t k) ∧
  (∀ (k : Fin 100) (d : Fin 16),
    Computes (.movc k false d 0) k (ixD d) (fun s => cstOf s k % 2 ^ 24) ∧
    Computes (.movc k false d 1) k (ixD d) (fun s => tcnt s % 2 ^ 24)) ∧
  (∀ (k : Fin 100) (d : Fin 16) (s : State), Issues s k →
    ∃ t, exec (.movc k true d 0) s = .next t ∧ (Stays s k → (coreOf t k).flags = rdD (cycle s k) k d / 32 % 16) ∧ OtherCores s t k) ∧
  (∀ (k : Fin 100) (d : Fin 16) (n : Fin 4) (s : State), Issues s k →
    ∃ t h, exec (.movc k true d (BitVec.ofNat 20 (4 + n))) s = .next t ∧ h < 256 ∧
      tget (coreOf t k).tcmp 0 n = rdD (cycle s k) k d + 2 ^ 24 * h + 1 ∧ OtherCores s t k)

/-- R123, R149, R157, R216 to R218, R361: the tile instructions of a core in stock code, where no hook runs, that serves a tile: IN reads the
tile's monitor, its exits and its temperature, and takes an entry of the message FIFO; OUT writes a pending register, a window, an input's enables,
and clears exits that are over; LOAD loads the rank; WATCH queues a request, a bell's first, or a full queue refuses it; MSG sends to an adjacent
tile; RETIRE asks for a retirement; STAGE begins a copy, and is illegal for slots 9 to 15; POST reaches BEL. (The model's choices in it:
notes/assumptions/25, 43, 72.) -/
def Obligations.TileInstructionsAct : Prop :=
  ∀ (k : Fin 100) (s : State) (T : Nat), Issues s k → (coreOf s k).pc < 0x6000 →
    tfind (coreOf s k).hooks (coreOf s k).level = none → coreTile s k = T → T < 96 →
    (∀ (d : Fin 16) (port : BitVec 12) (j : Nat), j < 128 → port.toNat = 0x180 + j →
      ∃ t, exec (.inp k d port) s = .next t ∧ CoreAlone s t k ∧ bankReg s t k (ixD d) = fget s (winReg (128 * T + j)) Reg.MON_IN_WIN_STATE) ∧
    (∀ (d : Fin 16) (port : BitVec 12) (j : Nat), j < 128 → port.toNat = 0x200 + j →
      ∃ t, exec (.inp k d port) s = .next t ∧ CoreAlone s t k ∧
        bankReg s t k (ixD d) = fget s (lastReg (128 * T + j)) Reg.MON_IN_LAST_SAMPLE) ∧
    (∀ (d : Fin 16) (port : BitVec 12) (j : Nat), j < 128 → port.toNat = 0x280 + j →
      ∃ t, exec (.inp k d port) s = .next t ∧ CoreAlone s t k ∧
        bankReg s t k (ixD d) = (rget s (avgReg (128 * T + j))).toNat % 2 ^ 24) ∧
    (∀ (d : Fin 16) (port : BitVec 12) (j : Nat), j < 4 → port.toNat = 0x300 + j →
      ∃ t, exec (.inp k d port) s = .next t ∧ CoreAlone s t k ∧ bankReg s t k (ixD d) = (rget s (Reg.MON_EXIT T j)).toNat % 2 ^ 24) ∧
    (∀ (d : Fin 16) (port : BitVec 12) (j : Nat), j < 4 → port.toNat = 0x304 + j →
      ∃ t, exec (.inp k d port) s = .next t ∧ CoreAlone s t k ∧ bankReg s t k (ixD d) = (rget s (Reg.MON_EXIT T j)).toNat / 2 ^ 24) ∧
    (∀ (d : Fin 16) (port : BitVec 12), port.toNat = 0x310 →
      ∃ t, exec (.inp k d port) s = .next t ∧ CoreAlone s t k ∧ (coreOf t k).fifo = (coreOf s k).fifo.tail) ∧
    (∀ (d : Fin 16) (port : BitVec 12), port.toNat = 0x330 →
      ∃ t, exec (.inp k d port) s = .next t ∧ CoreAlone s t k ∧ bankReg s t k (ixD d) = enc (picTemp s T) 24) ∧
    (∀ (d : Fin 16) (port : BitVec 12) (c : Nat), port.toNat = c → c < 128 → drvState s T = 4 → drvManual s T = false →
      ∃ t, exec (.out k d port) s = .next t ∧ CoreAlone s t k ∧
        (if owned s (128 * T + c) = true then Counted s t (Reg.DRV_CNT T 3) 1 ∧ chanOf t (128 * T + c) = chanOf s (128 * T + c)
         else (chanOf t (128 * T + c)).written = true ∧
          rget t (Reg.DRV_CH_CODE T c) = BitVec.ofNat 32 (rdD (cycle s k) k d % 2 ^ 18))) ∧
    (∀ (d : Fin 16) (port : BitVec 12) (j : Nat), port.toNat = 0x100 + j → j < 128 →
      ∃ t, exec (.out k d port) s = .next t ∧ CoreAlone s t k ∧
        fget t (Reg.MON_IN_WIN T j) Reg.MON_IN_WIN_LO = rdD (cycle s k) k d % 4096 ∧
        fget t (Reg.MON_IN_WIN T j) Reg.MON_IN_WIN_HI = rdD (cycle s k) k d / 4096 % 4096) ∧
    (∀ (d : Fin 16) (port : BitVec 12) (j : Nat), port.toNat = 0x180 + j → j < 128 →
      ∃ t, exec (.out k d port) s = .next t ∧ CoreAlone s t k ∧
        fget t (Reg.MON_IN_CFG T j) Reg.MON_IN_CFG_DARK = rdD (cycle s k) k d / 16 % 1024 ∧
        fget t (Reg.MON_IN_CFG T j) Reg.MON_IN_CFG_WAKE_EN = rdD (cycle s k) k d / 2 ^ 17 % 2) ∧
    (∀ (d : Fin 16) (port : BitVec 12) (j b : Nat) (v : Nat), j < 4 → b < 32 →
      (port.toNat = 0x300 + j ∧ v = rdD (cycle s k) k d % 2 ^ 24) ∨ (port.toNat = 0x304 + j ∧ v = rdD (cycle s k) k d % 256 * 2 ^ 24) →
      ∃ t, exec (.out k d port) s = .next t ∧ CoreAlone s t k ∧ rbit t (Reg.MON_EXIT T j) b = (rbit s (Reg.MON_EXIT T j) b &&
        !(bit v b && (decide (fget s (winReg (128 * T + 32 * j + b)) Reg.MON_IN_WIN_STATE = 1) || !cmpOn s (128 * T + 32 * j + b))))) ∧
    (drvState s T = 4 → drvManual s T = false →
      ∃ t, exec (.load k) s = .next t ∧ CoreAlone s t k ∧ Counted s t (Reg.DRV_CNT T 0) 1 ∧
        ∀ c < 128, (chanOf t (128 * T + c)).written = false) ∧
    (∀ (x : Fin 16) (v p : Nat) (q : Req), v = rdD (cycle s k) k x → p = pairOf (128 * T + v % 128) →
      q = Req.mk (v % 128) (bits v 8 4) (bits v 12 8) (decide ((coreOf s k).level = 1)) false →
      ∃ t, exec (.watch k x) s = .next t ∧ (pairGet t p).burst = (pairGet s p).burst ∧ t.mem = s.mem ∧ t.bel = s.bel ∧
        (pairGet t p).queue = (if 4 ≤ (pairGet s p).queue.length then (pairGet s p).queue
          else if q.bell = true then q :: (pairGet s p).queue else (pairGet s p).queue ++ [q])) ∧
    (∀ (x y : Fin 16) (v : Nat), v = rdD (cycle s k) k x → (tileAdj (fm s) T).contains (v / 64 % 128) = true →
      ∃ t, exec (.msg k x y) s = .next t ∧ t.bel = s.bel ∧
        t.trk.msgs = s.trk.msgs ++ [Msg.mk s.up T (v / 64 % 128) (v % 64) (rdD (cycle s k) k y)]) ∧
    (∀ (x y : Fin 16) (v : Nat), v = rdD (cycle s k) k x → (tileAdj (fm s) T).contains (v / 64 % 128) = false →
      ∃ t, exec (.msg k x y) s = .next t ∧ t.bel = s.bel ∧ t.trk.msgs = s.trk.msgs) ∧
    (∀ (x : Fin 16) (v : Nat), v = rdD (cycle s k) k x →
      ∃ t, exec (.retire k x) s = .next t ∧ t.mem = s.mem ∧ t.bel.retireQ = s.bel.retireQ ++
        (if 3 ≤ bits v 8 4 ∧ bits v 8 4 ≤ 5 then [(64 * T + v % 64, bits v 8 4, gridAfter s.now)] else [])) ∧
    (∀ (x : Fin 16), rdD (cycle s k) k x % 16 < 9 →
      ∃ t, exec (.stage k x) s = .next t ∧ CoreAlone s t k ∧
        (coreOf t k).stage = some (rdD (cycle s k) k x % 16 + 1, rdD (cycle s k) k ((x + 1) % 16), s.up)) ∧
    (∀ (x : Fin 16), 9 ≤ rdD (cycle s k) k x % 16 →
      ∃ t, exec (.stage k x) s = .next t ∧ coreState t k = 3 ∧ fget t (Reg.TRK_FAULT k) Reg.TRK_FAULT_KIND = 3) ∧
    (∀ (x : Fin 16), ∃ t, exec (.post k x) s = .next t ∧ t.trk.posts = s.trk.posts ++ [(k.val, rdD (cycle s k) k x)] ∧ CoreAlone s t k)

/-- R201, R211 to R218, R220, R222, R225, R362, R363: what happens to a core beside its instructions: entry to the lowest pending level where the
core may take it; a timer match; a corrected memory error counts; a core fault of a core that runs or sleeps, or the watchdog, stops it and asks
for migration, and customer code's illegal instructions and violations end its hook instead; migration takes the lowest spare, or retires the
tile's cells where there is none, and its completion starts the spare; a neighbour message reaches the victim's core or is dropped; a staging copy
ends; hooks are enabled and the hook mask follows. (The model's choices in it: notes/assumptions/43, 65, 75, 95, 98, 107.) -/
def Obligations.CoreEventsAct : Prop :=
  (∀ (k : Fin 100) (s : State) (n : Nat), nextLevel s k = some n → tileUp s (coreTile s k) = true →
    (coreState s k = 1 ∨ (coreState s k = 2 ∧ (n < (coreOf s k).level ∨ (coreOf s k).level = 0) ∧ (coreOf s k).ctl = none)) →
    ∃ t, exec (.eventEntry k) s = .next t ∧ (coreOf t k).level = n ∧ pcOf t k = 0x20 * n ∧ coreState t k = 2 ∧
      tget (coreOf t k).rf 0 (64 * n + ixEpc) = pcOf s k ∧
      (coreOf t k).stack = (if coreState s k = 1 then [] else (coreOf s k).level :: (coreOf s k).stack) ∧
      Counted s t (Reg.TRK_CNT k 2) 1 ∧ CoreAlone s t k) ∧
  (∀ (k : Fin 100) (s : State), nextLevel s k = none ∨ tileUp s (coreTile s k) = false ∨ coreState s k = 3 ∨
      (coreState s k = 2 ∧ (coreOf s k).ctl ≠ none) →
    ∃ t, exec (.eventEntry k) s = .next t ∧ NoEffect s t) ∧
  (∀ (k : Fin 100) (n : Fin 4) (s : State) (v : Nat), tget (coreOf s k).tcmp 0 n = v + 1 →
    ∃ t, exec (.timerMatch k n) s = .next t ∧
      (if 0 ≤ sext ((tcnt s + 2 ^ 32 - v) % 2 ^ 32) 32 then
        tget (coreOf t k).tcmp 0 n = 0 ∧ bit (coreOf t k).pend 3 = true ∧ t.regs = s.regs ∧ CoreAlone s t k
       else NoEffect s t)) ∧
  (∀ (k : Fin 100) (s : State), coreState s k = 2 → dieShut s = false → (coreOf s k).level ≠ 0 →
    tget (coreOf s k).since 0 (coreOf s k).level + 100000 ≤ s.up →
    ∃ t, exec (.coreWatchdogExpiry k) s = .next t ∧ coreState t k = 3 ∧ fget t (Reg.TRK_FAULT k) Reg.TRK_FAULT_KIND = 5 ∧
      (coreTile s k < 96 → t.trk.migrate = s.trk.migrate ++ [(coreTile s k, k.val)]) ∧
      t.bel = s.bel ∧ (∀ j, j ≠ k.val → coreOf t j = coreOf s j)) ∧
  (∀ (k : Fin 100) (s : State), coreState s k ≠ 3 →
    ∃ t, exec (.coreFault k 0) s = .next t ∧ OnlyRegs [Reg.TRK_CNT k 5] s t ∧ Counted s t (Reg.TRK_CNT k 5) 1) ∧
  (∀ (k : Fin 100) (x : Fin 6) (s : State),
    ((x.val = 1 ∨ x.val = 2) ∧ (coreState s k = 1 ∨ coreState s k = 2)) ∨
      ((x.val = 3 ∨ x.val = 4) ∧ coreState s k = 2 ∧ (coreOf s k).cmode = false) →
    ∃ t, exec (.coreFault k x) s = .next t ∧ coreState t k = 3 ∧ fget t (Reg.TRK_FAULT k) Reg.TRK_FAULT_KIND = x ∧
      (coreTile s k < 96 → t.trk.migrate = s.trk.migrate ++ [(coreTile s k, k.val)]) ∧
      t.bel = s.bel ∧ (∀ j, j ≠ k.val → coreOf t j = coreOf s j)) ∧
  (∀ (k : Fin 100) (x : Fin 6) (s : State), x.val = 3 ∨ x.val = 4 → coreState s k = 2 → (coreOf s k).cmode = true →
    ∃ t, exec (.coreFault k x) s = .next t ∧ coreState t k ≠ 3 ∧ fget t (Reg.TRK_STATUS k) Reg.TRK_STATUS_HOOK_OFF = 1 ∧
      (coreOf t k).hookStop = 1 ∧ Counted s t (Reg.TRK_CNT k 4) 1 ∧ t.trk.migrate = s.trk.migrate) ∧
  (∀ (s : State) (T c p : Nat) (rest : List (Nat × Nat)), s.trk.migrate = (T, c) :: rest → s.trk.moving = none → T < 96 →
    spareFor s = some p →
    ∃ t, exec .migration s = .next t ∧ t.trk.moving = some (T, p, s.up) ∧ t.trk.migrate = rest ∧ tmap t T = p ∧
      fget t (Reg.TRK_STATUS p) Reg.TRK_STATUS_SPARE = 0) ∧
  (∀ (s : State) (T c : Nat) (rest : List (Nat × Nat)), s.trk.migrate = (T, c) :: rest → s.trk.moving = none → T < 96 →
    spareFor s = none →
    ∃ t, exec .migration s = .next t ∧ t.trk.moving = none ∧ t.trk.migrate = rest ∧ tmap t T = 0xFF ∧
      ∀ j < 64, cellUsable s (64 * T + j) = true → (64 * T + j, 8, gridAfter s.now) ∈ t.bel.retireQ) ∧
  (∀ (s : State) (T c x : Nat), s.trk.moving = some (T, c, x) → T < 96 → c < 100 →
    ∃ t, exec .migrationComplete s = .next t ∧ t.trk.moving = none ∧ coreState t c = 2 ∧ (coreOf t c).cause = 2 ∧ pcOf t c = 0) ∧
  (∀ (s : State) (m : Msg) (rest : List Msg) (c : Nat), s.trk.msgs = m :: rest → coreFor s m.tile = some c →
    (coreOf s c).fifo.length < 16 → (∀ x, s.trk.moving = some x → x.1 ≠ m.tile) →
    ∃ t, exec .neighbourMessage s = .next t ∧ t.trk.msgs = rest ∧ (coreOf t c).fifo = (coreOf s c).fifo ++ [(m.cell, m.du)] ∧
      bit (pendOf t c) 4 = true ∧ CoreAlone s t c) ∧
  (∀ (s : State) (m : Msg) (rest : List Msg), s.trk.msgs = m :: rest →
    (coreFor s m.tile = none ∨ (∃ c, coreFor s m.tile = some c ∧ 16 ≤ (coreOf s c).fifo.length) ∨ ∃ x, s.trk.moving = some x ∧ x.1 = m.tile) →
    ∃ t, exec .neighbourMessage s = .next t ∧ t.trk.msgs = rest ∧ t.trk.cores = s.trk.cores ∧ t.bel = s.bel) ∧
  (∀ (k : Fin 100) (s : State) (v tag x : Nat), (coreOf s k).stage = some (v, tag, x) →
    ∃ t, exec (.stageComplete k) s = .next t ∧ (coreOf t k).stage = none ∧
      (1 ≤ v → coreTile s k < 96 → rd t.slotMem (slotBase (coreTile s k) (v - 1)) 3 = tag % 2 ^ 24)) ∧
  (∀ (m : Master) (k : Fin 100) (v : BitVec 32) (s : State), Reaches s m (Reg.TRK_CTRL k) →
    ∃ t, exec (.hookEn m k v) s = .next t ∧ CoreAlone s t k ∧ regsBut [Reg.TRK_CTRL k, Reg.TRK_STATUS k] s t ∧
      fget t (Reg.TRK_CTRL k) Reg.TRK_CTRL_HOOK_EN = v.toNat % 2 ∧ dget t k 0x604 4 = v.toNat % 2 ∧
      (v.toNat % 2 = 1 → fget t (Reg.TRK_STATUS k) Reg.TRK_STATUS_HOOK_OFF = 0 ∧ (coreOf t k).hookStop ≠ 2) ∧
      (v.toNat % 2 = 0 → (coreOf t k).hookStop ≠ 1))

/-- R175, R178 to R180, R182, R184, R188: what the hold path's wakes do for a cell that the kernel works on and can serve now, from the
photocurrents at its outputs: an exit of an ember cell starts ARRIVING; a cell dark twice in a row becomes ember; an error beyond the band of a
lit, unbalanced cell of known sign is corrected and SETTLE begins, where hooks are off; a sign check ends, and turns the sign where the weak
output has risen; a resolved probe of an arriving cell enters RAMP; a failed recovery asks for the cell's retirement; an arriving cell lit twice
in a row enters RAMP, one dark twice EMBER, as after ARRIVE_MAX; each row does nothing else where its cell cannot be worked on. (The model's
choices in it: notes/assumptions/64, 96, 105, 107.) -/
def Obligations.HoldWakesAct : Prop :=
  ∀ (T : Fin 96) (c : Fin 64) (c0 c1 : Nat) (s u v : State) (i : Nat), i = 64 * T.val + c.val →
    u = seeOuts (countWake (snapParams s T) i) i c0 c1 → v = seeOuts (snapParams s T) i c0 c1 →
    (exitDue s i = true → kernelBusy s T 2 = false → modeOf s i = 1 →
      ∃ t, exec (.holdWake T c c0 c1) s = .next t ∧ modeOf t i = 2 ∧ (hcell t i).arrFrom = some s.up) ∧
    (∀ (w : Instr), (w = .holdWake T c c0 c1 ∧ exitDue s i = true ∧ kernelBusy s T 2 = false ∧ 3 ≤ modeOf s i ∧ modeOf s i ≤ 5) ∨
        (w = .settle T c c0 c1 ∧ holdable s i = true ∧ dueAt s (hcell s i).settleAt = true ∧ kernelBusy s T 3 = false) →
      (lightNow u i < absentPA u T * one →
        ∃ t, exec w s = .next t ∧ (w = .settle T c c0 c1 → (hcell t i).settleAt = none) ∧
          (if 1 ≤ (hcell s i).loN then modeOf t i = 1 else (hcell t i).loN = 1 ∧ modeOf t i = modeOf s i)) ∧
      (∀ (m : Meas) (sg d : Int) (k : Nat), absentPA u T * one ≤ lightNow u i → m = measureCell u i → balanced u T m = false →
        knownSign u i = some sg → d = sg * m.err - setPoint u i → bandOf u i < d.natAbs → coreFor u T = some k → hooksOn u k = false →
        ∃ t du, exec w s = .next t ∧ du = (if 0 ≤ d then -1 else 1) * ((d.natAbs * gainG u i / 256 : Nat) : Int) ∧
          (hcell t i).settleAt = some (s.up + 20 * par u T 0xC 2) ∧ modeBit t i 3 = true ∧
          (hcell t i).signAt = some (s.up + 20 * par u T 0x10 2, weakCur u i m, du) ∧
          flagBit t i 4 = decide (d < 0) ∧ flagBit t i 5 = true)) ∧
    (∀ d w du, (hcell s i).signAt = some (d, w, du) → d ≤ s.up → holdable s i = true → kernelBusy s T 3 = false →
      ∃ t, exec (.signchk T c c0 c1) s = .next t ∧ (hcell t i).signAt = none ∧
        (if w + oneCode v (2 * i + 1 - (measureCell v i).out) ≤ weakCur v i (measureCell v i)
         then flagBit t i 4 = !flagBit s i 4 ∧ hr t i 0x1C 1 = min (hr s i 0x1C 1 + 1) 255
         else flagBit t i 4 = flagBit s i 4 ∧ uOf t i = uOf s i)) ∧
    (∀ d w e (sg : Int), (hcell s i).probeAt = some (d, w, e) → d ≤ s.up → holdable s i = true → kernelBusy s T 3 = false →
      sg = (if weakCur v i (measureCell v i) < w then -1 else 1) →
      ∃ t, exec (.probeWait T c c0 c1) s = .next t ∧ (hcell t i).probeAt = none ∧
        (modeOf s i = 2 → modeOf t i = 3 ∧ hr t i 4 2 = enc (sg * e) 16 ∧ (hcell t i).rampAt = some (s.up + rampNs v T))) ∧
    (∀ d e m j w, (hcell s i).recAt = some (d, e) → d ≤ s.up → holdable s i = true → kernelBusy s T 3 = false →
      m = measureCell v i → j = 2 * i + 1 - m.out →
      w = weakWin (unrefer (fmul (outCur v i m.out) (rhoAt (max (parFail v T) (divUp (3 * e) 4)) m.pw m.ps))
        (cellTap (fm s) i (1 - m.out))) (floorOf s T) →
      ∃ t, exec (.recover T c c0 c1) s = .next t ∧ (hcell t i).recAt = none ∧ t.bel.retireQ =
        (if winState (putWin v j w) j (if j % 2 = 0 then c0 else c1) = 2
         then s.bel.retireQ ++ [(i, if flagBit s i 3 = true then 5 else 4, gridAfter s.now)] else s.bel.retireQ)) ∧
    (∀ x, (hcell s i).arrFrom = some x → (hcell s i).arrAt ≤ s.up → (hcell s i).probeAt = none → modeOf s i = 2 →
      holdable s i = true → kernelBusy s T 3 = false →
      ∃ t, exec (.arriving T c c0 c1) s = .next t ∧
        (if lightNow v i < absentPA v T * one then
          (if 1 ≤ (hcell s i).loN then modeOf t i = 1 ∧ (hcell t i).arrFrom = none
           else modeOf t i = 2 ∧ (hcell t i).loN = 1 ∧ (hcell t i).arrAt = s.up + 1000)
         else if lightNow v i < presentPA v T * one then
          modeOf t i = 2 ∧ (hcell t i).hiN = 0 ∧ (hcell t i).loN = 0 ∧ (hcell t i).arrAt = s.up + 1000
         else if (hcell s i).hiN = 0 then modeOf t i = 2 ∧ (hcell t i).hiN = 1 ∧ (hcell t i).arrAt = s.up + 1000
         else ∀ sg, balanced v T (measureCell v i) = false → knownSign v i = some sg →
          modeOf t i = 3 ∧ hr t i 4 2 = enc (sg * (measureCell v i).err) 16 ∧ (hcell t i).rampAt = some (s.up + rampNs v T))) ∧
    (∀ f, (hcell s i).arrFrom = some f → modeOf s i = 2 → f + 1000 * par s T 0x18 2 ≤ s.up → holdable s i = true →
      kernelBusy s T 3 = false →
      ∃ t, exec (.arriveMax T c) s = .next t ∧ modeOf t i = 1 ∧ (hcell t i).arrFrom = none) ∧
    (exitDue s i = false ∨ kernelBusy s T 2 = true → ∃ t, exec (.holdWake T c c0 c1) s = .next t ∧ NoEffect s t) ∧
    (∀ (w : Instr), holdable s i = false ∨ kernelBusy s T 3 = true →
      w ∈ [Instr.settle T c c0 c1, .signchk T c c0 c1, .probeWait T c c0 c1, .recover T c c0 c1, .arriving T c c0 c1, .arriveMax T c,
        .rampStep T c c0 c1] → ∃ t, exec w s = .next t ∧ NoEffect s t)

/-- R180, R183, R184, R186, R187, R189, R194, R195: the kernel's other wakes, where it can serve them now: a ramp step takes S toward 0 over the
steps left, a changed RAMP_N counting anew; a TEMP wake that is due notes its temperature; a wrap starts where it may, largest |u| first and at
most 4 at once, and ends one turn nearer 0, or goes back where its place has gone; a NEIGHBOUR wake takes the oldest message; COMMIT takes the
parameter block whole; a summary that is due counts the modes and advances SEQ. (The model's choices in it: notes/assumptions/44, 64, 105, 118.) -/
def Obligations.TileWakesAct : Prop :=
  (∀ (T : Fin 96) (c : Fin 64) (c0 c1 : Nat) (s v : State) (i : Nat) (sp sp' : Int) (left stp : Nat), i = 64 * T.val + c.val →
    v = seeOuts (snapParams s T) i c0 c1 → holdable s i = true → kernelBusy s T 3 = false → modeOf s i = 3 →
    dueAt s (hcell s i).rampAt = true → sp = sext (hr s i 4 2) 16 →
    left = (if (hcell s i).rampN = rampSteps v T then max 1 (hr s i 6 1) else rampSteps v T) →
    stp = min sp.natAbs (divUp sp.natAbs left) → sp' = (if 0 ≤ sp then sp - stp else sp + stp) →
    ∃ t, exec (.rampStep T c c0 c1) s = .next t ∧ hr t i 6 1 = left - 1 ∧ hr t i 4 2 = enc sp' 16 ∧
      (lightNow v i < absentPA v T * one → (hcell s i).loN = 0 →
        modeOf t i = (if sp' = 0 then 4 else 3) ∧ (hcell t i).rampAt = (if sp' = 0 then none else some (s.up + rampNs v T)))) ∧
  (∀ (T : Fin 96) (s : State),
    ∃ t, exec (.temp T) s = .next t ∧
      (if tempDue s T = true ∧ kernelBusy s T 5 = false then tget t.hold.tempAt 0 T = picTemp s T ∧
        (∀ k, k ≠ T.val → tget t.hold.tempAt 0 k = tget s.hold.tempAt 0 k) ∧ t.bel = s.bel
       else NoEffect s t)) ∧
  (∀ (T : Fin 96) (c : Fin 64) (s : State) (i : Nat), i = 64 * T.val + c.val → holdable s i = true → modeBit s i 4 = true →
    kernelBusy s T 3 = false →
    ∃ t, exec (.wrapStep T c) s = .next t ∧ modeBit t i 4 = false ∧ (hcell t i).wrapAt = none ∧ t.bel = s.bel ∧
      (if modeOf s i = 1 ∨ inRecess s i 0 = true then uOf t i = wrapTarget s i ∧ hr t i 0x1D 1 = min (hr s i 0x1D 1 + 1) 255
       else uOf t i = uOf s i ∧ hr t i 0x1D 1 = hr s i 0x1D 1)) ∧
  (∀ (T : Fin 96) (c : Fin 64) (s : State) (i : Nat), i = 64 * T.val + c.val → wrapCan s i = true → wrapsIn s T < 4 →
    kernelBusy s T 3 = false →
    (∀ x < 64, 64 * T.val + x ≠ i → wrapCan s (64 * T + x) = true →
      (uOf s (64 * T + x)).natAbs < (uOf s i).natAbs ∨ ((uOf s (64 * T + x)).natAbs = (uOf s i).natAbs ∧ i < 64 * T.val + x)) →
    ∃ t, exec (.wrapStep T c) s = .next t ∧ modeBit t i 4 = true ∧ (hcell t i).wrapAt.isSome = true ∧ uOf t i = uOf s i ∧
      t.bel = s.bel) ∧
  (∀ (T : Fin 96) (c : Fin 64) (s : State) (i : Nat), i = 64 * T.val + c.val → modeBit s i 4 = false → wrapCan s i = false →
    ∃ t, exec (.wrapStep T c) s = .next t ∧ NoEffect s t) ∧
  (∀ (T : Fin 96) (s : State) (k cell du : Nat) (rest : List (Nat × Nat)), coreFor s T = some k →
    (coreOf s k).fifo = (cell, du) :: rest → kernelBusy s T 4 = false →
    ∃ t, exec (.neighbour T) s = .next t ∧ (coreOf t k).fifo = rest ∧ bit (pendOf t k) 4 = !rest.isEmpty) ∧
  (∀ (T : Fin 96) (s : State) (k : Nat), coreFor s T = some k → kernelBusy s T 8 = false → dget s k 0x700 4 ≠ par s T 0 4 →
    ∃ t, exec (.commit T) s = .next t ∧ (∀ o < 64, par t T o 1 = dget s k (0x700 + o) 1) ∧ t.mem = s.mem ∧ t.bel = s.bel) ∧
  (∀ (T : Fin 96) (s : State),
    ∃ t, exec (.holdSummaryRefresh T) s = .next t ∧
      (if tget s.hold.sumAt 0 T + 1000000 ≤ s.up ∧ kernelBusy s T 8 = false then
        mget t (0x932000 + 0x40 * T) 4 = (mget s (0x932000 + 0x40 * T) 4 + 1) % 2 ^ 32 ∧
        mget t (0x932000 + 0x40 * T + 5) 1 =
          ((List.range 64).filter (fun c => cellPresent (fm s) (64 * T + c) && decide (modeOf s (64 * T + c) = 1))).length ∧
        tget t.hold.eMax (0, 0) T = (0, 0) ∧ tget t.hold.sumAt 0 T = s.up
       else NoEffect s t))

/-- R231 to R233, R236, R242, R243, R247, R268: what calibration's events do, each in the kernel's turn at level 7. A passive measurement of an
eligible cell sets its bit of the round, counts, and writes φ0 and BAR_NOM into the building entry; outside that entry and the tile's status block
no byte of memory changes; a temperature moved by more than 0.1 K restarts the round; a cell that is not eligible, or measured already, keeps its
entry; with no round, or out of turn, it does nothing else. A round with nothing left to wait for completes and the tile is ready; in a die
shut-down ROUND_MAX does nothing. A sweep starts with its pass or waits for one, and does not start where it may not; the retry of a pass
request is a SWEEP without the wait; a dwell's end adds its point and loads the next step, and after the last step the sweep ends. A swap takes
every ready tile's building table, at most once each SWAP_INT and while CAL is on. (The model's choices in it: notes/assumptions/28, 29, 31, 99,
100, 104.) -/
def Obligations.CalibrationAdvances : Prop :=
  (∀ (T : Fin 96) (c : Fin 64) (c0 c1 : Nat) (s u : State) (r : Nat × Int) (i : Nat), i = 64 * T.val + c.val → u = snapParams s T →
    tfind s.cal.rounds T = some r → kernelBusy s T 7 = false → (picTemp s T - r.2).natAbs ≤ 10 →
    ∃ t, exec (.passiveMeasurement T c c0 c1) s = .next t ∧ t.bel = s.bel ∧
      (if passable u i = true ∧ calMap s 0x10 i = false then
        calMap t 0x10 i = true ∧ Counted s t (Reg.CAL_CNT 3) 1 ∧
        mget t (bldAt i + 2) 2 = (((thetaNom u i : Int) + (knownSign (seeOuts u i c0 c1) i).getD 1 * (measureCell (seeOuts u i c0 c1) i).err -
          uOf u i) % 65536).toNat ∧
        mget t (bldAt i + 4) 2 = cellBarNom (fm s) i ∧
        (∀ a, (a < bldAt i ∨ bldAt i + 64 ≤ a) → (a < calS T ∨ calS T + 64 ≤ a) → mbyte t a = mbyte s a)
       else calMap t 0x10 i = calMap s 0x10 i ∧ ∀ a, (a < calS T ∨ calS T + 64 ≤ a) → mbyte t a = mbyte s a)) ∧
  (∀ (T : Fin 96) (c : Fin 64) (c0 c1 : Nat) (s : State) (r : Nat × Int), tfind s.cal.rounds T = some r → kernelBusy s T 7 = false →
    10 < (picTemp s T - r.2).natAbs →
    ∃ t, exec (.passiveMeasurement T c c0 c1) s = .next t ∧ tfind t.cal.rounds T = some (s.up, picTemp s T) ∧ mget t (calS T + 0x10) 8 = 0 ∧
      t.bel = s.bel ∧ t.drv = s.drv) ∧
  (∀ (T : Fin 96) (c : Fin 64) (c0 c1 : Nat) (s : State), tfind s.cal.rounds T = none ∨ kernelBusy s T 7 = true →
    ∃ t, exec (.passiveMeasurement T c c0 c1) s = .next t ∧ NoEffect s t) ∧
  (∀ (T : Fin 96) (s : State) (r : Nat × Int), tfind s.cal.rounds T = some r → dieShut s = false →
    (∀ c < 64, roundWaits s (64 * T + c) r.1 = false) →
    ∃ t, exec (.roundMax T) s = .next t ∧ tfind t.cal.rounds T = none ∧ T.val ∈ t.cal.ready ∧ Counted s t (Reg.CAL_CNT 1) 1 ∧
      regsBut [Reg.CAL_CNT 1] s t ∧ t.bel = s.bel) ∧
  (∀ (T : Fin 96) (s : State), (dieShut s = true ∨ tfind s.cal.rounds T = none ∨
      ∃ r, tfind s.cal.rounds T = some r ∧ ∃ c < 64, roundWaits s (64 * T + c) r.1 = true) →
    ∃ t, exec (.roundMax T) s = .next t ∧ NoEffect s t) ∧
  (∀ (T : Fin 96) (c : Fin 64) (s u : State) (i : Nat) (way : Option (Nat × List (Nat × Nat))), i = 64 * T.val + c.val →
    u = snapParams s T → kernelBusy s T 7 = false → sweepsAllowed s = true → fget s Reg.CAL_CTRL Reg.CAL_CTRL_SWEEP_EN = 1 →
    sweepsIn s T < sweepPar s → sweepFirst u i = true → sweepWay u i = some way →
    ∃ t, exec (.sweep T c) s = .next t ∧
      ((sweepPass u i (if way.isSome then 2 else 1)).2 = none → tfind t.cal.waits i = some (s.up + 100000)) ∧
      (∀ e, (sweepPass u i (if way.isSome then 2 else 1)).2 = some e →
        ∃ w, tfind t.cal.sweeps i = some w ∧ w.point = 0 ∧ w.pass = some e ∧ w.due = s.up + dwellNs s)) ∧
  (∀ (T : Fin 96) (c : Fin 64) (s u : State) (i : Nat), i = 64 * T.val + c.val → u = snapParams s T →
    (sweepsAllowed s = false ∨ fget s Reg.CAL_CTRL Reg.CAL_CTRL_SWEEP_EN ≠ 1 ∨ sweepPar s ≤ sweepsIn s T ∨ sweepFirst u i = false ∨
      sweepWay u i = none) →
    ∃ t, exec (.sweep T c) s = .next t ∧ t.cal = s.cal ∧ t.drv = s.drv ∧ t.mem = s.mem ∧ t.bel = s.bel ∧
      (kernelBusy s T 7 = true → NoEffect s t)) ∧
  (∀ (T : Fin 96) (c : Fin 64) (s : State) (d : Nat), tfind s.cal.waits (64 * T + c) = some d → d ≤ s.up →
    exec (.passRequestRetry T c) s = exec (.sweep T c) { s with cal := { s.cal with waits := tdel s.cal.waits (64 * T + c) } } ∧
    ∃ t, exec (.passRequestRetry T c) s = .next t ∧
      (tfind t.cal.waits (64 * T + c) = none ∨ tfind t.cal.waits (64 * T + c) = some (s.up + 100000))) ∧
  (∀ (T : Fin 96) (c : Fin 64) (s : State), (∀ d, tfind s.cal.waits (64 * T + c) = some d → s.up < d) →
    ∃ t, exec (.passRequestRetry T c) s = .next t ∧ NoEffect s t) ∧
  (∀ (T : Fin 96) (c : Fin 64) (l : List (BitVec 12 × BitVec 12)) (s : State) (w : Sweep),
    tfind s.cal.sweeps (64 * T + c) = some w → w.due ≤ s.up → kernelBusy s T 7 = false →
    ∃ t, exec (.dwell T c l) s = .next t ∧
      (w.point = 19 → tfind t.cal.sweeps (64 * T + c) = none) ∧
      (w.point ≠ 19 → ∃ w', tfind t.cal.sweeps (64 * T + c) = some w' ∧ w'.point = w.point + 1 ∧ w'.due = s.up + dwellNs s ∧
        w'.pts.length = w.pts.length + (if w.point = 9 then 0 else 1) ∧ w'.pts.take w.pts.length = w.pts)) ∧
  (∀ (T : Fin 96) (c : Fin 64) (l : List (BitVec 12 × BitVec 12)) (s : State),
    ((∀ w, tfind s.cal.sweeps (64 * T + c) = some w → s.up < w.due) ∨ kernelBusy s T 7 = true) →
    ∃ t, exec (.dwell T c l) s = .next t ∧ NoEffect s t) ∧
  (∀ (s : State), calOn s = true → s.cal.ready ≠ [] → (∀ T ∈ s.cal.ready, T < 96) →
    (∀ x, s.cal.lastSwap = some x → x + 10000 * fget s Reg.CAL_TRIG Reg.CAL_TRIG_SWAP_INT ≤ s.up) →
    ∃ t, exec .calibrationSwap s = .next t ∧ t.cal.ready = [] ∧ t.cal.lastSwap = some s.up ∧
      fget t Reg.CAL_STATUS Reg.CAL_STATUS_JOURNAL_DIRTY = 1 ∧
      ∀ T ∈ s.cal.ready, ∀ o < 0x1000, mbyte t (actAt (64 * T) + o) = mbyte s (bldAt (64 * T) + o)) ∧
  (∀ (s : State), (calOn s = false ∨ s.cal.ready = [] ∨
      ∃ x, s.cal.lastSwap = some x ∧ s.up < x + 10000 * fget s Reg.CAL_TRIG Reg.CAL_TRIG_SWAP_INT) →
    ∃ t, exec .calibrationSwap s = .next t ∧ NoEffect s t)

/-- R248 to R252, R254, R261: rails: EN begins a soft-start from 0 V and its clearing ends the rail; RESTART starts a failed rail from its
measured voltage, and a RESTART of a working rail does nothing; a measurement inside ±3 % sets REG and one outside ±5 % clears it, through the
shut-down's ramp too; a rail out of regulation for 100 µs, or at its trip limit, fails, and no other; targets that keep R248's order are taken,
others not; a lowered reference falls at its instant; the outputs end with a shut-down's ramp. (The model's choices in it: notes/assumptions/21,
30, 112.) -/
def Obligations.RailsFollowTheirCommands : Prop :=
  (∀ (m : Master) (k : Fin 5) (v : BitVec 32) (s : State), Reaches s m (Reg.PWR_RAIL_CFG k) →
    ∃ t, exec (.railEn m k v) s = .next t ∧ fget t (Reg.PWR_RAIL_CFG k) Reg.PWR_RAIL_CFG_EN = v.toNat % 2 ∧
      fget t (Reg.PWR_RAIL_CFG k) Reg.PWR_RAIL_CFG_PER = v.toNat / 65536 ∧
      (fget s (Reg.PWR_RAIL_CFG k) Reg.PWR_RAIL_CFG_EN = 0 → v.toNat % 2 = 1 → railFailed s k = false → powerShut s = false →
        railOf t k = { railOf s k with v0 := 0, v1 := nV (railTarget s k), t0 := s.up, slope := ssSlope s, outAt := none, fallAt := none }) ∧
      (fget s (Reg.PWR_RAIL_CFG k) Reg.PWR_RAIL_CFG_EN = 1 → v.toNat % 2 = 0 → railReg t k = false ∧ (railOf t k).v1 = 0)) ∧
  (∀ (m : Master) (k : Fin 5) (v : BitVec 32) (s : State), Reaches s m (Reg.PWR_RAIL_CMD k) → v.toNat % 2 = 1 →
    railFailed s k = true →
    ∃ t, exec (.restart m k v) s = .next t ∧ railFailed t k = false ∧
      (fget s (Reg.PWR_RAIL_CFG k) Reg.PWR_RAIL_CFG_EN = 1 → powerShut s = false → (railOf t k).v1 = nV (railTarget s k) ∧
        (railOf t k).v0 = nV (fget s (Reg.PWR_RAIL_MEAS k) Reg.PWR_RAIL_MEAS_VOLT))) ∧
  (∀ (m : Master) (k : Fin 5) (v : BitVec 32) (s : State), Reaches s m (Reg.PWR_RAIL_CMD k) → v.toNat % 2 = 0 ∨ railFailed s k = false →
    ∃ t, exec (.restart m k v) s = .next t ∧ NoEffect s t) ∧
  (∀ (k : Fin 5) (volt curr : BitVec 16) (s : State),
    (∃ t, exec (.railInRegulation k volt curr) s = .next t ∧
      fget t (Reg.PWR_RAIL_MEAS k) Reg.PWR_RAIL_MEAS_VOLT = volt.toNat ∧
      fget t (Reg.PWR_RAIL_MEAS k) Reg.PWR_RAIL_MEAS_CURR = curr.toNat ∧
      railReg t k = (railReg s k || (railJudged s k && within s k volt.toNat 30))) ∧
    (∃ t, exec (.railOutOfRegulation k volt curr) s = .next t ∧
      fget t (Reg.PWR_RAIL_MEAS k) Reg.PWR_RAIL_MEAS_VOLT = volt.toNat ∧
      railReg t k = (railReg s k && (within s k volt.toNat 50 || !railJudged s k)) ∧
      (within s k volt.toNat 50 = false → railJudged s k = true → (railOf t k).outAt = some ((railOf s k).outAt.getD s.up)))) ∧
  (∀ (k : Fin 5) (s : State) (x : Nat), railFailed s k = false → (railOf s k).outAt = some x → x + 100000 ≤ s.up →
    railJudged s k = true →
    ∃ t, exec (.railFail k false) s = .next t ∧ railFailed t k = true ∧ railReg t k = false ∧ t.mem = s.mem) ∧
  (∀ (k : Fin 5) (s : State), railFailed s k = false → (railOf s k).tripDue = true →
    ∃ t, exec (.railFail k true) s = .next t ∧ railFailed t k = true ∧ railReg t k = false ∧ t.mem = s.mem) ∧
  (∀ (k : Fin 5) (s : State),
    ((∀ x, (railOf s k).outAt = some x → s.up < x + 100000) ∨ railJudged s k = false →
      ∃ t, exec (.railFail k false) s = .next t ∧ NoEffect s t) ∧
    ((railOf s k).tripDue = false ∨ railFailed s k = true → ∃ t, exec (.railFail k true) s = .next t ∧ NoEffect s t)) ∧
  (∀ (m : Master) (k : Fin 4) (v : BitVec 32) (s : State), Reaches s m (Reg.PWR_RAIL_TGT k) →
    ∃ t, exec (.railTargetWrite m k v) s = .next t ∧
      (if targetsOk (plainWrite s (Reg.PWR_RAIL_TGT k) v.toNat) = true
       then fget t (Reg.PWR_RAIL_TGT k) Reg.PWR_RAIL_TGT_TGT0 = v.toNat % 65536 ∧
         fget t (Reg.PWR_RAIL_TGT k) Reg.PWR_RAIL_TGT_TGT1 = v.toNat / 65536
       else rget t (Reg.PWR_RAIL_TGT k) = rget s (Reg.PWR_RAIL_TGT k) ∧ t.pwr = s.pwr)) ∧
  (∀ (k : Fin 4) (s : State) (x : Nat), (railOf s k).fallAt = some x → x ≤ s.up → railLive s k = true →
    ∃ t, exec (.referenceFallStart k) s = .next t ∧ t = { s with pins := levels s t, pwr := t.pwr } ∧
      railOf t k = { railOf s k with v0 := refNow s k, v1 := nV (railTarget s k), t0 := s.up, slope := ssSlope s, fallAt := none }) ∧
  (∀ (k : Fin 4) (s : State), (∀ x, (railOf s k).fallAt = some x → s.up < x) ∨ railLive s k = false →
    ∃ t, exec (.referenceFallStart k) s = .next t ∧ NoEffect s t) ∧
  (∀ (s : State) (x : Nat), s.pwr.shutAt = some x → x + 1000000 ≤ s.up →
    ∃ t, exec .shutdownRampEnd s = .next t ∧ t = { s with pins := levels s t, pwr := { s.pwr with railsOff := true } }) ∧
  (∀ (s : State), (∀ x, s.pwr.shutAt = some x → s.up < x + 1000000) → ∃ t, exec .shutdownRampEnd s = .next t ∧ NoEffect s t)

/-- R255 to R260, R262, R269: PWM channels and broker limits: a period boundary starts the next period and, on a manual channel, brings the waiting
PER and CMP into force, with the outputs cut again where the fault input is still asserted; before the count has passed PER it does nothing; a
trip cuts its channel, or every phase of its rail, and its input's release is noted; PER and CMP of a manual channel are held for COMMIT, wait for
the boundary, or act at once; those of a rail's phase are refused; COMMIT releases both, to the boundary or at once; a limit takes its value. (The
model's choices in it: notes/assumptions/73, 115.) -/
def Obligations.PwmChannelsAndBrokerLimits : Prop :=
  (∀ (n : Fin 24) (s : State), perNow s n + 1 ≤ pwmCount s n → pwmRail s n = 7 → (pwmOf s n).rail = 7 →
    ∃ t, exec (.periodBoundary n) s = .next t ∧ (pwmOf t n).start = (pwmOf s n).start + 5 * (perNow s n + 1) ∧
      (pwmOf t n).cut = (pwmOf s n).fIn ∧ (pwmOf t n).tripped = (pwmOf s n).fIn ∧ (pwmOf t n).perW = none ∧ (pwmOf t n).cmpW = none ∧
      (∀ v, (pwmOf s n).perW = some v → fget t (Reg.PWR_PWM_ACT n) Reg.PWR_PWM_ACT_PER = v % 65536) ∧
      (∀ v, (pwmOf s n).cmpW = some v → cmpNow t n = v % 65536) ∧ (∀ j, j ≠ n.val → pwmOf t j = pwmOf s j)) ∧
  (∀ (n : Fin 24) (s : State), pwmCount s n < perNow s n + 1 → ∃ t, exec (.periodBoundary n) s = .next t ∧ NoEffect s t) ∧
  (∀ (n : Fin 24) (s : State),
    (∃ t, exec (.trip (.fault n)) s = .next t ∧ (pwmOf t n).cut = true ∧ (pwmOf t n).fIn = true ∧
      fget t (Reg.PWR_PWM_STAT n) Reg.PWR_PWM_STAT_TRIP = 1 ∧ fget t (Reg.PWR_PWM_STAT n) Reg.PWR_PWM_STAT_INPUT = 1 ∧
      (∀ j, j ≠ n.val → pwmOf t j = pwmOf s j)) ∧
    (∃ t, exec (.tripInputRelease (.fault n)) s = .next t ∧ (pwmOf t n).fIn = false ∧
      fget t (Reg.PWR_PWM_STAT n) Reg.PWR_PWM_STAT_INPUT = 0 ∧ regsBut [Reg.PWR_PWM_STAT n] s t)) ∧
  (∀ (k : Fin 5) (s : State),
    (∃ t, exec (.trip (.rail k)) s = .next t ∧ (railOf t k).tripIn = true ∧
      (∀ n < 24, (pwmOf s n).rail = k → (pwmOf t n).cut = true ∧ fget t (Reg.PWR_PWM_STAT n) Reg.PWR_PWM_STAT_RTRIP = 1)) ∧
    (∃ t, exec (.tripInputRelease (.rail k)) s = .next t ∧ railOf t k = { railOf s k with tripIn := false } ∧ t.regs = s.regs)) ∧
  (∀ (m : Master) (n : Fin 24) (v : BitVec 32) (s : State), Reaches s m (Reg.PWR_PWM_PER n) → pwmRail s n = 7 →
    ∃ t, exec (.perWrite m n v) s = .next t ∧ fget t (Reg.PWR_PWM_PER n) Reg.PWR_PWM_PER_PER = v.toNat % 65536 ∧
      (if fget s (Reg.PWR_PWM_CTRL n) Reg.PWR_PWM_CTRL_PAIRED = 1 then (pwmOf t n).perH = some (v.toNat % 65536)
       else if fget s (Reg.PWR_PWM_CTRL n) Reg.PWR_PWM_CTRL_MODE = 1 then (pwmOf t n).perW = some (v.toNat % 65536)
       else if pwmCount s n < v.toNat % 65536 then fget t (Reg.PWR_PWM_ACT n) Reg.PWR_PWM_ACT_PER = v.toNat % 65536
       else (pwmOf t n).start = 2 * s.up)) ∧
  (∀ (m : Master) (n : Fin 24) (v : BitVec 32) (s : State), Reaches s m (Reg.PWR_PWM_CMP n) → pwmRail s n = 7 →
    ∃ t, exec (.cmpWrite m n v) s = .next t ∧ fget t (Reg.PWR_PWM_CMP n) Reg.PWR_PWM_CMP_CMP = v.toNat % 65536 ∧
      (if fget s (Reg.PWR_PWM_CTRL n) Reg.PWR_PWM_CTRL_PAIRED = 1 then (pwmOf t n).cmpH = some (v.toNat % 65536)
       else if fget s (Reg.PWR_PWM_CTRL n) Reg.PWR_PWM_CTRL_MODE = 1 then (pwmOf t n).cmpW = some (v.toNat % 65536)
       else cmpNow t n = v.toNat % 65536)) ∧
  (∀ (m : Master) (n : Fin 24) (v : BitVec 32) (s : State), pwmRail s n < 5 →
    (Reaches s m (Reg.PWR_PWM_PER n) → ∃ t, exec (.perWrite m n v) s = .next t ∧ t.pwr = s.pwr ∧
      rget t (Reg.PWR_PWM_PER n) = rget s (Reg.PWR_PWM_PER n) ∧ rget t (Reg.PWR_PWM_ACT n) = rget s (Reg.PWR_PWM_ACT n)) ∧
    (Reaches s m (Reg.PWR_PWM_CMP n) → ∃ t, exec (.cmpWrite m n v) s = .next t ∧ t.pwr = s.pwr ∧
      rget t (Reg.PWR_PWM_CMP n) = rget s (Reg.PWR_PWM_CMP n) ∧ rget t (Reg.PWR_PWM_ACT n) = rget s (Reg.PWR_PWM_ACT n))) ∧
  (∀ (m : Master) (n : Fin 24) (v : BitVec 32) (s : State), Reaches s m (Reg.PWR_PWM_COMMIT n) → pwmRail s n = 7 →
    v.toNat % 2 = 1 →
    ∃ t, exec (.pwrPwmCommit m n v) s = .next t ∧ (pwmOf t n).perH = none ∧ (pwmOf t n).cmpH = none ∧
      (if fget s (Reg.PWR_PWM_CTRL n) Reg.PWR_PWM_CTRL_MODE = 1 then
        (pwmOf t n).perW = (pwmOf s n).perH.or (pwmOf s n).perW ∧ (pwmOf t n).cmpW = (pwmOf s n).cmpH.or (pwmOf s n).cmpW ∧
        t.regs = s.regs ∧ (∀ j, j ≠ n.val → pwmOf t j = pwmOf s j)
       else (∀ x, (pwmOf s n).perH = some x → pwmCount s n < x) →
        (∀ x, (pwmOf s n).perH = some x → fget t (Reg.PWR_PWM_ACT n) Reg.PWR_PWM_ACT_PER = x % 65536) ∧
        (∀ x, (pwmOf s n).cmpH = some x → cmpNow t n = x % 65536))) ∧
  (∀ (m : Master) (n : Fin 24) (v : BitVec 32) (s : State), Reaches s m (Reg.PWR_PWM_COMMIT n) → v.toNat % 2 = 0 ∨ pwmRail s n < 5 →
    ∃ t, exec (.pwrPwmCommit m n v) s = .next t ∧ NoEffect s t) ∧
  (∀ (m : Master) (r : LimitReg) (v : BitVec 32) (s : State), Reaches s m (limitReg r) →
    ∃ t, exec (.brokerLimitWrite m r v) s = .next t ∧ t.pwr = s.pwr ∧ t.mem = s.mem ∧
      (r = .hp → fget t Reg.PWR_HP Reg.PWR_HP_PEAK = v.toNat % 65536) ∧
      (r = .pool → fget t Reg.PWR_POOL Reg.PWR_POOL_PEAK_MAX = v.toNat % 65536 ∧
        fget t Reg.PWR_POOL Reg.PWR_POOL_REPAIR = v.toNat / 65536) ∧
      (r = .energy → fget t Reg.PWR_ENERGY Reg.PWR_ENERGY_E_WIN = v.toNat % 65536) ∧
      (r = .stand → fget t Reg.PWR_STAND Reg.PWR_STAND_TILE = v.toNat % 256 ∧
        fget t Reg.PWR_STAND Reg.PWR_STAND_WATCH_DEPTH = v.toNat / 65536))

/-- R274, R281, R288, R300, R366: TMU_CMD written and reaching its register: a word without a command's bit does nothing; SET in FREERUN with an empty timetable and a legal nanoseconds field
loads TMU_SETk at the next tick edge, else it is refused; STEP with a qualified source enters STEP_WAIT, else it is refused; STEP_WAIT with an
empty timetable steps by the median of the newest samples; RC_ARM arms an instant on the grid at least 100 ns ahead, else it is refused; RC_NOW
takes the first edge at least 40 ns ahead; RC_STOP ends periodic roll calls. (The model's choices in it: notes/assumptions/9, 56.) -/
def Obligations.TimeUnitCommandsAct : Prop :=
  (∀ (m : Master) (v : BitVec 32) (s : State), Reaches s m Reg.TMU_CMD → bit v.toNat 0 = true →
    ∃ t, exec (.set m v) s = .next t ∧ t.now = s.now ∧
      (if servo s = 0 ∧ timetableEmpty s = true ∧ (rget s (Reg.TMU_SET 0)).toNat ≤ 999999999
       then t.tmu.setDue = some (tickAfter s, timeIn s Reg.TMU_SET * q40) ∧
         (bit v.toNat 1 = false → fget t Reg.TMU_CMD_STATUS Reg.TMU_CMD_STATUS_LAST = 0)
       else t.tmu.setDue = s.tmu.setDue ∧ (bit v.toNat 1 = false → fget t Reg.TMU_CMD_STATUS Reg.TMU_CMD_STATUS_LAST = 2))) ∧
  (∀ (m : Master) (v : BitVec 32) (s : State), Reaches s m Reg.TMU_CMD → bit v.toNat 1 = true →
    ∃ t, exec (.step m v) s = .next t ∧ t.now = s.now ∧
      (if srcNow s < 6 ∧ qualified s (srcNow s) = true
       then servo t = 2 ∧ fget t Reg.TMU_CMD_STATUS Reg.TMU_CMD_STATUS_LAST = 1 ∧ t.tmu.smps = []
       else servo t = servo s ∧ fget t Reg.TMU_CMD_STATUS Reg.TMU_CMD_STATUS_LAST = 2 ∧ t.tmu.smps = s.tmu.smps)) ∧
  (∀ (m : Master) (v : BitVec 32) (s : State) (c : Instr), Reaches s m Reg.TMU_CMD → v.toNat % 32 = 0 →
    c ∈ [Instr.set m v, .step m v, .rcArm m v, .rcNow m v, .rcStop m v] → ∃ t, exec c s = .next t ∧ NoEffect s t) ∧
  (∀ s : State, servo s = 2 → timetableEmpty s = true → 8 ≤ s.tmu.smps.length →
    ∃ t, exec .timeStep s = .next t ∧ t.tmu.setDue = some (tickAfter s, ((tickAfter s : Int) - median s.tmu.smps * 2 ^ 24).toNat) ∧
      servo t = 3 ∧ stepped t = true ∧ Counted s t (Reg.TMU_CNT 0) 1 ∧ t.now = s.now ∧ t.bel = s.bel) ∧
  (∀ s : State, servo s ≠ 2 ∨ timetableEmpty s = false ∨ s.tmu.smps.length < 8 → ∃ t, exec .timeStep s = .next t ∧ NoEffect s t) ∧
  (∀ (m : Master) (v : BitVec 32) (s : State) (n : Nat), Reaches s m Reg.TMU_CMD → bit v.toNat 2 = true → bit v.toNat 4 = false →
    n = (rget s (Reg.TMU_RC 0)).toNat →
    ∃ t, exec (.rcArm m v) s = .next t ∧
      (if n % 20 = 0 ∧ n ≤ 999999999 ∧ s.now + 100 * q40 ≤ timeIn s Reg.TMU_RC * q40
       then t.tmu.rcAt = some (timeIn s Reg.TMU_RC, false) ∧ fget t Reg.TMU_RC_STATUS Reg.TMU_RC_STATUS_ARMED = 1 ∧
         fget t Reg.TMU_RC_STATUS Reg.TMU_RC_STATUS_REFUSED = 0
       else t.tmu.rcAt = s.tmu.rcAt ∧ fget t Reg.TMU_RC_STATUS Reg.TMU_RC_STATUS_REFUSED = 1)) ∧
  (∀ (m : Master) (v : BitVec 32) (s : State), Reaches s m Reg.TMU_CMD → bit v.toNat 3 = true →
    ∃ t, exec (.rcNow m v) s = .next t ∧ t.tmu.rcNow = some (s.tmu.rcNow.getD (gridAfter (s.now + 40 * q40)))) ∧
  (∀ (m : Master) (v : BitVec 32) (s : State), Reaches s m Reg.TMU_CMD → bit v.toNat 4 = true → rget s Reg.TMU_RC_PERIOD ≠ 0 →
    ∃ t, exec (.rcStop m v) s = .next t ∧ t.tmu.rcAt = none ∧
      (s.tmu.rcAt ≠ none → fget t Reg.TMU_RC_STATUS Reg.TMU_RC_STATUS_ARMED = 0)) ∧
  (∀ (m : Master) (v : BitVec 32) (s : State), Reaches s m Reg.TMU_CMD → bit v.toNat 4 = true → bit v.toNat 2 = false →
    rget s Reg.TMU_RC_PERIOD = 0 →
    ∃ t, exec (.rcStop m v) s = .next t ∧ t.tmu.rcAt = s.tmu.rcAt.filter (fun x => !x.2))

/-- R288, R365 to R368: a roll call that is due copies every counter into its shadow as it stands, counts itself and advances SEQ; its header then
names SEQ, the instant and the cause, and no other byte of the SRAM windows changes; a roll call that is not due, and a header without one, do
nothing. (The model's choices in it: notes/assumptions/56.) -/
def Obligations.RollCallsCopyEveryCounter : Prop :=
  (∀ (s : State) (e c : Nat), rollDue s = some (e, c) → e ≤ nowNs s →
    ∃ t, exec .rollCall s = .next t ∧
      (∀ r ∈ counterRanges, ∀ j < r.2.1, mget t (r.2.2 + 4 * j) 4 = (rget s (r.1 + 4 * j)).toNat) ∧
      Counted s t (Reg.TMU_CNT 6) 1 ∧ t.tmu.rcHdr = some (e, c) ∧
      regsBut [Reg.TMU_CNT 6, Reg.TMU_RC_STATUS] s t ∧ t.bel = s.bel ∧
      (s.tmu.rcAt = some (e, false) → rget s Reg.TMU_RC_PERIOD = 0 → t.tmu.rcAt = none ∧
        fget t Reg.TMU_RC_STATUS Reg.TMU_RC_STATUS_ARMED = 0) ∧
      (∀ b, s.tmu.rcAt = some (e, b) → rget s Reg.TMU_RC_PERIOD ≠ 0 →
        t.tmu.rcAt = some (e + 20 * max 500 (rget s Reg.TMU_RC_PERIOD).toNat, true) ∧
        fget t Reg.TMU_RC_STATUS Reg.TMU_RC_STATUS_ARMED = 1) ∧
      (s.tmu.rcNow = some e → t.tmu.rcNow = none)) ∧
  (∀ s : State, (∀ e c, rollDue s = some (e, c) → nowNs s < e) → ∃ t, exec .rollCall s = .next t ∧ NoEffect s t) ∧
  (∀ s : State, s.tmu.rcHdr = none → ∃ t, exec .rollCallHeader s = .next t ∧ NoEffect s t) ∧
  (∀ (s : State) (e c : Nat), s.tmu.rcHdr = some (e, c) →
    ∃ t, exec .rollCallHeader s = .next t ∧ mget t 0xB00000 4 = fget s Reg.TMU_RC_STATUS Reg.TMU_RC_STATUS_SEQ ∧
      mget t 0xB00004 4 = e % 1000000000 ∧ mget t 0xB00008 8 = e / 1000000000 % 2 ^ 64 ∧ mget t 0xB00010 4 = c % 2 ^ 32 ∧
      t.tmu = { s.tmu with rcHdr := none } ∧ t.regs = s.regs ∧ (∀ a, a < 0xB00000 ∨ 0xB00014 ≤ a → mbyte t a = mbyte s a))

/-- R277, R278, R282: the time sources: an offset sample of the selected source sets TMU_SV0, the integrator and the rate within ±MAXRATE; a
source that has waited WTR is selected without a step; SyncE is qualified while its port is up, its frequency inside the limit and its last PDU no
older than 5 s; a source without Sync for three intervals is lost; without a sample, a better source or a missed deadline these events do nothing.
(The model's choices in it: notes/assumptions/9, 52, 54, 110.) -/
def Obligations.TimeSourcesSteerTheServo : Prop :=
  (∀ (k : Fin 6) (s : State) (w : Nat × Int × Nat) (a : Nat) (i : Int), s.tmu.waiting.find? (fun x => decide (x.1 = k.val)) = some w →
    srcNow s = k → qualified s k = true → s.tmu.lastAt = some a →
    i = (if freqSynce s = true ∨ servo s = 5 then 0
      else s.tmu.integ + fget s Reg.TMU_SERVO Reg.TMU_SERVO_KI * w.2.1 * ((w.2.2 - a) / 1000 : Nat)) →
    ∃ t, exec (.offsetSample k) s = .next t ∧ t.tmu.waiting = s.tmu.waiting.erase w ∧ t.tmu.integ = i ∧
      rget t (Reg.TMU_SV 0) = BitVec.ofNat 32 (enc (satS (w.2.1 / 4096) 32) 32) ∧
      t.rho = max (-(max 1 (fget s Reg.TMU_SERVO Reg.TMU_SERVO_MAXRATE) * 2 ^ 40 / 1000000 : Int))
        (min (max 1 (fget s Reg.TMU_SERVO Reg.TMU_SERVO_MAXRATE) * 2 ^ 40 / 1000000 : Int)
          (-(((if servo s = 2 then 0 else fget s Reg.TMU_SERVO Reg.TMU_SERVO_KP * w.2.1 * 4000000) + i) * 2 ^ 14 / 10 ^ 15)))) ∧
  (∀ (s : State) (k : Nat), bestSrc s = some k → srcNow s < 6 → k ≠ srcNow s →
    tget s.tmu.qualAt 0 k + 1000000000 * fget s Reg.TMU_CTRL Reg.TMU_CTRL_WTR ≤ s.up →
    ∃ t, exec .waitToRestore s = .next t ∧ srcNow t = k ∧ Counted s t (Reg.TMU_CNT 1) 1 ∧ t.now = s.now ∧
      t.tmu.setDue = s.tmu.setDue ∧ t.bel = s.bel) ∧
  (∀ (k : Fin 6) (s : State), s.tmu.waiting.find? (fun x => decide (x.1 = k.val)) = none →
    ∃ t, exec (.offsetSample k) s = .next t ∧ NoEffect s t) ∧
  (∀ (s : State), (bestSrc s = none ∨ 6 ≤ srcNow s ∨ bestSrc s = some (srcNow s) ∨
      ∃ k, bestSrc s = some k ∧ s.up < tget s.tmu.qualAt 0 k + 1000000000 * fget s Reg.TMU_CTRL Reg.TMU_CTRL_WTR) →
    ∃ t, exec .waitToRestore s = .next t ∧ NoEffect s t) ∧
  (∀ (inside ok : Bool) (s : State),
    ok = ((fsrcPort s).any (ethUp s) && inside && s.tmu.esmcAt.any (fun a => decide (s.up ≤ a + 5000000000))) →
    ∃ t, exec (.synceFrequencyLimit inside) s = .next t ∧ t.tmu.synceIn = inside ∧
      fget t Reg.TMU_STATUS Reg.TMU_STATUS_SYNCE_QUAL = b2n ok ∧ freqSynce t = ok ∧ t.bel = s.bel ∧ t.mem = s.mem) ∧
  (∀ (ok : Bool) (s : State),
    ok = ((fsrcPort s).any (ethUp s) && s.tmu.synceIn && s.tmu.esmcAt.any (fun a => decide (s.up ≤ a + 5000000000))) →
    ∃ t, exec .esmcTimeout s = .next t ∧ fget t Reg.TMU_STATUS Reg.TMU_STATUS_SYNCE_QUAL = b2n ok ∧ freqSynce t = ok ∧ t.bel = s.bel ∧
      t.mem = s.mem) ∧
  (∀ (e : Fin 4) (s : State) (a : Nat), (eport s e).syncAt = some a → ptpState s e = 9 → a + 3 * syncNs s e ≤ s.up →
    ∃ t, exec (.syncReceiptTimeout e) s = .next t ∧ qualified t e = false ∧ (eport t e).syncAt = none ∧ t.bel = s.bel) ∧
  (∀ (e : Fin 4) (s : State), ((∀ a, (eport s e).syncAt = some a → s.up < a + 3 * syncNs s e) ∨ ptpState s e ≠ 9) →
    ∃ t, exec (.syncReceiptTimeout e) s = .next t ∧ NoEffect s t)

/-- R277, R286, R287: pulses per second and bell pulses: an edge in its window gives an offset sample and becomes the reference, the first edge
the reference alone; an edge outside the window is counted; two windows without an edge lose the source; PPS_OUT asserts at the second plus its
trim for WIDTH, and a bell output at T − LEAD plus its trim; an edge that the input does not take, a window still open, a second whose pulse went
out and a bell output with nothing due do nothing. (The model's choices in it: notes/assumptions/51, 53, 116.) -/
def Obligations.PulsesMeetTheirInstants : Prop :=
  (∀ (m : Fin 2) (falling : Bool) (s : State) (d : Int), fget s (Reg.TMU_PPS_CFG m) Reg.TMU_PPS_CFG_EN = 1 →
    falling = decide (fget s (Reg.TMU_PPS_CFG m) Reg.TMU_PPS_CFG_EDGE = 1) →
    d = (stamp s).1 - sext (fget s (Reg.TMU_PPS_CFG m) Reg.TMU_PPS_CFG_DELAY) 16 * 65536 / 20 →
    ∃ t, exec (.ppsEdge m falling) s = .next t ∧ t.now = s.now ∧
      (tfind s.tmu.ppsAt m = none → tfind t.tmu.ppsAt m = some d.toNat ∧ t.tmu.waiting = s.tmu.waiting) ∧
      (∀ p, tfind s.tmu.ppsAt m = some p → ppsInWindow p d = true → tfind t.tmu.ppsAt m = some d.toNat ∧
        tfind t.tmu.ppsSec m = some (ppsSeconds s m) ∧
        t.tmu.waiting = s.tmu.waiting ++ [(4 + m.val, d - 65536 * 1000000000 * ppsSeconds s m, s.up)]) ∧
      (∀ p, tfind s.tmu.ppsAt m = some p → ppsInWindow p d = false → Counted s t (Reg.TMU_CNT 7) 1 ∧ t.tmu.waiting = s.tmu.waiting ∧
        (qualified s (4 + m) = true → tfind t.tmu.ppsAt m = some p))) ∧
  (∀ (m : Fin 2) (falling : Bool) (s : State), fget s (Reg.TMU_PPS_CFG m) Reg.TMU_PPS_CFG_EN = 0 ∨
      falling ≠ decide (fget s (Reg.TMU_PPS_CFG m) Reg.TMU_PPS_CFG_EDGE = 1) →
    ∃ t, exec (.ppsEdge m falling) s = .next t ∧ NoEffect s t) ∧
  (∀ (m : Fin 2) (s : State), (∀ p, tfind s.tmu.ppsAt m = some p → 65536 * nowNs s ≤ p + 65536 * 1000100000) →
    ∃ t, exec (.ppsWindowExpiry m) s = .next t ∧ NoEffect s t) ∧
  (∀ s : State, (∀ e, s.tmu.ppsEnd = some e → s.now < e) → secOf s.now = s.tmu.ppsLast ∨
      s.now < ((secOf s.now * 1000000000 * q40 : Nat) + fineOf (rget s Reg.TMU_PPS_TRIM)).toNat →
    ∃ t, exec .ppsOut s = .next t ∧ NoEffect s t) ∧
  (∀ (n : Fin 8) (s : State), (∀ e, tfind s.tmu.bellEnd n = some e → s.now < e) →
    (s.restart.inWindow = true ∨ ∀ b ∈ s.bel.bells, pulseFor s n b = false ∨ (b.t, n.val) ∈ s.tmu.pulses ∨ s.now < (pulseStart s n b).1) →
    ∃ t, exec (.bellPulse n) s = .next t ∧ NoEffect s t) ∧
  (∀ (m : Fin 2) (s : State) (p : Nat), tfind s.tmu.ppsAt m = some p → p + 65536 * 1000100000 < 65536 * nowNs s →
    ∃ t, exec (.ppsWindowExpiry m) s = .next t ∧
      (if 1 ≤ tget s.tmu.ppsMiss 0 m then qualified t (4 + m) = false ∧ tfind t.tmu.ppsAt m = none
       else tfind t.tmu.ppsAt m = some (p + 65536 * 1000000000) ∧ tget t.tmu.ppsMiss 0 m = 1 ∧ t.regs = s.regs)) ∧
  (∀ (s : State) (a : Nat), a = ((secOf s.now * 1000000000 * q40 : Nat) + fineOf (rget s Reg.TMU_PPS_TRIM)).toNat →
    secOf s.now ≠ s.tmu.ppsLast → a ≤ s.now → s.tmu.ppsEnd = none → fget s Reg.TMU_PPS_OUT Reg.TMU_PPS_OUT_EN = 1 →
    (fget s Reg.TMU_CTRL Reg.TMU_CTRL_PPS_SQUELCH = 0 ∨ 3 ≤ servo s) →
    ∃ t, exec .ppsOut s = .next t ∧ t.regs = s.regs ∧
      t.out = s.out ++ [.ppsOut (true ≠ decide (fget s Reg.TMU_PPS_OUT Reg.TMU_PPS_OUT_POL = 1)) a] ∧
      t.tmu.ppsEnd = some (a + max 1 (fget s Reg.TMU_PPS_OUT Reg.TMU_PPS_OUT_WIDTH) * 1000 * q40)) ∧
  (∀ (s : State) (e : Nat), s.tmu.ppsEnd = some e → e ≤ s.now → secOf s.now = s.tmu.ppsLast →
    ∃ t, exec .ppsOut s = .next t ∧ t.tmu.ppsEnd = none ∧ t.regs = s.regs ∧
      t.out = s.out ++ [.ppsOut (false ≠ decide (fget s Reg.TMU_PPS_OUT Reg.TMU_PPS_OUT_POL = 1)) e]) ∧
  (∀ (n : Fin 8) (s : State) (b : Bell) (a : Nat), s.restart.inWindow = false → tfind s.tmu.bellEnd n = none →
    minBy (fun b => (b.t : Int)) (s.bel.bells.filter (fun b => pulseFor s n b && !s.tmu.pulses.contains (b.t, n.val) &&
      decide ((pulseStart s n b).1 ≤ s.now) && (b.repair || decide (s.bel.skipTo < b.t)))) = some b →
    a = (if s.restart.taiAt ≤ (pulseStart s n b).1 ∧ (pulseStart s n b).1 < resumedAt s then resumedAt s else (pulseStart s n b).1) →
    ∃ t, exec (.bellPulse n) s = .next t ∧
      t.out = s.out ++ [.bellOut n (true ≠ decide (fget s (Reg.TMU_BELL_CFG n) Reg.TMU_BELL_CFG_POL = 1)) a] ∧
      tfind t.tmu.bellEnd n = some (a + 20 * max 1 (fget s (Reg.TMU_BELL_CFG n) Reg.TMU_BELL_CFG_WIDTH) * q40) ∧
      Counted s t (Reg.TMU_CNT 3) 1 ∧ Counted s t (Reg.TMU_CNT 5) (if a ≠ (pulseStart s n b).1 ∨ (pulseStart s n b).2 = true then 1 else 0)) ∧
  (∀ (n : Fin 8) (s : State) (e : Nat), tfind s.tmu.bellEnd n = some e → e ≤ s.now → s.restart.inWindow = true →
    ∃ t, exec (.bellPulse n) s = .next t ∧ tfind t.tmu.bellEnd n = none ∧ t.regs = s.regs ∧
      t.out = s.out ++ [.bellOut n (false ≠ decide (fget s (Reg.TMU_BELL_CFG n) Reg.TMU_BELL_CFG_POL = 1)) e])

/-- R277, R279, R289, R290, R293, R301: links and the frames that firmware answers: a link that comes up on an enabled port shows itself with its
latencies; one that goes down loses its source and its LAT_VALID; dropped and discarded frames are counted; a GET is answered and a SET counted;
an ARP request or a neighbour solicitation for the port is answered with its MAC; a usable ESMC PDU renews the frequency source, and the device
sends DNU toward it; on a port whose link is down a frame has no effect. (The model's choices in it: notes/assumptions/54, 55.) -/
def Obligations.LinksAndFirmwareAnswer : Prop :=
  (∀ (e : Fin 4) (rx tx : BitVec 32) (an fec : Bool) (speed : BitVec 2) (s : State),
    (fget s (Reg.ETH_CTRL e) Reg.ETH_CTRL_EN = 1 →
      ∃ t, exec (.ethLinkUp e rx tx an speed fec) s = .next t ∧ fget t (Reg.ETH_STATUS e) Reg.ETH_STATUS_LINK = 1 ∧
        fget t (Reg.ETH_STATUS e) Reg.ETH_STATUS_LAT_VALID = 1 ∧ rget t (Reg.ETH_TS e 3) = rx ∧ rget t (Reg.ETH_TS e 4) = tx ∧
        fget t (Reg.ETH_STATUS e) Reg.ETH_STATUS_SPEED = (if fget s (Reg.ETH_CTRL e) Reg.ETH_CTRL_MODE = 3 then speed.toNat else 0) ∧
        ptpState t e = (if ptpState s e = 1 then 4 else ptpState s e)) ∧
    (fget s (Reg.ETH_CTRL e) Reg.ETH_CTRL_EN = 0 → ∃ t, exec (.ethLinkUp e rx tx an speed fec) s = .next t ∧ NoEffect s t)) ∧
  (∀ (e : Fin 4) (s : State),
    (fget s (Reg.ETH_STATUS e) Reg.ETH_STATUS_LINK = 1 →
      ∃ t, exec (.ethLinkDown e) s = .next t ∧ fget t (Reg.ETH_STATUS e) Reg.ETH_STATUS_LINK = 0 ∧
        fget t (Reg.ETH_STATUS e) Reg.ETH_STATUS_LAT_VALID = 0 ∧ Counted s t (Reg.ETH_CNT e 9) 1 ∧ qualified t e = false ∧
        ptpState t e = (if ptpState s e = 0 ∨ ptpState s e = 3 then ptpState s e else 1)) ∧
    (fget s (Reg.ETH_STATUS e) Reg.ETH_STATUS_LINK = 0 → ∃ t, exec (.ethLinkDown e) s = .next t ∧ NoEffect s t)) ∧
  (∀ (e : Fin 4) (s : State), ethUp s e = true →
    (∀ fcs : Bool, ∃ t, exec (.droppedFrame e fcs) s = .next t ∧ OnlyRegs [Reg.ETH_CNT e 1, Reg.ETH_CNT e 2] s t ∧
      Counted s t (Reg.ETH_CNT e 1) 1 ∧ Counted s t (Reg.ETH_CNT e 2) (b2n fcs)) ∧
    (∃ t, exec (.discardedPtpMessage e) s = .next t ∧ OnlyRegs [Reg.ETH_CNT e 0, Reg.ETH_CNT e 11] s t ∧
      Counted s t (Reg.ETH_CNT e 0) 1 ∧ Counted s t (Reg.ETH_CNT e 11) 1) ∧
    (∃ t, exec (.signaling e) s = .next t ∧ OnlyRegs [Reg.ETH_CNT e 0] s t ∧ Counted s t (Reg.ETH_CNT e 0) 1) ∧
    (∃ t, exec (.management e false) s = .next t ∧ OnlyRegs [Reg.ETH_CNT e 0, Reg.ETH_CNT e 11] s t ∧
      Counted s t (Reg.ETH_CNT e 0) 1 ∧ Counted s t (Reg.ETH_CNT e 11) 1) ∧
    (fwRuns s = true → ptpOn s e = true → ∃ t w, exec (.management e true) s = .next t ∧ t.out = s.out ++ [.firmware e 3 w] ∧
      Counted s t (Reg.ETH_CNT e 3) 1 ∧ regsBut [Reg.ETH_CNT e 0, Reg.ETH_CNT e 3] s t) ∧
    (fwRuns s = false ∨ ptpOn s e = false → ∃ t, exec (.management e true) s = .next t ∧ OnlyRegs [Reg.ETH_CNT e 0] s t ∧
      Counted s t (Reg.ETH_CNT e 0) 1)) ∧
  (∀ (e : Fin 4) (s : State) (c : Instr), ethUp s e = false → c = .signaling e ∨ c = .discardedPtpMessage e ∨ c = .esmcTransmission e ∨
      (∃ b, c = .droppedFrame e b) ∨ (∃ b, c = .management e b) ∨ (∃ a b d, c = .arp e a b d) ∨ (∃ a b, c = .neighbourSolicitation e a b) ∨
      (∃ ql, c = .esmc e ql) →
    ∃ t, exec c s = .next t ∧ NoEffect s t) ∧
  (∀ (e : Fin 4) (target srcIp : BitVec 32) (srcMac : BitVec 48) (s : State), ethUp s e = true →
    (rget s (Reg.ETH_IPV4 e) = target → target ≠ 0 → fwRuns s = true →
      ∃ t, exec (.arp e target srcMac srcIp) s = .next t ∧ Counted s t (Reg.ETH_CNT e 3) 1 ∧
        t.out = s.out ++ [.firmware e 0 (macOf s e + 2 ^ 48 * srcMac.toNat + 2 ^ 96 * srcIp.toNat)]) ∧
    (rget s (Reg.ETH_IPV4 e) ≠ target ∨ target = 0 ∨ fwRuns s = false → ∃ t, exec (.arp e target srcMac srcIp) s = .next t ∧
      OnlyRegs [Reg.ETH_CNT e 0] s t ∧ Counted s t (Reg.ETH_CNT e 0) 1)) ∧
  (∀ (e : Fin 4) (target : BitVec 128) (srcMac : BitVec 48) (s : State), ethUp s e = true →
    (target.toNat = linkLocal (macOf s e) → fwRuns s = true →
      ∃ t, exec (.neighbourSolicitation e target srcMac) s = .next t ∧ Counted s t (Reg.ETH_CNT e 3) 1 ∧
        t.out = s.out ++ [.firmware e 1 (macOf s e + 2 ^ 48 * srcMac.toNat)]) ∧
    (target.toNat ≠ linkLocal (macOf s e) ∨ fwRuns s = false → ∃ t, exec (.neighbourSolicitation e target srcMac) s = .next t ∧
      OnlyRegs [Reg.ETH_CNT e 0] s t ∧ Counted s t (Reg.ETH_CNT e 0) 1)) ∧
  (∀ (e : Fin 4) (ql : BitVec 4) (s : State), ethUp s e = true →
    ∃ t, exec (.esmc e ql) s = .next t ∧ Counted s t (Reg.ETH_CNT e 0) 1 ∧
      t.tmu.esmcAt = (if fwRuns s = true ∧ fsrcPort s = some e.val ∧ ql ≠ 15 then some s.up else s.tmu.esmcAt)) ∧
  (∀ (e : Fin 4) (s : State), ethUp s e = true → fwRuns s = true → fget s (Reg.ETH_CTRL e) Reg.ETH_CTRL_SYNCE_TX = 1 →
    ∃ t w, exec (.esmcTransmission e) s = .next t ∧ t.out = s.out ++ [.firmware e 2 w] ∧ w < 16 ∧
      (freqSynce s = true → fsrcPort s = some e.val → w = 15) ∧ OnlyRegs [Reg.ETH_CNT e 3] s { t with out := s.out, draws := s.draws }) ∧
  (∀ (e : Fin 4) (s : State), fwRuns s = false ∨ fget s (Reg.ETH_CTRL e) Reg.ETH_CTRL_SYNCE_TX = 0 →
    ∃ t, exec (.esmcTransmission e) s = .next t ∧ NoEffect s t)

/-- R282, R293 to R295: PTP messages that a port takes: Sync and Follow_Up give t2 − t1 at the reference plane; a time transmitter answers
Delay_Req with its receive timestamp; Delay_Resp completes an offset sample; Pdelay_Req is answered in one step or two, and Pdelay_Resp with its
follow-up completes the peer delay; Announce gives the port firmware's state, with one TIME_RECEIVER at most. A message that the port's PTP does not
take is counted only, and on a port whose link is down it has no effect; a message that matches no request of the port's is timestamped or
counted, no more. (The model's choices in it: notes/assumptions/52, 53, 54.) -/
def Obligations.PtpMessagesAct : Prop :=
  (∀ (e : Fin 4) (s : State) (m : PtpMsg) (c : Instr), c ∈ [Instr.sync e m, .followUp e m, .delayReq e m, .delayResp e m, .pdelayReq e m,
      .pdelayResp e m, .pdelayRespFollowUp e m] →
    (ethUp s e = false → ∃ t, exec c s = .next t ∧ NoEffect s t) ∧
    (ethUp s e = true → ptpTakes s e m.domain = false → ∃ t, exec c s = .next t ∧ OnlyRegs [Reg.ETH_CNT e 0] s t ∧
      Counted s t (Reg.ETH_CNT e 0) 1)) ∧
  (∀ (e : Fin 4) (s : State) (m : AnnMsg),
    (ethUp s e = false → ∃ t, exec (.announce e m) s = .next t ∧ NoEffect s t) ∧
    (ethUp s e = true → ptpTakes s e m.domain = false ∨ fwRuns s = false → ∃ t, exec (.announce e m) s = .next t ∧
      OnlyRegs [Reg.ETH_CNT e 0] s t ∧ Counted s t (Reg.ETH_CNT e 0) 1)) ∧
  ∀ (e : Fin 4) (s : State), ethUp s e = true →
    (∀ (m : PtpMsg) (d : Int), ptpTakes s e m.domain = true → d = (rxStamp s e).1 →
      (8 ≤ ptpState s e → ∃ t, exec (.sync e m) s = .next t ∧ Counted s t (Reg.ETH_CNT e 0) 1 ∧ Counted s t (Reg.ETH_CNT e 4) 1 ∧
        (∀ j : Fin 4, j ≠ e → eport t j = eport s j) ∧
        (if m.twoStep = true then (eport t e).syncRx = some (m.seq.toNat, d - m.corr) ∧ t.tmu = s.tmu
         else (eport t e).t21 = some (d - msgTime s m - m.corr) ∧ (eport t e).syncAt = some s.up ∧
           (∀ x, (eport s e).mean = some x → peerDelay s e = true →
             t.tmu.waiting = s.tmu.waiting ++ [(e.val, d - msgTime s m - m.corr - x - comp s e 2, s.up)]))) ∧
      (ptpState s e < 8 → ∃ t, exec (.sync e m) s = .next t ∧ t.eth = s.eth ∧ t.tmu = s.tmu ∧ t.out = s.out ∧
        regsBut [Reg.ETH_CNT e 0, Reg.ETH_CNT e 4] s t) ∧
      ((eport s e).syncRx = none → ∃ t, exec (.followUp e m) s = .next t ∧ OnlyRegs [Reg.ETH_CNT e 0] s t) ∧
      (ptpState s e ≠ 6 ∨ peerDelay s e = true → ∃ t, exec (.delayReq e m) s = .next t ∧ t.eth = s.eth ∧ t.tmu = s.tmu ∧ t.out = s.out ∧
        regsBut [Reg.ETH_CNT e 0, Reg.ETH_CNT e 4] s t) ∧
      ((eport s e).t21 = none ∨ (∀ t3, (eport s e).dreq ≠ some (m.seq.toNat, t3)) ∨ m.forUs = false ∨ ptpState s e < 8 →
        ∃ t, exec (.delayResp e m) s = .next t ∧ OnlyRegs [Reg.ETH_CNT e 0] s t) ∧
      (peerDelay s e = false → ∃ t, exec (.pdelayReq e m) s = .next t ∧ t.eth = s.eth ∧ t.tmu = s.tmu ∧ t.out = s.out ∧
        regsBut [Reg.ETH_CNT e 0, Reg.ETH_CNT e 4] s t) ∧
      ((∀ t1, (eport s e).pdreq ≠ some (m.seq.toNat, t1)) ∨ m.forUs = false ∨ peerDelay s e = false →
        ∃ t, exec (.pdelayResp e m) s = .next t ∧ t.eth = s.eth ∧ t.tmu = s.tmu ∧ t.out = s.out ∧
          regsBut [Reg.ETH_CNT e 0, Reg.ETH_CNT e 4] s t) ∧
      ((∀ t1, (eport s e).pdreq ≠ some (m.seq.toNat, t1)) ∨ (eport s e).pdresp = none ∨ m.forUs = false →
        ∃ t, exec (.pdelayRespFollowUp e m) s = .next t ∧ OnlyRegs [Reg.ETH_CNT e 0] s t) ∧
      (∀ t2, (eport s e).syncRx = some (m.seq.toNat, t2) → ∃ t, exec (.followUp e m) s = .next t ∧
        (eport t e).t21 = some (t2 - msgTime s m - m.corr) ∧ (eport t e).syncRx = none ∧ (eport t e).syncAt = some s.up) ∧
      (∀ q t2, (eport s e).syncRx = some (q, t2) → q ≠ m.seq.toNat → ∃ t, exec (.followUp e m) s = .next t ∧
        OnlyRegs [Reg.ETH_CNT e 0] s t) ∧
      (ptpState s e = 6 → peerDelay s e = false → ∃ t, exec (.delayReq e m) s = .next t ∧
        t.out = s.out ++ [.ptp e 9 m.seq.toNat d 0] ∧ Counted s t (Reg.ETH_CNT e 3) 1 ∧ Counted s t (Reg.ETH_CNT e 4) 1) ∧
      (∀ x t3, (eport s e).t21 = some x → (eport s e).dreq = some (m.seq.toNat, t3) → m.forUs = true → 8 ≤ ptpState s e →
        ∃ t, exec (.delayResp e m) s = .next t ∧ (eport t e).dreq = none ∧
          t.tmu.waiting = s.tmu.waiting ++ [(e.val, (x - (msgTime s m - m.corr - t3)) / 2 - comp s e 2, s.up)]) ∧
      (peerDelay s e = true → ∃ t d', exec (.pdelayReq e m) s = .next t ∧
        t.out = s.out ++ (if oneStep s e = true then [.ptp e 3 m.seq.toNat 0 (d' - d)]
          else [.ptp e 3 m.seq.toNat d 0, .ptp e 0xA m.seq.toNat d' 0]) ∧
        Counted s t (Reg.ETH_CNT e 3) (if oneStep s e = true then 1 else 2) ∧ Counted s t (Reg.ETH_CNT e 5) 1) ∧
      (∀ t1, (eport s e).pdreq = some (m.seq.toNat, t1) → m.forUs = true → peerDelay s e = true →
        ∃ t, exec (.pdelayResp e m) s = .next t ∧
          (if m.twoStep = true then (eport t e).pdresp = some (msgTime s m, d - m.corr)
           else (eport t e).mean = some ((d - t1 - m.corr) / 2) ∧ (eport t e).pdreq = none)) ∧
      (∀ t1 t2 t4, (eport s e).pdreq = some (m.seq.toNat, t1) → (eport s e).pdresp = some (t2, t4) → m.forUs = true →
        ∃ t, exec (.pdelayRespFollowUp e m) s = .next t ∧
          (eport t e).mean = some ((t4 - t1 - (msgTime s m + m.corr - t2)) / 2) ∧ (eport t e).pdreq = none)) ∧
    (∀ m : AnnMsg, ptpTakes s e m.domain = true → fwRuns s = true →
      ∃ t, exec (.announce e m) s = .next t ∧
        ptpState t e = (if 1 ≤ m.state.toNat ∧ m.state.toNat ≤ 9 then m.state.toNat else ptpState s e) ∧ (eport t e).annAt = some s.up ∧
        (m.state.toNat = 9 → (∀ j : Fin 4, j ≠ e → ptpState t j ≠ 9) ∧ (eport t e).parent = some m ∧
          fget t Reg.TMU_EPOCH Reg.TMU_EPOCH_UTC_OFS = m.utcOfs.toNat ∧
          fget t Reg.TMU_EPOCH Reg.TMU_EPOCH_UTC_VALID = b2n m.utcValid))

/-- R275, R277, R293, R295, R301: what a port with PTP in use sends when its intervals come: a time transmitter Sync, in two-step with its Follow_Up,
and Announce with the UTC values in force; a time receiver Delay_Req, a peer-to-peer port Pdelay_Req; and three intervals without an Announce make
the port a time transmitter. An Announce interval brings the written PTP settings into force, on any port; before its interval, or on a port in
another state, none of them sends. (The model's choices in it: notes/assumptions/54, 55, 110.) -/
def Obligations.PtpIntervalsSend : Prop :=
  (∀ (e : Fin 4) (s : State),
    (ptpOn s e = false ∨ ptpState s e ≠ 6 ∨ s.up < (eport s e).nextSync → ∃ t, exec (.syncInterval e) s = .next t ∧ NoEffect s t) ∧
    (ptpOn s e = false ∨ s.up < (eport s e).nextDelay ∨ (peerDelay s e = false ∧ ptpState s e < 8) →
      ∃ t, exec (.delayReqInterval e) s = .next t ∧ NoEffect s t) ∧
    (s.up < (eport s e).nextAnn → ∃ t, exec (.announceInterval e) s = .next t ∧ NoEffect s t) ∧
    ((eport s e).nextAnn ≤ s.up → ∃ t, exec (.announceInterval e) s = .next t ∧
      (eport t e).cfg = rget s (Reg.ETH_PTP_CFG e) ∧ (eport t e).glb = rget s Reg.ETH_PTP_GLB ∧
      (eport t e).nextAnn = s.up + annNs t e ∧
      (∀ u, u = announceTick s e →
        (if ptpOn u e = true ∧ fwRuns u = true ∧ ptpState u e = 6 then
          Counted u t (Reg.ETH_CNT e 3) 1 ∧
          t.out = u.out ++ [.firmware e 4 (tget (eport u e).seqs 0 0xB * 2 ^ 64 + (rget s Reg.ETH_PTP_GLB).toNat * 2 ^ 32 +
            fget u Reg.TMU_EPOCH Reg.TMU_EPOCH_UTC_OFS + 2 ^ 16 * fget u Reg.TMU_EPOCH Reg.TMU_EPOCH_UTC_VALID)]
         else t.out = u.out ∧ t.regs = u.regs))) ∧
    ((∀ a, (eport s e).annAt = some a → s.up < a + 3 * annNs s e) ∨ ptpOn s e = false ∨ fwRuns s = false ∨
        (ptpState s e ≠ 4 ∧ ptpState s e < 7) →
      ∃ t, exec (.announceReceiptTimeout e) s = .next t ∧ NoEffect s t)) ∧
  ∀ (e : Fin 4) (s : State), ptpOn s e = true →
    (ptpState s e = 6 → (eport s e).nextSync ≤ s.up → ∃ t, exec (.syncInterval e) s = .next t ∧
      (eport t e).nextSync = s.up + syncNs s e ∧ tget (eport t e).seqs 0 0 = (tget (eport s e).seqs 0 0 + 1) % 65536 ∧
      t.out = s.out ++ (if oneStep s e = true then [.ptp e 0 (tget (eport s e).seqs 0 0) (txStamp s e).1 0]
        else [.ptp e 0 (tget (eport s e).seqs 0 0) 0 0, .ptp e 8 (tget (eport s e).seqs 0 0) (txStamp s e).1 0]) ∧
      Counted s t (Reg.ETH_CNT e 3) (if oneStep s e = true then 1 else 2) ∧ Counted s t (Reg.ETH_CNT e 5) 1) ∧
    ((eport s e).nextDelay ≤ s.up → peerDelay s e = true → ∃ t, exec (.delayReqInterval e) s = .next t ∧
      (eport t e).nextDelay = s.up + delayNs s e ∧ (eport t e).pdreq = some (tget (eport s e).seqs 0 2, (txStamp s e).1) ∧
      (eport t e).pdresp = none ∧ t.out = s.out ++ [.ptp e 2 (tget (eport s e).seqs 0 2) 0 0]) ∧
    ((eport s e).nextDelay ≤ s.up → peerDelay s e = false → 8 ≤ ptpState s e → ∃ t, exec (.delayReqInterval e) s = .next t ∧
      (eport t e).nextDelay = s.up + delayNs s e ∧ (eport t e).dreq = some (tget (eport s e).seqs 0 1, (txStamp s e).1) ∧
      t.out = s.out ++ [.ptp e 1 (tget (eport s e).seqs 0 1) 0 0]) ∧
    (∀ a, (eport s e).annAt = some a → fwRuns s = true → ptpState s e = 4 ∨ 7 ≤ ptpState s e → a + 3 * annNs s e ≤ s.up →
      ∃ t, exec (.announceReceiptTimeout e) s = .next t ∧ ptpState t e = 6 ∧ (eport t e).annAt = none ∧
        (ptpState s e = 9 → qualified t e = false) ∧ t.bel = s.bel)

/-- R370, R372, R374, R376: what the sensors and their deadlines do: a publication that is due stores every sensor's raw value, 0x8000 for one
outside its range, and sets the next; conditions that have held for RELEASE_HOLD lower the level by one and, from level 1, end the enforced
spacing; a grace time that ends above level 0 enforces the spacing of the level; before its deadline each does nothing. (The model's choices in it: notes/assumptions/39, 76.) -/
def Obligations.ThermalEventsAct : Prop :=
  (∀ (raw : List (BitVec 16)) (s : State), s.boot.powered = true → s.thm.nextPub ≤ s.up →
    ∃ t, exec (.sensorPublication raw) s = .next t ∧ t.thm.nextPub = s.up + 100000 ∧
      (∀ i ∈ sensors s, (rget t (sReg i)).toNat / 65536 =
        if inRange i (sext (raw.getD i 0x8000).toNat 16) = true then (raw.getD i 0x8000).toNat else 0x8000)) ∧
  (∀ (raw : List (BitVec 16)) (s : State), s.boot.powered = false ∨ s.up < s.thm.nextPub →
    ∃ t, exec (.sensorPublication raw) s = .next t ∧ NoEffect s t) ∧
  (∀ (s : State) (u : Nat), s.thm.relSince = some u → thmLevel s ≠ 0 →
    u + 1000000 * max 101 (fget s Reg.THM_CTRL Reg.THM_CTRL_RELEASE_HOLD) ≤ s.up →
    ∃ t, exec .releaseDwell s = .next t ∧ thmLevel t = thmLevel s - 1 ∧ Counted s t (Reg.THM_CNT 1) 1 ∧
      t.thm.relSince = (if thmLevel s = 2 then s.thm.relOne else none) ∧
      (thmLevel s = 1 → enforced t = false ∧ t.thm.grace = none ∧
        fget t Reg.BEL_SPACING Reg.BEL_SPACING_IN_FORCE = max 200 (fget s Reg.BEL_SPACING Reg.BEL_SPACING_BASE))) ∧
  (∀ s : State, (∀ u, s.thm.relSince = some u → s.up < u + 1000000 * max 101 (fget s Reg.THM_CTRL Reg.THM_CTRL_RELEASE_HOLD)) ∨
      thmLevel s = 0 → ∃ t, exec .releaseDwell s = .next t ∧ NoEffect s t) ∧
  (∀ (s : State) (g : Nat), s.thm.grace = some g → g ≤ s.up → thmLevel s ≠ 0 →
    ∃ t, exec .graceExpiry s = .next t ∧ enforced t = true ∧ Counted s t (Reg.THM_CNT 2) 1 ∧ t.thm.grace = none ∧ t.bel = s.bel ∧
      (thmLevel s = 1 → fget t Reg.BEL_SPACING Reg.BEL_SPACING_IN_FORCE =
        max (max 200 (fget s Reg.BEL_SPACING Reg.BEL_SPACING_BASE)) (fget s Reg.THM_SPACE Reg.THM_SPACE_SPACE1)) ∧
      (thmLevel s = 2 → fget t Reg.BEL_SPACING Reg.BEL_SPACING_IN_FORCE =
        max (max 200 (fget s Reg.BEL_SPACING Reg.BEL_SPACING_BASE)) (fget s Reg.THM_SPACE Reg.THM_SPACE_SPACE2))) ∧
  (∀ (s : State), (∀ g, s.thm.grace = some g → s.up < g) ∨ thmLevel s = 0 → ∃ t, exec .graceExpiry s = .next t ∧ NoEffect s t)

/-- R354, R356 to R360: the fault collector: the slot served next enters the log with the next SEQ and its source's actions, and nothing else in
the SRAM windows changes; the FAULT vector goes out once nothing holds it back for 10 µs, else it waits; a force bit opens its source's slot with
FORCED, or merges into the open one; a repair that is not listed is refused, the listed one of a cell asks for its retirement on the next drive
tick edge, that of an ADC stops it and that of a lane fails it; the requests that are due retire their cells and the others wait. (The model's
choices in it: notes/assumptions/38.) -/
def Obligations.FaultsAreLoggedAndRepaired : Prop :=
  (∀ (s : State) (src : Nat) (x : Slot) (i seq : Nat), nextSlot s = some (src, x) → src < 352 →
    i = (if fget s Reg.FLT_LOG_HEAD Reg.FLT_LOG_HEAD_EMPTY = 1 then 0
      else (fget s Reg.FLT_LOG_HEAD Reg.FLT_LOG_HEAD_INDEX + 1) % 1024) →
    seq = (if (rget s Reg.FLT_LOG_SEQ).toNat = 0xFFFFFFFF then 1 else (rget s Reg.FLT_LOG_SEQ).toNat + 1) →
    ∃ t, exec .recordWrite s = .next t ∧ mget t (0xA60000 + 32 * i) 32 = recordWord seq src x % 2 ^ 256 ∧
      (∀ a, a < 0xA60000 + 32 * i ∨ 0xA60000 + 32 * i + 32 ≤ a → mbyte t a = mbyte s a) ∧
      t.flt.slots = tdel s.flt.slots src ∧ t.flt.last = src ∧ (rget t Reg.FLT_LOG_SEQ).toNat = seq ∧
      fget t Reg.FLT_LOG_HEAD Reg.FLT_LOG_HEAD_INDEX = i ∧ fget t Reg.FLT_LOG_HEAD Reg.FLT_LOG_HEAD_EMPTY = 0 ∧
      Counted s t (Reg.FLT_CNT 0) 1 ∧
      (fget s (Reg.FLT_ACT src) Reg.FLT_ACT_HALT = 1 → fget t Reg.HIF_HALT Reg.HIF_HALT_HALT = 1)) ∧
  (∀ s : State, nextSlot s = none → ∃ t, exec .recordWrite s = .next t ∧ NoEffect s t) ∧
  (∀ (p : Fin 2) (s : State), (portOf s p).faultWait = true →
    ((portOf s p).faultLast = none ∨ ∃ u, (portOf s p).faultLast = some u ∧ u + 10000 ≤ s.up) →
    ∃ t, exec (.faultInterrupt p) s = .next t ∧ (portOf t p).faultWait = false ∧ (portOf t p).faultLast = some s.up ∧
      (fget s (Reg.HIF_EVVEC p) Reg.HIF_EVVEC_FAULT_EN = 0 → t.out = s.out ∧ t.regs = s.regs)) ∧
  (∀ (p : Fin 2) (s : State), ((portOf s p).faultWait = false ∨ ∃ u, (portOf s p).faultLast = some u ∧ s.up < u + 10000) →
    ∃ t, exec (.faultInterrupt p) s = .next t ∧ NoEffect s t) ∧
  (∀ (m : Master) (k : Fin 11) (v : BitVec 32) (s : State), Reaches s m (Reg.FLT_FORCE k) →
    fget s Reg.FLT_CTRL Reg.FLT_CTRL_FORCE_EN = 0 → ∃ t, exec (.force m k v) s = .next t ∧ NoEffect s t) ∧
  (∀ (m : Master) (k : Fin 11) (v : BitVec 32) (s : State), Reaches s m (Reg.FLT_FORCE k) →
    fget s Reg.FLT_CTRL Reg.FLT_CTRL_FORCE_EN = 1 → fget s Reg.FLT_FORCE_CFG Reg.FLT_FORCE_CFG_REPAIR = 0 →
    ∃ t, exec (.force m k v) s = .next t ∧
      (∀ b < 32, bit v.toNat b = true → tfind s.flt.slots (32 * k + b) = none → tfind t.flt.slots (32 * k + b) =
        some (Slot.mk (fget s Reg.FLT_FORCE_CFG Reg.FLT_FORCE_CFG_KIND) (fget s Reg.FLT_FORCE_ADDR Reg.FLT_FORCE_ADDR_ADDR) 0 s.now 0 0 true)) ∧
      (∀ b < 32, ∀ x, bit v.toNat b = true → tfind s.flt.slots (32 * k + b) = some x → tfind t.flt.slots (32 * k + b) =
        some (mergeSlot x (fget s Reg.FLT_FORCE_CFG Reg.FLT_FORCE_CFG_KIND) (fget s Reg.FLT_FORCE_ADDR Reg.FLT_FORCE_ADDR_ADDR) 0 s.now true)) ∧
      (∀ b < 32, bit v.toNat b = false → tfind t.flt.slots (32 * k + b) = tfind s.flt.slots (32 * k + b)) ∧
      Counted s t (Reg.FLT_CNT 2) ((List.range 32).filter (bit v.toNat)).length ∧ t.bel = s.bel) ∧
  (∀ (m : Master) (k : Fin 11) (b : Fin 32) (s : State) (kind : Nat), Reaches s m (Reg.FLT_FORCE k) →
    fget s Reg.FLT_CTRL Reg.FLT_CTRL_FORCE_EN = 1 → fget s Reg.FLT_FORCE_CFG Reg.FLT_FORCE_CFG_REPAIR = 1 →
    kind = fget s Reg.FLT_FORCE_CFG Reg.FLT_FORCE_CFG_KIND →
    ∃ t, exec (.force m k (BitVec.ofNat 32 (2 ^ b.val))) s = .next t ∧ (tfind t.flt.slots (32 * k + b)).isSome = true ∧
      (kind ∉ [0x19, 0x1A, 0x20, 0x34, 0x38] → fget t Reg.FLT_STATUS Reg.FLT_STATUS_FREFUSED = 1 ∧ t.bel = s.bel) ∧
      (kind ∈ [0x19, 0x1A] → 32 * k.val + b.val < 96 → fget s Reg.FLT_FORCE_ADDR Reg.FLT_FORCE_ADDR_ADDR < 6144 →
        cellUsable s (fget s Reg.FLT_FORCE_ADDR Reg.FLT_FORCE_ADDR_ADDR) = true →
        t.bel.retireQ = s.bel.retireQ ++ [(fget s Reg.FLT_FORCE_ADDR Reg.FLT_FORCE_ADDR_ADDR, 9, gridAfter s.now)]) ∧
      (kind = 0x20 → 96 ≤ 32 * k.val + b.val → 32 * k.val + b.val < 192 → fget s Reg.FLT_FORCE_ADDR Reg.FLT_FORCE_ADDR_ADDR < 768 →
        adcOk t (fget s Reg.FLT_FORCE_ADDR Reg.FLT_FORCE_ADDR_ADDR) = false) ∧
      (kind = 0x38 → 32 * k.val + b.val = 303 ∨ 32 * k.val + b.val = 304 → laneOk s 0 = true → laneOk s 1 = true →
        laneOk t (32 * k.val + b.val - 303) = false ∧ laneOk t (304 - (32 * k.val + b.val)) = true)) ∧
  (∀ (s : State) (i k due : Nat), (i, k, due) ∈ s.bel.retireQ → due ≤ nowNs s → cellUsable s i = true → i < 6144 →
    ∃ t, exec .retirement s = .next t ∧ isRetired t i = true ∧
      t.bel.retireQ = s.bel.retireQ.filter (fun x => !decide (x.2.2 ≤ nowNs s))) ∧
  (∀ s : State, (∀ x ∈ s.bel.retireQ, nowNs s < x.2.2) → ∃ t, exec .retirement s = .next t ∧ NoEffect s t)

/-- R53, R380 to R383, R385, R395, R421: power: power-on happens once until a supply is lost; with no eligible slot it stays in ROM and shows why;
with a slot that passes, both halves of the image store hold its restart sections; BOOT_READY sets READY of a device that booted; a lost supply
leaves the flash alone and clamps the outputs; VDD_AUX drives the PWM outputs low until power-on reset releases. (The model's choices in it:
notes/assumptions/16, 47, 48, 82.) -/
def Obligations.PowerOnBootsOrStaysInRom : Prop :=
  (∀ (env : BootEnv) (s : State), s.boot.powered = true → ∃ t, exec (.powerOnReset env) s = .next t ∧ NoEffect s t) ∧
  (∀ (env : BootEnv) (s : State), s.boot.powered = false → eligible s 0 = false → eligible s 1 = false →
    ∃ t, exec (.powerOnReset env) s = .next t ∧ t.boot.powered = true ∧ t.boot.flash = s.boot.flash ∧ t.hif.paused = true ∧
      fget t Reg.BOOT_STATUS Reg.BOOT_STATUS_ROM_ONLY = 1 ∧ fget t Reg.BOOT_STATUS Reg.BOOT_STATUS_MODE = env.mode ∧
      (∀ k : Fin 2, fget t (Reg.BOOT_SLOT k) Reg.BOOT_SLOT_FAIL = if headerOk s k = false then 1 else 6) ∧ rget t Reg.GLB_CLK = 15 ∧ t.mem = [] ∧
      t.mnt.smbAddr = 0x58 + env.straps.toNat ∧ t.pins.clamp = false ∧ t.pins.pwmLow = false) ∧
  (∀ (env : BootEnv) (s : State), s.boot.powered = false →
    ∃ t, exec (.powerOnReset env) s = .next t ∧ t.boot.powered = true ∧ t.boot.h0 = t.boot.h1 ∧ t.mnt.smbAddr = 0x58 + env.straps.toNat ∧
      (∀ k, (chooseSlot (lanesTest (discover (powerClear s env) env) env.selfTest.toNat) env.sfdp).2 = some k →
        t.boot.h0 = storeHalf t k)) ∧
  (∀ s : State, s.boot.powered = true → fget s Reg.BOOT_STATUS Reg.BOOT_STATUS_ROM_ONLY = 0 →
    ∃ t, exec .bootReady s = .next t ∧ fget t Reg.BOOT_STATUS Reg.BOOT_STATUS_READY = 1 ∧ OnlyRegs [Reg.BOOT_STATUS] s t) ∧
  (∀ s : State, s.boot.powered = false ∨ fget s Reg.BOOT_STATUS Reg.BOOT_STATUS_ROM_ONLY = 1 →
    ∃ t, exec .bootReady s = .next t ∧ NoEffect s t) ∧
  (∀ s : State, ∃ t, exec .supplyLoss s = .next t ∧ t.regs = [] ∧ t.mem = [] ∧ t.boot.powered = false ∧ t.boot.flash = s.boot.flash ∧
    t.pins.clamp = true ∧ t.pins.pwmLow = true ∧ t.now = 0 ∧ t.bel = State.reset.bel ∧ t.pending = s.pending ∧
    t.boot.wasRetired = (if s.boot.powered = true then (List.range 6144).filter (isRetired s) else s.boot.wasRetired)) ∧
  (∀ s : State, ∃ t, exec .vddAuxValid s = .next t ∧ t.boot = { s.boot with auxValid := true } ∧ t.regs = s.regs ∧
    (s.boot.powered = false → t.pins.pwmLow = true) ∧ (s.boot.powered = true → t.pins.pwmLow = s.pins.pwmLow))

/-- R26, R27, R138, R350, R364, R385, R387, R395: warm restarts: RST_N, an expired watchdog and GLB_RESET with its KEY ask for one, whose window
clears every arm and pauses intake; one requested while another is asked for or in its window merges into it; another KEY is discarded; the
command-side reset notes its cause and counts, and waits for RST_N and for a die below THR1 − HYST; lanes are tested in the window; its end runs
the pipeline, skips what came due and keeps a lease for 1 ms. (The model's choices in it: notes/assumptions/57, 62, 90.) -/
def Obligations.WarmRestartsRunTheirCourse : Prop :=
  (∀ s : State, s.boot.powered = false → ∃ t, exec .rstN s = .next t ∧ NoEffect s t) ∧
  (∀ s : State, s.boot.powered = true → s.restart.asked = none → s.restart.inWindow = false →
    (∃ t, exec .rstN s = .next t ∧ t.restart.rstLow = true ∧ t.restart.asked = some (1, false) ∧
      (dieHot s = true → t.restart.inWindow = false ∧ t.regs = s.regs) ∧
      (dieHot s = false → t.restart.inWindow = true ∧ t.restart.taiAt = s.now ∧ t.hif.paused = true ∧ t.hif.fetched = [] ∧
        (∀ T : Fin 96, fget t (Reg.DRV_ARM T) Reg.DRV_ARM_VALID = 0 ∧ fget t (Reg.DRV_ARM T) Reg.DRV_ARM_RVALID = 0))) ∧
    (fget s Reg.GLB_WDOG Reg.GLB_WDOG_EN = 1 → s.boot.dogRun = true → s.boot.dogAt + dogNs s ≤ s.up →
      ∃ t, exec .watchdogExpiry s = .next t ∧ t.restart.asked = some (2, false) ∧ (tfind t.flt.slots srcWdog).isSome = true) ∧
    (∀ (m : Master) (v : BitVec 32), Reaches s m Reg.GLB_RESET → v.toNat / 65536 = 0x6512 → bit v.toNat 0 = true →
      ∃ t, exec (.glbReset m v) s = .next t ∧ t.restart.asked = some (resetCause m, bit v.toNat 1))) ∧
  (∀ s : State, s.boot.powered = true → s.restart.asked ≠ none ∨ s.restart.inWindow = true →
    (∃ t, exec .rstN s = .next t ∧ t = { s with restart := { s.restart with rstLow := true }, pins := levels s t }) ∧
    (fget s Reg.GLB_WDOG Reg.GLB_WDOG_EN = 1 → s.boot.dogRun = true → s.boot.dogAt + dogNs s ≤ s.up →
      ∃ t, exec .watchdogExpiry s = .next t ∧ t.restart = s.restart ∧ (tfind t.flt.slots srcWdog).isSome = true ∧ t.bel = s.bel)) ∧
  (∀ (m : Master) (v : BitVec 32) (s : State), Reaches s m Reg.GLB_RESET → v.toNat / 65536 = 0x6512 →
    bit v.toNat 0 = false ∨ s.restart.asked ≠ none ∨ s.restart.inWindow = true ∨ s.boot.powered = false →
    ∃ t, exec (.glbReset m v) s = .next t ∧ NoEffect s t) ∧
  (∀ s : State, fget s Reg.GLB_WDOG Reg.GLB_WDOG_EN = 0 ∨ s.boot.dogRun = false ∨ s.up < s.boot.dogAt + dogNs s →
    ∃ t, exec .watchdogExpiry s = .next t ∧ NoEffect s t) ∧
  (∀ (m : Master) (v : BitVec 32) (s : State), Reaches s m Reg.GLB_RESET → v.toNat / 65536 ≠ 0x6512 →
    ∃ t, exec (.glbReset m v) s = .next t ∧ t.restart = s.restart ∧ (tfind t.flt.slots srcGlb).isSome = true ∧
      Counted s t (Reg.XBR_CNT 3) 1 ∧ t.bel = s.bel) ∧
  (∀ s : State, ∃ t, exec .rstNRelease s = .next t ∧
    t = { s with restart := { s.restart with rstLow := false }, pins := levels s t }) ∧
  (∀ (m : Master) (v : BitVec 32) (s : State), Reaches s m Reg.GLB_WDOG_KICK →
    ∃ t, exec (.glbWdogKick m v) s = .next t ∧
      t = { s with boot := { s.boot with dogAt := if bit v.toNat 0 = true then s.up else s.boot.dogAt }, pins := levels s t }) ∧
  (∀ (bad : BitVec 100) (s : State) (cause : Nat) (staged : Bool), s.restart.asked = some (cause, staged) → s.restart.rstLow = false →
    dieHot s = false → s.boot.powered = true →
    ∃ t, exec (.warmRestart bad) s = .next t ∧ t.restart.asked = none ∧ t.boot.dogRun = true ∧ t.boot.dogAt = s.up ∧ t.now = s.now ∧
      fget t Reg.GLB_RST_CAUSE Reg.GLB_RST_CAUSE_LAST = cause % 8 ∧
      fget t Reg.GLB_RST_CAUSE Reg.GLB_RST_CAUSE_COUNT = min (fget s Reg.GLB_RST_CAUSE Reg.GLB_RST_CAUSE_COUNT + 1) 65535 ∧
      t.boot.flash = s.boot.flash ∧ t.bel.laneA = none ∧ t.bel.laneB = none ∧ t.drv.tests = []) ∧
  (∀ (bad : BitVec 100) (s : State), s.restart.asked = none ∨ s.restart.rstLow = true ∨ dieHot s = true ∨ s.boot.powered = false →
    ∃ t, exec (.warmRestart bad) s = .next t ∧ NoEffect s t) ∧
  (∀ (l : Fin 2) (pass : Bool) (diff : BitVec 32) (s : State), s.restart.inWindow = true → s.restart.asked = none →
    ∃ t, exec (.laneSelfTest l pass diff) s = .next t ∧ laneOk t l = pass ∧ (∀ j : Fin 2, j ≠ l → laneOk t j = laneOk s j) ∧
      t.bel = s.bel ∧ (pass = false → (tfind t.flt.slots (srcRts l)).isSome = true)) ∧
  (∀ (l : Fin 2) (pass : Bool) (diff : BitVec 32) (s : State), s.restart.inWindow = false ∨ s.restart.asked ≠ none →
    ∃ t, exec (.laneSelfTest l pass diff) s = .next t ∧ NoEffect s t) ∧
  (∀ s : State, s.restart.inWindow = true → s.restart.asked = none → s.restart.rstLow = false →
    ∃ t, exec .pipelineResume s = .next t ∧ t.restart.inWindow = false ∧ t.bel.skipTo = nowNs s + 12000 ∧
      t.hif.paused = decide (fget s Reg.THM_STATUS Reg.THM_STATUS_PIC_SHUT = 1) ∧ fget t Reg.THM_STATUS Reg.THM_STATUS_DIE_SHUT = 0 ∧
      (s.dual.holder.isSome = true → t.dual.expiry = max s.dual.expiry (s.now + 1000000 * q40))) ∧
  (∀ s : State, s.restart.inWindow = false ∨ s.restart.asked ≠ none ∨ s.restart.rstLow = true →
    ∃ t, exec .pipelineResume s = .next t ∧ NoEffect s t)

/-- R382, R386, R389, R391, R392, R395: GLB_PSTATE, BOOT_CMD and BOOT_PROG, whichever of its rows a write comes as: DOZE and NAP are asked for,
entered when every condition holds, refused after 10 ms with the first that fails, and left for RUN; asked for in DOZE or NAP they change REQ only;
CONFIRM programs its flag, STAGE fills the second store half, JWRITE is refused within 60 s of the last, and a word with none of the three bits
does nothing; a page operation starts unless its target is denied; without GO, with operation 3 or while BUSY the page and operation are stored
and nothing starts. (The model's choices in it: notes/assumptions/8, 74.) -/
def Obligations.PowerStatesAndFlashCommandsAct : Prop :=
  (∀ (m : Master) (v : BitVec 32) (s : State) (c : Instr), Reaches s m Reg.GLB_PSTATE → c ∈ [Instr.doze m v, .nap m v, .run m v] →
    (v.toNat % 4 = 1 ∨ v.toNat % 4 = 2 → pstate s < 2 → ∃ t, exec c s = .next t ∧ pstate t = 1 ∧
      t.boot = { s.boot with pstAt := some s.up } ∧ fget t Reg.GLB_PSTATE Reg.GLB_PSTATE_REQ = v.toNat % 4 ∧
      fget t Reg.GLB_PSTATE Reg.GLB_PSTATE_REFUSED = 0 ∧ regsBut [Reg.GLB_PSTATE] s t) ∧
    (v.toNat % 4 = 1 ∨ v.toNat % 4 = 2 → 2 ≤ pstate s → ∃ t, exec c s = .next t ∧ pstate t = pstate s ∧ t.boot = s.boot ∧
      fget t Reg.GLB_PSTATE Reg.GLB_PSTATE_REQ = v.toNat % 4 ∧ regsBut [Reg.GLB_PSTATE] s t) ∧
    (v.toNat % 4 = 0 ∨ v.toNat % 4 = 3 → ∃ t, exec c s = .next t ∧ fget t Reg.GLB_PSTATE Reg.GLB_PSTATE_REQ = v.toNat % 4 ∧
      regsBut [Reg.GLB_PSTATE] s t ∧
      (pstate s = 1 → pstate t = 0 ∧ t.boot.pstAt = none) ∧
      (2 ≤ pstate s → s.boot.pstWake = none → t.boot.pstWake = some (s.up + 16000) ∧ fget t Reg.GLB_PSTATE Reg.GLB_PSTATE_EXIT = 0))) ∧
  (∀ s : State, pstate s ≠ 1 → ∃ t, exec .powerStateEntry s = .next t ∧ NoEffect s t) ∧
  (∀ s : State, pstate s ≠ 1 ∨ pstateReason s = 0 ∨ (∀ x, s.boot.pstAt = some x → s.up < x + 10000000) →
    ∃ t, exec .powerStateRefusal s = .next t ∧ NoEffect s t) ∧
  (∀ s : State, pstate s = 1 →
    (pstateReason s = 0 → ∃ t, exec .powerStateEntry s = .next t ∧ OnlyRegs [Reg.GLB_PSTATE] s { t with boot := s.boot } ∧
      pstate t = (fget s Reg.GLB_PSTATE Reg.GLB_PSTATE_REQ + 1) % 4 ∧ t.boot = { s.boot with pstAt := none }) ∧
    (pstateReason s ≠ 0 → ∃ t, exec .powerStateEntry s = .next t ∧ NoEffect s t) ∧
    (∀ x, s.boot.pstAt = some x → x + 10000000 ≤ s.up → pstateReason s ≠ 0 → ∃ t, exec .powerStateRefusal s = .next t ∧ pstate t = 0 ∧
      fget t Reg.GLB_PSTATE Reg.GLB_PSTATE_REFUSED = 1 ∧ fget t Reg.GLB_PSTATE Reg.GLB_PSTATE_REASON = pstateReason s ∧
      t.boot.pstAt = none)) ∧
  (∀ (m : Master) (v : BitVec 32) (s : State) (c : Instr), Reaches s m Reg.BOOT_CMD → v.toNat % 8 = 0 →
    c ∈ [Instr.confirm m v, .bootCmdStage m v, .jwrite m v] → ∃ t, exec c s = .next t ∧ NoEffect s t) ∧
  (∀ (m : Master) (v : BitVec 32) (s : State), Reaches s m Reg.BOOT_CMD → bit v.toNat 0 = true →
    ∃ t, exec (.confirm m v) s = .next t ∧
      (romOnly s = false → flashByte t (slotAt (bootedSlot s) + 0x1100) = 0) ∧
      (∀ a, romOnly s = true ∨ a ≠ slotAt (bootedSlot s) + 0x1100 → flashByte t a = flashByte s a)) ∧
  (∀ (m : Master) (v : BitVec 32) (s u : State) (k : Nat), Reaches s m Reg.BOOT_CMD → bit v.toNat 1 = true →
    u = (if bit v.toNat 0 = true then bootConfirm s else s) → k = 1 - bootedSlot s →
    ∃ t, exec (.bootCmdStage m v) s = .next t ∧ t.boot.h0 = s.boot.h0 ∧
      (if romOnly s = false ∧ headerOk u k = true ∧ flashRd u (slotAt k + 0x14) 4 = flashRd u (slotAt (bootedSlot s) + 0x14) 4
       then t.boot.h1 = storeHalf u k ∧ fget t Reg.BOOT_STATUS Reg.BOOT_STATUS_STORE_STAGED = 1 else t.boot.h1 = s.boot.h1)) ∧
  (∀ (m : Master) (v : BitVec 32) (s : State), Reaches s m Reg.BOOT_CMD → bit v.toNat 2 = true →
    ∃ t, exec (.jwrite m v) s = .next t ∧
      ((s.boot.jLast = none ∨ ∃ x, s.boot.jLast = some x ∧ x + 60000000000 ≤ s.up) →
        t.boot.jWant = true ∧ fget t Reg.BOOT_JRNL Reg.BOOT_JRNL_REFUSED = 0) ∧
      ((∃ x, s.boot.jLast = some x ∧ s.up < x + 60000000000) →
        t.boot.jWant = s.boot.jWant ∧ fget t Reg.BOOT_JRNL Reg.BOOT_JRNL_REFUSED = 1)) ∧
  (∀ (m : Master) (v : BitVec 32) (s : State) (page op : Nat) (no : Bool) (c : Instr), Reaches s m Reg.BOOT_PROG →
    c ∈ [Instr.readPage m v, .programPage m v, .eraseBlock m v] → page = bits v.toNat 8 18 → op = bits v.toNat 26 2 →
    no = (progDenied s (256 * page) || (decide (op = 2) && progDenied s (65536 * (page / 256)))) →
    ∃ t, exec c s = .next t ∧ fget t Reg.BOOT_PROG Reg.BOOT_PROG_PAGE = page ∧ fget t Reg.BOOT_PROG Reg.BOOT_PROG_OP = op ∧
      regsBut [Reg.BOOT_PROG] s t ∧
      (if bit v.toNat 28 = true ∧ op ≠ 3 ∧ fget s Reg.BOOT_PROG Reg.BOOT_PROG_BUSY = 0 then
        (op = 0 → t.boot = { s.boot with opAt := some (0, page) } ∧ fget t Reg.BOOT_PROG Reg.BOOT_PROG_BUSY = 1) ∧
        (op ≠ 0 → fget t Reg.BOOT_PROG Reg.BOOT_PROG_DENIED = b2n no ∧
          t.boot = { s.boot with opAt := if no = true then s.boot.opAt else some (op, page) } ∧
          fget t Reg.BOOT_PROG Reg.BOOT_PROG_BUSY = b2n !no)
       else t.boot = s.boot ∧ fget t Reg.BOOT_PROG Reg.BOOT_PROG_BUSY = fget s Reg.BOOT_PROG Reg.BOOT_PROG_BUSY))

/-- R389, R395: what the flash does: a write-back that is due erases and programs the region without the newest record and touches no other; its
end makes the record valid or reports the failure and stays due; a page operation's end reads the page into the buffer, programs it, or erases its
block, and leaves every other byte; with no write-back due or in progress, and no page operation, these events do nothing. (The model's choices in it: notes/assumptions/8, 46.) -/
def Obligations.FlashOperationsComplete : Prop :=
  (∀ s : State, jrnlDue s = true → s.boot.jBusy = false → s.restart.inWindow = false → s.boot.powered = true →
    ∃ t, exec .journalWriteBack s = .next t ∧ t.boot.jBusy = true ∧ t.boot.jWant = false ∧
      fget t Reg.BOOT_JRNL Reg.BOOT_JRNL_BUSY = 1 ∧ fget t Reg.CAL_STATUS Reg.CAL_STATUS_JOURNAL_DIRTY = 0 ∧
      (∀ a, a < jrnlAt (jrnlNext s) ∨ jrnlAt (jrnlNext s) + 0x80000 ≤ a → flashByte t a = flashByte s a) ∧
      (∀ a < 64, flashByte t (jrnlAt (jrnlNext s) + a) = 0xFF) ∧ t.mem = s.mem) ∧
  (∀ s : State, s.boot.jBusy = false → ∀ ok, ∃ t, exec (.journalWriteComplete ok) s = .next t ∧ NoEffect s t) ∧
  (∀ s : State, s.boot.opAt = none → ∃ t, exec .flashOperationComplete s = .next t ∧ NoEffect s t) ∧
  (∀ s : State, jrnlDue s = false ∨ s.boot.jBusy = true ∨ s.restart.inWindow = true ∨ s.boot.powered = false → ∃ t, exec .journalWriteBack s = .next t ∧ NoEffect s t) ∧
  (∀ (ok : Bool) (s : State), s.boot.jBusy = true →
    ∃ t, exec (.journalWriteComplete ok) s = .next t ∧ t.boot.jBusy = false ∧ fget t Reg.BOOT_JRNL Reg.BOOT_JRNL_BUSY = 0 ∧
      (ok = true → fget t Reg.BOOT_JRNL Reg.BOOT_JRNL_VALID = 1 ∧ fget t Reg.BOOT_JRNL Reg.BOOT_JRNL_REGION = jrnlNext s ∧
        t.boot.jSeq = s.boot.jSeq + 1 ∧ t.boot.jLast = some s.up) ∧
      (ok = false → t.boot.flash = s.boot.flash ∧ fget t Reg.CAL_STATUS Reg.CAL_STATUS_JOURNAL_DIRTY = 1 ∧
        (tfind t.flt.slots srcBoot).isSome = true)) ∧
  (∀ (s : State) (page : Nat), s.boot.opAt = some (0, page) →
    ∃ t, exec .flashOperationComplete s = .next t ∧ fget t Reg.BOOT_PROG Reg.BOOT_PROG_BUSY = 0 ∧ t.boot = { s.boot with opAt := none } ∧
      (∀ k : Fin 64, (rget t (Reg.BOOT_PBUF k)).toNat = flashRd s (256 * page + 4 * k) 4)) ∧
  (∀ (s : State) (page : Nat), s.boot.opAt = some (1, page) →
    ∃ t, exec .flashOperationComplete s = .next t ∧ OnlyRegs [Reg.BOOT_PROG] s { t with boot := s.boot } ∧
      (∀ a, a / 256 ≠ page → flashByte t a = flashByte s a) ∧
      (∀ a, a / 256 = page → flashByte t a =
        flashByte s a &&& (rget s (Reg.BOOT_PBUF (a % 256 / 4))).toNat / 256 ^ (a % 4) % 256)) ∧
  (∀ (s : State) (op page : Nat), s.boot.opAt = some (op, page) → 2 ≤ op →
    ∃ t, exec .flashOperationComplete s = .next t ∧ OnlyRegs [Reg.BOOT_PROG] s { t with boot := s.boot } ∧
      (∀ a, flashByte t a = if a / 65536 = page / 256 then 0xFF else flashByte s a))

/-- R355, R395, R419: the test port and the clocks: EXTEST clamps the heaters and takes the device out of service, every other instruction returns
the pins, IDCODE and BYPASS shift out their words; a lost lock clears its bit and reports once, a found one sets it; a double-bit error opens the
slot of the memory's source, or merges into the open one. (The model's choices in it: notes/assumptions/73.) -/
def Obligations.TestPortAndClocksAct : Prop :=
  (∀ s : State, ∃ t w, exec .extest s = .next t ∧ t.pins.extest = true ∧ t.pins.pwmLow = true ∧ t.pins.clamp = true ∧
    fget t Reg.BEL_STATUS Reg.BEL_STATUS_IN_SERVICE = 0 ∧ t.out = s.out ++ [.tdo w] ∧ regsBut [Reg.BEL_STATUS] s t) ∧
  (∀ s : State, ∃ t w, exec .samplePreload s = .next t ∧ t.pins.extest = false ∧ t.out = s.out ++ [.tdo w] ∧
    regsBut [Reg.BEL_STATUS] s t) ∧
  (∀ s : State, ∃ t, exec .bypass s = .next t ∧ t.pins.extest = false ∧ t.out = s.out ++ [.tdo 0] ∧ regsBut [Reg.BEL_STATUS] s t) ∧
  (∀ s : State, ∃ t, exec .idcode s = .next t ∧ t.pins.extest = false ∧ t.out = s.out ++ [.tdo 0x16512C4F] ∧
    regsBut [Reg.BEL_STATUS] s t) ∧
  (∀ s : State, ∃ t, exec .tapReset s = .next t ∧ t.pins.extest = false ∧ t.out = s.out ∧
    (s.pins.extest = true → s.boot.powered = true → t.pins.pwmLow = false ∧ t.pins.clamp = false) ∧
    (s.pins.extest = false → NoEffect s t)) ∧
  (∀ (i : Fin 4) (s : State), rbit s Reg.GLB_CLK (clkBit i) = true →
    ∃ t, exec (.pllUnlock i) s = .next t ∧ rbit t Reg.GLB_CLK (clkBit i) = false ∧ (tfind t.flt.slots srcClk).isSome = true ∧
      (∀ j : Fin 4, j ≠ i → rbit t Reg.GLB_CLK (clkBit j) = rbit s Reg.GLB_CLK (clkBit j)) ∧ t.bel = s.bel) ∧
  (∀ (i : Fin 4) (s : State), rbit s Reg.GLB_CLK (clkBit i) = false → ∃ t, exec (.pllUnlock i) s = .next t ∧ NoEffect s t) ∧
  (∀ (i : Fin 4) (s : State), ∃ t, exec (.pllLock i) s = .next t ∧ rbit t Reg.GLB_CLK (clkBit i) = true ∧
    OnlyRegs [Reg.GLB_CLK] s t) ∧
  (∀ (a : BitVec 24) (inSup : Bool) (s : State), tfind s.flt.slots (eccSource a.toNat inSup) = none →
    ∃ t, exec (.ecc2 a inSup) s = .next t ∧
      tfind t.flt.slots (eccSource a.toNat inSup) = some (Slot.mk 0x70 a.toNat 0 s.now 0 0 false) ∧ t.regs = s.regs ∧ t.mem = s.mem) ∧
  (∀ (a : BitVec 24) (inSup : Bool) (s : State) (x : Slot), tfind s.flt.slots (eccSource a.toNat inSup) = some x →
    ∃ t, exec (.ecc2 a inSup) s = .next t ∧
      tfind t.flt.slots (eccSource a.toNat inSup) = some (mergeSlot x 0x70 a.toNat 0 s.now false) ∧ Counted s t (Reg.FLT_CNT 1) 1 ∧
      t.mem = s.mem)

/-- R305: until power-on reset has loaded the configuration space, a configuration request is answered with retry status. -/
def Obligations.ConfigurationRetriesUntilBoot : Prop :=
  ∀ (p : Fin 2) (wr : Bool) (reg : BitVec 12) (v : BitVec 32) (be : BitVec 4) (s : State), s.boot.powered = false →
    ∃ t, exec (.configurationRequest p wr reg v be) s = .next t ∧ t.out = s.out ++ [.config p true 0] ∧ t.regs = s.regs ∧ t.hif = s.hif

/-- R371: the neighbours of a die sensor are the sensors orthogonally adjacent on its 8 × 8 grid, 2 to 4 of them; those of a PIC thermometer are
the used tiles of its adjacency list, filled up to two with the used tiles nearest in number, the lower first. -/
def Obligations.SensorsHaveTheirNeighbours : Prop :=
  (∀ n < 64, (∀ j, j ∈ dieNeighbours n ↔ j < 64 ∧ ((j / 8 = n / 8 ∧ (j = n + 1 ∨ n = j + 1)) ∨ (j % 8 = n % 8 ∧ (j = n + 8 ∨ n = j + 8)))) ∧
    2 ≤ (dieNeighbours n).length ∧ (dieNeighbours n).length ≤ 4) ∧
  (∀ (s : State) (T : Fin 96) (A U : Nat → Prop) (far : Nat → Nat), (∀ u, U u ↔ u < 96 ∧ u ≠ T.val ∧ tileUsed (fm s) u = true) →
    (∀ u, A u ↔ U u ∧ u ∈ tileAdj (fm s) T) → (∀ u, far u = (u - T.val) + (T.val - u)) →
    (∀ u, A u → 64 + u ∈ picNeighbours s T) ∧ (∀ x ∈ picNeighbours s T, ∃ u, x = 64 + u ∧ U u) ∧ (picNeighbours s T).Nodup ∧
    ((∃ u v, u ≠ v ∧ A u ∧ A v) → ∀ x ∈ picNeighbours s T, A (x - 64)) ∧
    ((∃ u v, u ≠ v ∧ U u ∧ U v) → 2 ≤ (picNeighbours s T).length) ∧
    (¬ (∃ u v, u ≠ v ∧ A u ∧ A v) → (picNeighbours s T).length ≤ 2) ∧
    (∀ u v, 64 + u ∈ picNeighbours s T → ¬ A u → U v → 64 + v ∉ picNeighbours s T → far u < far v ∨ (far u = far v ∧ u < v)))

/-- R273: a read of TMU_NOW0 captures seconds, nanoseconds and fraction of device time as it stands, uncorrected, into the set of its requester
and no other's, and returns the nanoseconds, of them the bytes that its byte enables select; reads of TMU_NOW1 to 3 return that requester's last capture. -/
def Obligations.TimeReadsCaptureForTheirRequester : Prop :=
  (∀ (m : Master) (be : BitVec 4) (s : State), romBlocks s m (Reg.TMU_NOW 0) = false →
    ∃ t, exec (.tmuNowCapture m be) s = .next t ∧ t.out = s.out ++ [.data m (selected (BitVec.ofNat 32 (nsOf s.now)) be)] ∧
      (be = 15 → selected (BitVec.ofNat 32 (nsOf s.now)) be = BitVec.ofNat 32 (nsOf s.now)) ∧
      tget t.tmu.caps 0 (4 * capOf m) = nsOf s.now ∧ tget t.tmu.caps 0 (4 * capOf m + 1) = fracOf s.now ∧
      tget t.tmu.caps 0 (4 * capOf m + 2) + 2 ^ 32 * tget t.tmu.caps 0 (4 * capOf m + 3) = secOf s.now % 2 ^ 64 ∧
      (∀ j, j / 4 ≠ capOf m → tget t.tmu.caps 0 j = tget s.tmu.caps 0 j) ∧ t.now = s.now ∧ t.regs = s.regs) ∧
  (∀ (m : Master) (k : Fin 4) (s : State), k ≠ 0 → romBlocks s m (Reg.TMU_NOW k) = false →
    busRead s m (Reg.TMU_NOW k) = (s, BitVec.ofNat 32 (tget s.tmu.caps 0 (4 * capOf m + k)))) ∧
  (∀ m m' : Master, m ≠ .leg → m' ≠ .leg → (capOf m = capOf m' ↔ m = m'))
end

