-- ==== Sys2Proof/Laws/Tables.lean ====
section
/-! SUPPORT. Laws of sparse tables: reading after writing, and the canonical form. -/

namespace Sys2Proof.Machine

variable {α : Type}

/-! ## Reading -/

theorem tfind_tins (t : Tab α) (i j : Nat) (x : α) : tfind (tins t i x) j = if j = i then some x else tfind t j := by
  induction t with
  | nil =>
    by_cases h : i = j
    · subst h; simp [tins, tfind]
    · simp [tins, tfind, h, Ne.symm h]
  | cons e r ih =>
    obtain ⟨k, v⟩ := e
    by_cases h1 : i < k
    · by_cases h : i = j
      · subst h; simp [tins, tfind, h1]
      · simp [tins, tfind, h1, h, Ne.symm h]
    · by_cases h2 : i = k
      · subst h2
        by_cases h : i = j
        · subst h; simp [tins, tfind]
        · simp [tins, tfind, h, Ne.symm h]
      · by_cases h : k = j
        · subst h; simp [tins, tfind, h1, h2, Ne.symm h2]
        · simp [tins, tfind, h1, h2, h, ih]

theorem tfind_tdel (t : Tab α) (i j : Nat) : tfind (tdel t i) j = if j = i then none else tfind t j := by
  induction t with
  | nil => simp [tdel, tfind]
  | cons e r ih =>
    obtain ⟨k, v⟩ := e
    simp only [tdel] at ih ⊢
    by_cases h : k = i
    · subst h
      by_cases hj : j = k
      · subst hj; simpa using ih
      · simp [tfind, ih, hj, Ne.symm hj]
    · by_cases hk : k = j
      · subst hk; simp [tfind, h]
      · simp [tfind, h, hk, ih]

/-- Reading a key after a write to a table: the written value there, the old value elsewhere. -/
theorem tget_tset [DecidableEq α] (t : Tab α) (d : α) (i j : Nat) (x : α) :
    tget (tset t d i x) d j = if j = i then x else tget t d j := by
  unfold tset tget
  split
  · rename_i h; subst h; rw [tfind_tdel]; split <;> rfl
  · rw [tfind_tins]; split <;> rfl

theorem tget_tins (t : Tab α) (d : α) (i j : Nat) (x : α) : tget (tins t i x) d j = if j = i then x else tget t d j := by
  unfold tget; rw [tfind_tins]; split <;> rfl

theorem tget_tset_ne [DecidableEq α] (t : Tab α) (d e : α) (i j : Nat) (x : α) (h : j ≠ i) :
    tget (tset t d i x) e j = tget t e j := by
  unfold tset tget
  split
  · rw [tfind_tdel, if_neg h]
  · rw [tfind_tins, if_neg h]

theorem tfind_tset_same [DecidableEq α] (t : Tab α) (d : α) (i : Nat) (x : α) :
    tfind (tset t d i x) i = if x = d then none else some x := by
  unfold tset; split
  · rw [tfind_tdel, if_pos rfl]
  · rw [tfind_tins, if_pos rfl]

theorem tfind_tset_ne [DecidableEq α] (t : Tab α) (d : α) (i j : Nat) (x : α) (h : j ≠ i) :
    tfind (tset t d i x) j = tfind t j := by
  unfold tset; split
  · rw [tfind_tdel, if_neg h]
  · rw [tfind_tins, if_neg h]

/-! ## The canonical form -/

theorem tsorted_mono {lo lo' : Option Nat} {t : Tab α} (h : tsorted lo t = true) (hl : ∀ j, lo' = some j → ∃ i, lo = some i ∧ j ≤ i) :
    tsorted lo' t = true := by
  cases t with
  | nil => cases lo' <;> rfl
  | cons e r =>
    cases lo' with
    | none =>
      cases lo with
      | none => exact h
      | some i => simp only [tsorted, Bool.and_eq_true] at h ⊢; exact h.2
    | some j =>
      obtain ⟨i, rfl, hij⟩ := hl j rfl
      simp only [tsorted, Bool.and_eq_true, decide_eq_true_eq] at h ⊢
      exact ⟨by omega, h.2⟩

theorem tsorted_cons (lo : Option Nat) (k : Nat) (v : α) (r : Tab α) :
    tsorted lo ((k, v) :: r) = true ↔ (∀ j, lo = some j → j < k) ∧ tsorted (some k) r = true := by
  cases lo <;> simp [tsorted]

theorem tsorted_filter (p : Nat × α → Bool) (t : Tab α) : ∀ lo, tsorted lo t = true → tsorted lo (t.filter p) = true := by
  induction t with
  | nil => intro lo h; cases lo <;> rfl
  | cons e r ih =>
    obtain ⟨k, v⟩ := e
    intro lo h
    rw [tsorted_cons] at h
    by_cases hp : p (k, v) = true
    · rw [List.filter_cons_of_pos hp, tsorted_cons]; exact ⟨h.1, ih _ h.2⟩
    · rw [List.filter_cons_of_neg hp]
      exact tsorted_mono (ih _ h.2) (fun j hj => ⟨k, rfl, by have := h.1 j hj; omega⟩)

theorem tsorted_tins (i : Nat) (x : α) (t : Tab α) :
    ∀ lo, tsorted lo t = true → (∀ j, lo = some j → j < i) → tsorted lo (tins t i x) = true := by
  induction t with
  | nil => intro lo _ hl; simp only [tins]; rw [tsorted_cons]; exact ⟨hl, rfl⟩
  | cons e r ih =>
    obtain ⟨k, v⟩ := e
    intro lo h hl
    rw [tsorted_cons] at h
    simp only [tins]
    split
    · rename_i h1
      rw [tsorted_cons, tsorted_cons]
      exact ⟨hl, fun j hj => by cases hj; exact h1, h.2⟩
    · rename_i h1
      split
      · rename_i h2; subst h2; rw [tsorted_cons]; exact h
      · rename_i h2
        rw [tsorted_cons]
        exact ⟨h.1, ih _ h.2 (fun j hj => by cases hj; omega)⟩

theorem mem_tins {t : Tab α} {i : Nat} {x : α} {e : Nat × α} (h : e ∈ tins t i x) : e = (i, x) ∨ e ∈ t := by
  induction t with
  | nil => simp [tins] at h; exact Or.inl h
  | cons a r ih =>
    obtain ⟨k, v⟩ := a
    simp only [tins] at h
    split at h
    · simp at h; rcases h with h | h | h
      · exact Or.inl h
      · right; simp [h]
      · right; simp [h]
    · split at h
      · simp at h; rcases h with h | h
        · exact Or.inl h
        · right; simp [h]
      · simp at h; rcases h with h | h
        · right; simp [h]
        · rcases ih h with h | h
          · exact Or.inl h
          · right; simp [h]

variable [DecidableEq α]

theorem twf_nil (d : Nat → α) : twf d [] = true := rfl

/-- Removing entries keeps the canonical form. -/
theorem twf_filter {d : Nat → α} {t : Tab α} (p : Nat × α → Bool) (h : twf d t = true) : twf d (t.filter p) = true := by
  simp only [twf, Bool.and_eq_true, List.all_eq_true] at h ⊢
  exact ⟨tsorted_filter p t _ h.1, fun e he => h.2 e (List.mem_filter.mp he).1⟩

/-- A write keeps the canonical form. -/
theorem twf_tset {d : Nat → α} {t : Tab α} (i : Nat) (x : α) (h : twf d t = true) : twf d (tset t (d i) i x) = true := by
  unfold tset
  split
  · exact twf_filter _ h
  · rename_i hx
    simp only [twf, Bool.and_eq_true, List.all_eq_true] at h ⊢
    refine ⟨tsorted_tins i x t _ h.1 (fun j hj => by cases hj), fun e he => ?_⟩
    rcases mem_tins he with rfl | he
    · simp [hx]
    · exact h.2 e he

end Sys2Proof.Machine
end

