-- ==== Sys2Proof/Laws/Registers.lean ====
section
/-! SUPPORT. Laws of registers and their fields: what reads as written, and what a write leaves. -/

namespace Sys2Proof.Machine

/-! ## Bits and fields of a word -/

theorem testBit_bits (n lo len i : Nat) : (bits n lo len).testBit i = (decide (i < len) && n.testBit (lo + i)) := by
  simp [bits, Nat.testBit_mod_two_pow, Nat.testBit_shiftRight]

theorem bits_lt (n lo len : Nat) : bits n lo len < 2 ^ len := Nat.mod_lt _ (Nat.two_pow_pos _)

theorem testBit_getF (w : BitVec 32) (f : Fld) (i : Nat) :
    (getF w f).testBit i = (decide (i < f.hi + 1 - f.lo) && w.getLsbD (f.lo + i)) := by
  rw [getF, testBit_bits]; rfl

theorem getLsbD_maskF (f : Fld) (j : Nat) :
    (maskF f).getLsbD j = (decide (j < 32) && decide (f.lo ≤ j) && decide (j < f.lo + (f.hi + 1 - f.lo))) := by
  simp only [maskF, BitVec.getLsbD_ofNat, Nat.testBit_shiftLeft, Nat.testBit_two_pow_sub_one]
  by_cases h : f.lo ≤ j
  · have : (j - f.lo < f.hi + 1 - f.lo) ↔ (j < f.lo + (f.hi + 1 - f.lo)) := by omega
    simp [h, this]
  · simp [h]

theorem getLsbD_setF (w : BitVec 32) (f : Fld) (v j : Nat) :
    (setF w f v).getLsbD j = if f.lo ≤ j ∧ j < f.lo + (f.hi + 1 - f.lo) then decide (j < 32) && v.testBit (j - f.lo) else w.getLsbD j := by
  simp only [setF, BitVec.getLsbD_or, BitVec.getLsbD_and, BitVec.getLsbD_not, getLsbD_maskF, BitVec.getLsbD_ofNat, Nat.testBit_shiftLeft,
    Nat.testBit_mod_two_pow]
  by_cases h1 : f.lo ≤ j
  · by_cases h2 : j < f.lo + (f.hi + 1 - f.lo)
    · have : j - f.lo < f.hi + 1 - f.lo := by omega
      by_cases h3 : j < 32 <;> simp [h1, h2, h3, this]
    · have : ¬ (j - f.lo < f.hi + 1 - f.lo) := by omega
      by_cases h3 : j < 32
      · simp [h1, h2, h3, this]
      · simp [h1, h2, h3, this, BitVec.getLsbD_of_ge w j (by omega)]
  · by_cases h3 : j < 32
    · simp [h1, h3]
    · simp [h1, h3, BitVec.getLsbD_of_ge w j (by omega)]

/-- R11: a field reads what was put into it, cut to its width. -/
theorem getF_setF (w : BitVec 32) (f : Fld) (v : Nat) (h : f.hi < 32) : getF (setF w f v) f = v % 2 ^ (f.hi + 1 - f.lo) := by
  apply Nat.eq_of_testBit_eq
  intro i
  rw [testBit_getF, Nat.testBit_mod_two_pow]
  by_cases hi : i < f.hi + 1 - f.lo
  · rw [getLsbD_setF, if_pos ⟨by omega, by omega⟩]
    have : f.lo + i < 32 := by omega
    simp [hi, this]
  · simp [hi]

/-- R11: a field is unchanged by a write to a field that does not meet it. -/
theorem getF_setF_ne (w : BitVec 32) (f g : Fld) (v : Nat) (h : f.hi < g.lo ∨ g.hi < f.lo) : getF (setF w f v) g = getF w g := by
  apply Nat.eq_of_testBit_eq
  intro i
  rw [testBit_getF, testBit_getF]
  by_cases hi : i < g.hi + 1 - g.lo
  · rw [getLsbD_setF, if_neg (by omega)]
  · simp [hi]

theorem getF_lt (w : BitVec 32) (f : Fld) : getF w f < 2 ^ (f.hi + 1 - f.lo) := bits_lt _ _ _

theorem testBit_putBit (n i j : Nat) (b : Bool) : (putBit n i b).testBit j = if j = i then b else n.testBit j := by
  unfold putBit
  split
  · rename_i h
    by_cases hj : j = i
    · subst hj; simpa using h
    · simp [hj]
  · rename_i h
    rw [Nat.testBit_xor, Nat.testBit_two_pow]
    by_cases hj : j = i
    · subst hj; cases b <;> simp_all
    · simp [hj, Ne.symm hj]

/-! ## Registers of the state -/

/-- A register reads what was written to it; another register is unchanged. -/
theorem rget_rset (s : State) (a b : Nat) (w : BitVec 32) : rget (rset s a w) b = if b = a then w else rget s b := by
  unfold rget rset
  by_cases h : b = a
  · subst h
    rw [if_pos rfl]
    show (tfind (tset s.regs (resetWord b) b w) b).getD (resetWord b) = w
    rw [tfind_tset_same]; split
    · rename_i h; rw [h]; rfl
    · rfl
  · rw [if_neg h]
    show (tfind (tset s.regs (resetWord a) a w) b).getD (resetWord b) = _
    rw [tfind_tset_ne _ _ _ _ _ h]

@[simp] theorem rget_rset_same (s : State) (a : Nat) (w : BitVec 32) : rget (rset s a w) a = w := by rw [rget_rset, if_pos rfl]

theorem rget_rset_ne (s : State) (a b : Nat) (w : BitVec 32) (h : b ≠ a) : rget (rset s a w) b = rget s b := by rw [rget_rset, if_neg h]

theorem rget_fset_same (s : State) (a : Nat) (f : Fld) (v : Nat) : rget (fset s a f v) a = setF (rget s a) f v := rget_rset_same _ _ _

theorem rget_fset_ne (s : State) (a b : Nat) (f : Fld) (v : Nat) (h : b ≠ a) : rget (fset s a f v) b = rget s b := rget_rset_ne _ _ _ _ h

theorem fget_fset_same (s : State) (a : Nat) (f : Fld) (v : Nat) (h : f.hi < 32) : fget (fset s a f v) a f = v % 2 ^ (f.hi + 1 - f.lo) := by
  rw [fget, rget_fset_same, getF_setF _ _ _ h]

theorem fget_fset_field (s : State) (a : Nat) (f g : Fld) (v : Nat) (h : f.hi < g.lo ∨ g.hi < f.lo) :
    fget (fset s a f v) a g = fget s a g := by
  rw [fget, rget_fset_same, getF_setF_ne _ _ _ _ h]; rfl

theorem fget_fset_reg (s : State) (a b : Nat) (f g : Fld) (v : Nat) (h : b ≠ a) : fget (fset s a f v) b g = fget s b g := by
  rw [fget, rget_fset_ne _ _ _ _ _ h]; rfl

theorem rget_bumpN_same (s : State) (a n : Nat) : (rget (bumpN s a n) a).toNat = min ((rget s a).toNat + n) 0xFFFFFFFF := by
  rw [bumpN, rget_rset_same, BitVec.toNat_ofNat]; omega

/-- R366: a counter advances by one and stays at its largest value. -/
theorem rget_bump_same (s : State) (a : Nat) : (rget (bump s a) a).toNat = min ((rget s a).toNat + 1) 0xFFFFFFFF := rget_bumpN_same _ _ _

theorem rget_bump_ne (s : State) (a b : Nat) (h : b ≠ a) : rget (bump s a) b = rget s b := rget_rset_ne _ _ _ _ h

theorem rget_rput_ne (s : State) (a b i : Nat) (v : Bool) (h : b ≠ a) : rget (rput s a i v) b = rget s b := rget_rset_ne _ _ _ _ h

theorem rbit_rput (s : State) (a i j : Nat) (v : Bool) (hj : j < 32) :
    rbit (rput s a i v) a j = if j = i then v else rbit s a j := by
  unfold rbit rput
  rw [rget_rset_same, BitVec.toNat_ofNat, bit, Nat.testBit_mod_two_pow, testBit_putBit]
  simp [hj, bit]

/-- Counters cleared read 0; every other register is unchanged. -/
theorem rget_clearRegs (n : Nat) : ∀ (s : State) (a b : Nat),
    rget (clearRegs s a n) b = if a ≤ b ∧ b < a + 4 * n ∧ (b - a) % 4 = 0 then 0 else rget s b := by
  induction n with
  | zero => intro s a b; rw [clearRegs, if_neg (by omega)]
  | succ n ih =>
    intro s a b
    rw [clearRegs, ih]
    by_cases h : b = a
    · subst h; rw [if_neg (by omega), if_pos (by omega), rget_rset_same]
    · by_cases h2 : a + 4 ≤ b ∧ b < a + 4 + 4 * n ∧ (b - (a + 4)) % 4 = 0
      · rw [if_pos h2, if_pos (by omega)]
      · rw [if_neg h2, rget_rset_ne _ _ _ _ h, if_neg (by omega)]

/-! ## A command's last act -/

/-- What `settleOuts` leaves: everything but the queue and the two level outputs. -/
theorem rget_settle (s t : State) (a : Nat) : rget (settleOuts s t) a = rget t a := rfl
theorem fget_settle (s t : State) (a : Nat) (f : Fld) : fget (settleOuts s t) a f = fget t a f := rfl

end Sys2Proof.Machine
end

