-- ==== Sys2Proof/Laws/State.lean ====
section
/-! SUPPORT. What each shared operation leaves of the state: one law per operation and field. -/

namespace Sys2Proof.Machine

/-! ## rset -/

@[simp] theorem rset_pending (s : State) (a : Nat) (w : BitVec 32) : (rset s a w).pending = s.pending := rfl
@[simp] theorem rset_mem (s : State) (a : Nat) (w : BitVec 32) : (rset s a w).mem = s.mem := rfl
@[simp] theorem rset_slotMem (s : State) (a : Nat) (w : BitVec 32) : (rset s a w).slotMem = s.slotMem := rfl
@[simp] theorem rset_now (s : State) (a : Nat) (w : BitVec 32) : (rset s a w).now = s.now := rfl
@[simp] theorem rset_rho (s : State) (a : Nat) (w : BitVec 32) : (rset s a w).rho = s.rho := rfl
@[simp] theorem rset_up (s : State) (a : Nat) (w : BitVec 32) : (rset s a w).up = s.up := rfl
@[simp] theorem rset_draws (s : State) (a : Nat) (w : BitVec 32) : (rset s a w).draws = s.draws := rfl
@[simp] theorem rset_out (s : State) (a : Nat) (w : BitVec 32) : (rset s a w).out = s.out := rfl
@[simp] theorem rset_pins (s : State) (a : Nat) (w : BitVec 32) : (rset s a w).pins = s.pins := rfl
@[simp] theorem rset_flt (s : State) (a : Nat) (w : BitVec 32) : (rset s a w).flt = s.flt := rfl
@[simp] theorem rset_hif (s : State) (a : Nat) (w : BitVec 32) : (rset s a w).hif = s.hif := rfl
@[simp] theorem rset_dual (s : State) (a : Nat) (w : BitVec 32) : (rset s a w).dual = s.dual := rfl
@[simp] theorem rset_spi (s : State) (a : Nat) (w : BitVec 32) : (rset s a w).spi = s.spi := rfl
@[simp] theorem rset_mnt (s : State) (a : Nat) (w : BitVec 32) : (rset s a w).mnt = s.mnt := rfl
@[simp] theorem rset_bel (s : State) (a : Nat) (w : BitVec 32) : (rset s a w).bel = s.bel := rfl
@[simp] theorem rset_thm (s : State) (a : Nat) (w : BitVec 32) : (rset s a w).thm = s.thm := rfl
@[simp] theorem rset_boot (s : State) (a : Nat) (w : BitVec 32) : (rset s a w).boot = s.boot := rfl
@[simp] theorem rset_restart (s : State) (a : Nat) (w : BitVec 32) : (rset s a w).restart = s.restart := rfl
@[simp] theorem rset_pwr (s : State) (a : Nat) (w : BitVec 32) : (rset s a w).pwr = s.pwr := rfl
@[simp] theorem rset_drv (s : State) (a : Nat) (w : BitVec 32) : (rset s a w).drv = s.drv := rfl
@[simp] theorem rset_mon (s : State) (a : Nat) (w : BitVec 32) : (rset s a w).mon = s.mon := rfl
@[simp] theorem rset_trk (s : State) (a : Nat) (w : BitVec 32) : (rset s a w).trk = s.trk := rfl
@[simp] theorem rset_hold (s : State) (a : Nat) (w : BitVec 32) : (rset s a w).hold = s.hold := rfl
@[simp] theorem rset_cal (s : State) (a : Nat) (w : BitVec 32) : (rset s a w).cal = s.cal := rfl
@[simp] theorem rset_tmu (s : State) (a : Nat) (w : BitVec 32) : (rset s a w).tmu = s.tmu := rfl
@[simp] theorem rset_eth (s : State) (a : Nat) (w : BitVec 32) : (rset s a w).eth = s.eth := rfl

/-! ## fset -/

@[simp] theorem fset_pending (s : State) (a : Nat) (f : Fld) (v : Nat) : (fset s a f v).pending = s.pending := rfl
@[simp] theorem fset_mem (s : State) (a : Nat) (f : Fld) (v : Nat) : (fset s a f v).mem = s.mem := rfl
@[simp] theorem fset_slotMem (s : State) (a : Nat) (f : Fld) (v : Nat) : (fset s a f v).slotMem = s.slotMem := rfl
@[simp] theorem fset_now (s : State) (a : Nat) (f : Fld) (v : Nat) : (fset s a f v).now = s.now := rfl
@[simp] theorem fset_rho (s : State) (a : Nat) (f : Fld) (v : Nat) : (fset s a f v).rho = s.rho := rfl
@[simp] theorem fset_up (s : State) (a : Nat) (f : Fld) (v : Nat) : (fset s a f v).up = s.up := rfl
@[simp] theorem fset_draws (s : State) (a : Nat) (f : Fld) (v : Nat) : (fset s a f v).draws = s.draws := rfl
@[simp] theorem fset_out (s : State) (a : Nat) (f : Fld) (v : Nat) : (fset s a f v).out = s.out := rfl
@[simp] theorem fset_pins (s : State) (a : Nat) (f : Fld) (v : Nat) : (fset s a f v).pins = s.pins := rfl
@[simp] theorem fset_flt (s : State) (a : Nat) (f : Fld) (v : Nat) : (fset s a f v).flt = s.flt := rfl
@[simp] theorem fset_hif (s : State) (a : Nat) (f : Fld) (v : Nat) : (fset s a f v).hif = s.hif := rfl
@[simp] theorem fset_dual (s : State) (a : Nat) (f : Fld) (v : Nat) : (fset s a f v).dual = s.dual := rfl
@[simp] theorem fset_spi (s : State) (a : Nat) (f : Fld) (v : Nat) : (fset s a f v).spi = s.spi := rfl
@[simp] theorem fset_mnt (s : State) (a : Nat) (f : Fld) (v : Nat) : (fset s a f v).mnt = s.mnt := rfl
@[simp] theorem fset_bel (s : State) (a : Nat) (f : Fld) (v : Nat) : (fset s a f v).bel = s.bel := rfl
@[simp] theorem fset_thm (s : State) (a : Nat) (f : Fld) (v : Nat) : (fset s a f v).thm = s.thm := rfl
@[simp] theorem fset_boot (s : State) (a : Nat) (f : Fld) (v : Nat) : (fset s a f v).boot = s.boot := rfl
@[simp] theorem fset_restart (s : State) (a : Nat) (f : Fld) (v : Nat) : (fset s a f v).restart = s.restart := rfl
@[simp] theorem fset_pwr (s : State) (a : Nat) (f : Fld) (v : Nat) : (fset s a f v).pwr = s.pwr := rfl
@[simp] theorem fset_drv (s : State) (a : Nat) (f : Fld) (v : Nat) : (fset s a f v).drv = s.drv := rfl
@[simp] theorem fset_mon (s : State) (a : Nat) (f : Fld) (v : Nat) : (fset s a f v).mon = s.mon := rfl
@[simp] theorem fset_trk (s : State) (a : Nat) (f : Fld) (v : Nat) : (fset s a f v).trk = s.trk := rfl
@[simp] theorem fset_hold (s : State) (a : Nat) (f : Fld) (v : Nat) : (fset s a f v).hold = s.hold := rfl
@[simp] theorem fset_cal (s : State) (a : Nat) (f : Fld) (v : Nat) : (fset s a f v).cal = s.cal := rfl
@[simp] theorem fset_tmu (s : State) (a : Nat) (f : Fld) (v : Nat) : (fset s a f v).tmu = s.tmu := rfl
@[simp] theorem fset_eth (s : State) (a : Nat) (f : Fld) (v : Nat) : (fset s a f v).eth = s.eth := rfl

/-! ## rput -/

@[simp] theorem rput_pending (s : State) (a i : Nat) (b : Bool) : (rput s a i b).pending = s.pending := rfl
@[simp] theorem rput_mem (s : State) (a i : Nat) (b : Bool) : (rput s a i b).mem = s.mem := rfl
@[simp] theorem rput_slotMem (s : State) (a i : Nat) (b : Bool) : (rput s a i b).slotMem = s.slotMem := rfl
@[simp] theorem rput_now (s : State) (a i : Nat) (b : Bool) : (rput s a i b).now = s.now := rfl
@[simp] theorem rput_rho (s : State) (a i : Nat) (b : Bool) : (rput s a i b).rho = s.rho := rfl
@[simp] theorem rput_up (s : State) (a i : Nat) (b : Bool) : (rput s a i b).up = s.up := rfl
@[simp] theorem rput_draws (s : State) (a i : Nat) (b : Bool) : (rput s a i b).draws = s.draws := rfl
@[simp] theorem rput_out (s : State) (a i : Nat) (b : Bool) : (rput s a i b).out = s.out := rfl
@[simp] theorem rput_pins (s : State) (a i : Nat) (b : Bool) : (rput s a i b).pins = s.pins := rfl
@[simp] theorem rput_flt (s : State) (a i : Nat) (b : Bool) : (rput s a i b).flt = s.flt := rfl
@[simp] theorem rput_hif (s : State) (a i : Nat) (b : Bool) : (rput s a i b).hif = s.hif := rfl
@[simp] theorem rput_dual (s : State) (a i : Nat) (b : Bool) : (rput s a i b).dual = s.dual := rfl
@[simp] theorem rput_spi (s : State) (a i : Nat) (b : Bool) : (rput s a i b).spi = s.spi := rfl
@[simp] theorem rput_mnt (s : State) (a i : Nat) (b : Bool) : (rput s a i b).mnt = s.mnt := rfl
@[simp] theorem rput_bel (s : State) (a i : Nat) (b : Bool) : (rput s a i b).bel = s.bel := rfl
@[simp] theorem rput_thm (s : State) (a i : Nat) (b : Bool) : (rput s a i b).thm = s.thm := rfl
@[simp] theorem rput_boot (s : State) (a i : Nat) (b : Bool) : (rput s a i b).boot = s.boot := rfl
@[simp] theorem rput_restart (s : State) (a i : Nat) (b : Bool) : (rput s a i b).restart = s.restart := rfl
@[simp] theorem rput_pwr (s : State) (a i : Nat) (b : Bool) : (rput s a i b).pwr = s.pwr := rfl
@[simp] theorem rput_drv (s : State) (a i : Nat) (b : Bool) : (rput s a i b).drv = s.drv := rfl
@[simp] theorem rput_mon (s : State) (a i : Nat) (b : Bool) : (rput s a i b).mon = s.mon := rfl
@[simp] theorem rput_trk (s : State) (a i : Nat) (b : Bool) : (rput s a i b).trk = s.trk := rfl
@[simp] theorem rput_hold (s : State) (a i : Nat) (b : Bool) : (rput s a i b).hold = s.hold := rfl
@[simp] theorem rput_cal (s : State) (a i : Nat) (b : Bool) : (rput s a i b).cal = s.cal := rfl
@[simp] theorem rput_tmu (s : State) (a i : Nat) (b : Bool) : (rput s a i b).tmu = s.tmu := rfl
@[simp] theorem rput_eth (s : State) (a i : Nat) (b : Bool) : (rput s a i b).eth = s.eth := rfl

/-! ## bumpN -/

@[simp] theorem bumpN_pending (s : State) (a n : Nat) : (bumpN s a n).pending = s.pending := rfl
@[simp] theorem bumpN_mem (s : State) (a n : Nat) : (bumpN s a n).mem = s.mem := rfl
@[simp] theorem bumpN_slotMem (s : State) (a n : Nat) : (bumpN s a n).slotMem = s.slotMem := rfl
@[simp] theorem bumpN_now (s : State) (a n : Nat) : (bumpN s a n).now = s.now := rfl
@[simp] theorem bumpN_rho (s : State) (a n : Nat) : (bumpN s a n).rho = s.rho := rfl
@[simp] theorem bumpN_up (s : State) (a n : Nat) : (bumpN s a n).up = s.up := rfl
@[simp] theorem bumpN_draws (s : State) (a n : Nat) : (bumpN s a n).draws = s.draws := rfl
@[simp] theorem bumpN_out (s : State) (a n : Nat) : (bumpN s a n).out = s.out := rfl
@[simp] theorem bumpN_pins (s : State) (a n : Nat) : (bumpN s a n).pins = s.pins := rfl
@[simp] theorem bumpN_flt (s : State) (a n : Nat) : (bumpN s a n).flt = s.flt := rfl
@[simp] theorem bumpN_hif (s : State) (a n : Nat) : (bumpN s a n).hif = s.hif := rfl
@[simp] theorem bumpN_dual (s : State) (a n : Nat) : (bumpN s a n).dual = s.dual := rfl
@[simp] theorem bumpN_spi (s : State) (a n : Nat) : (bumpN s a n).spi = s.spi := rfl
@[simp] theorem bumpN_mnt (s : State) (a n : Nat) : (bumpN s a n).mnt = s.mnt := rfl
@[simp] theorem bumpN_bel (s : State) (a n : Nat) : (bumpN s a n).bel = s.bel := rfl
@[simp] theorem bumpN_thm (s : State) (a n : Nat) : (bumpN s a n).thm = s.thm := rfl
@[simp] theorem bumpN_boot (s : State) (a n : Nat) : (bumpN s a n).boot = s.boot := rfl
@[simp] theorem bumpN_restart (s : State) (a n : Nat) : (bumpN s a n).restart = s.restart := rfl
@[simp] theorem bumpN_pwr (s : State) (a n : Nat) : (bumpN s a n).pwr = s.pwr := rfl
@[simp] theorem bumpN_drv (s : State) (a n : Nat) : (bumpN s a n).drv = s.drv := rfl
@[simp] theorem bumpN_mon (s : State) (a n : Nat) : (bumpN s a n).mon = s.mon := rfl
@[simp] theorem bumpN_trk (s : State) (a n : Nat) : (bumpN s a n).trk = s.trk := rfl
@[simp] theorem bumpN_hold (s : State) (a n : Nat) : (bumpN s a n).hold = s.hold := rfl
@[simp] theorem bumpN_cal (s : State) (a n : Nat) : (bumpN s a n).cal = s.cal := rfl
@[simp] theorem bumpN_tmu (s : State) (a n : Nat) : (bumpN s a n).tmu = s.tmu := rfl
@[simp] theorem bumpN_eth (s : State) (a n : Nat) : (bumpN s a n).eth = s.eth := rfl

/-! ## bump -/

@[simp] theorem bump_pending (s : State) (a : Nat) : (bump s a).pending = s.pending := rfl
@[simp] theorem bump_mem (s : State) (a : Nat) : (bump s a).mem = s.mem := rfl
@[simp] theorem bump_slotMem (s : State) (a : Nat) : (bump s a).slotMem = s.slotMem := rfl
@[simp] theorem bump_now (s : State) (a : Nat) : (bump s a).now = s.now := rfl
@[simp] theorem bump_rho (s : State) (a : Nat) : (bump s a).rho = s.rho := rfl
@[simp] theorem bump_up (s : State) (a : Nat) : (bump s a).up = s.up := rfl
@[simp] theorem bump_draws (s : State) (a : Nat) : (bump s a).draws = s.draws := rfl
@[simp] theorem bump_out (s : State) (a : Nat) : (bump s a).out = s.out := rfl
@[simp] theorem bump_pins (s : State) (a : Nat) : (bump s a).pins = s.pins := rfl
@[simp] theorem bump_flt (s : State) (a : Nat) : (bump s a).flt = s.flt := rfl
@[simp] theorem bump_hif (s : State) (a : Nat) : (bump s a).hif = s.hif := rfl
@[simp] theorem bump_dual (s : State) (a : Nat) : (bump s a).dual = s.dual := rfl
@[simp] theorem bump_spi (s : State) (a : Nat) : (bump s a).spi = s.spi := rfl
@[simp] theorem bump_mnt (s : State) (a : Nat) : (bump s a).mnt = s.mnt := rfl
@[simp] theorem bump_bel (s : State) (a : Nat) : (bump s a).bel = s.bel := rfl
@[simp] theorem bump_thm (s : State) (a : Nat) : (bump s a).thm = s.thm := rfl
@[simp] theorem bump_boot (s : State) (a : Nat) : (bump s a).boot = s.boot := rfl
@[simp] theorem bump_restart (s : State) (a : Nat) : (bump s a).restart = s.restart := rfl
@[simp] theorem bump_pwr (s : State) (a : Nat) : (bump s a).pwr = s.pwr := rfl
@[simp] theorem bump_drv (s : State) (a : Nat) : (bump s a).drv = s.drv := rfl
@[simp] theorem bump_mon (s : State) (a : Nat) : (bump s a).mon = s.mon := rfl
@[simp] theorem bump_trk (s : State) (a : Nat) : (bump s a).trk = s.trk := rfl
@[simp] theorem bump_hold (s : State) (a : Nat) : (bump s a).hold = s.hold := rfl
@[simp] theorem bump_cal (s : State) (a : Nat) : (bump s a).cal = s.cal := rfl
@[simp] theorem bump_tmu (s : State) (a : Nat) : (bump s a).tmu = s.tmu := rfl
@[simp] theorem bump_eth (s : State) (a : Nat) : (bump s a).eth = s.eth := rfl

/-! ## fbump -/

@[simp] theorem fbump_pending (s : State) (a : Nat) (f : Fld) : (fbump s a f).pending = s.pending := rfl
@[simp] theorem fbump_mem (s : State) (a : Nat) (f : Fld) : (fbump s a f).mem = s.mem := rfl
@[simp] theorem fbump_slotMem (s : State) (a : Nat) (f : Fld) : (fbump s a f).slotMem = s.slotMem := rfl
@[simp] theorem fbump_now (s : State) (a : Nat) (f : Fld) : (fbump s a f).now = s.now := rfl
@[simp] theorem fbump_rho (s : State) (a : Nat) (f : Fld) : (fbump s a f).rho = s.rho := rfl
@[simp] theorem fbump_up (s : State) (a : Nat) (f : Fld) : (fbump s a f).up = s.up := rfl
@[simp] theorem fbump_draws (s : State) (a : Nat) (f : Fld) : (fbump s a f).draws = s.draws := rfl
@[simp] theorem fbump_out (s : State) (a : Nat) (f : Fld) : (fbump s a f).out = s.out := rfl
@[simp] theorem fbump_pins (s : State) (a : Nat) (f : Fld) : (fbump s a f).pins = s.pins := rfl
@[simp] theorem fbump_flt (s : State) (a : Nat) (f : Fld) : (fbump s a f).flt = s.flt := rfl
@[simp] theorem fbump_hif (s : State) (a : Nat) (f : Fld) : (fbump s a f).hif = s.hif := rfl
@[simp] theorem fbump_dual (s : State) (a : Nat) (f : Fld) : (fbump s a f).dual = s.dual := rfl
@[simp] theorem fbump_spi (s : State) (a : Nat) (f : Fld) : (fbump s a f).spi = s.spi := rfl
@[simp] theorem fbump_mnt (s : State) (a : Nat) (f : Fld) : (fbump s a f).mnt = s.mnt := rfl
@[simp] theorem fbump_bel (s : State) (a : Nat) (f : Fld) : (fbump s a f).bel = s.bel := rfl
@[simp] theorem fbump_thm (s : State) (a : Nat) (f : Fld) : (fbump s a f).thm = s.thm := rfl
@[simp] theorem fbump_boot (s : State) (a : Nat) (f : Fld) : (fbump s a f).boot = s.boot := rfl
@[simp] theorem fbump_restart (s : State) (a : Nat) (f : Fld) : (fbump s a f).restart = s.restart := rfl
@[simp] theorem fbump_pwr (s : State) (a : Nat) (f : Fld) : (fbump s a f).pwr = s.pwr := rfl
@[simp] theorem fbump_drv (s : State) (a : Nat) (f : Fld) : (fbump s a f).drv = s.drv := rfl
@[simp] theorem fbump_mon (s : State) (a : Nat) (f : Fld) : (fbump s a f).mon = s.mon := rfl
@[simp] theorem fbump_trk (s : State) (a : Nat) (f : Fld) : (fbump s a f).trk = s.trk := rfl
@[simp] theorem fbump_hold (s : State) (a : Nat) (f : Fld) : (fbump s a f).hold = s.hold := rfl
@[simp] theorem fbump_cal (s : State) (a : Nat) (f : Fld) : (fbump s a f).cal = s.cal := rfl
@[simp] theorem fbump_tmu (s : State) (a : Nat) (f : Fld) : (fbump s a f).tmu = s.tmu := rfl
@[simp] theorem fbump_eth (s : State) (a : Nat) (f : Fld) : (fbump s a f).eth = s.eth := rfl

/-! ## clearRegs -/

@[simp] theorem clearRegs_pending (n : Nat) (s : State) (a : Nat) : (clearRegs s a n).pending = s.pending := by
  induction n generalizing s a with
  | zero => rfl
  | succ n ih => rw [clearRegs, ih, rset_pending]
@[simp] theorem clearRegs_mem (n : Nat) (s : State) (a : Nat) : (clearRegs s a n).mem = s.mem := by
  induction n generalizing s a with
  | zero => rfl
  | succ n ih => rw [clearRegs, ih, rset_mem]
@[simp] theorem clearRegs_slotMem (n : Nat) (s : State) (a : Nat) : (clearRegs s a n).slotMem = s.slotMem := by
  induction n generalizing s a with
  | zero => rfl
  | succ n ih => rw [clearRegs, ih, rset_slotMem]
@[simp] theorem clearRegs_now (n : Nat) (s : State) (a : Nat) : (clearRegs s a n).now = s.now := by
  induction n generalizing s a with
  | zero => rfl
  | succ n ih => rw [clearRegs, ih, rset_now]
@[simp] theorem clearRegs_rho (n : Nat) (s : State) (a : Nat) : (clearRegs s a n).rho = s.rho := by
  induction n generalizing s a with
  | zero => rfl
  | succ n ih => rw [clearRegs, ih, rset_rho]
@[simp] theorem clearRegs_up (n : Nat) (s : State) (a : Nat) : (clearRegs s a n).up = s.up := by
  induction n generalizing s a with
  | zero => rfl
  | succ n ih => rw [clearRegs, ih, rset_up]
@[simp] theorem clearRegs_draws (n : Nat) (s : State) (a : Nat) : (clearRegs s a n).draws = s.draws := by
  induction n generalizing s a with
  | zero => rfl
  | succ n ih => rw [clearRegs, ih, rset_draws]
@[simp] theorem clearRegs_out (n : Nat) (s : State) (a : Nat) : (clearRegs s a n).out = s.out := by
  induction n generalizing s a with
  | zero => rfl
  | succ n ih => rw [clearRegs, ih, rset_out]
@[simp] theorem clearRegs_pins (n : Nat) (s : State) (a : Nat) : (clearRegs s a n).pins = s.pins := by
  induction n generalizing s a with
  | zero => rfl
  | succ n ih => rw [clearRegs, ih, rset_pins]
@[simp] theorem clearRegs_flt (n : Nat) (s : State) (a : Nat) : (clearRegs s a n).flt = s.flt := by
  induction n generalizing s a with
  | zero => rfl
  | succ n ih => rw [clearRegs, ih, rset_flt]
@[simp] theorem clearRegs_hif (n : Nat) (s : State) (a : Nat) : (clearRegs s a n).hif = s.hif := by
  induction n generalizing s a with
  | zero => rfl
  | succ n ih => rw [clearRegs, ih, rset_hif]
@[simp] theorem clearRegs_dual (n : Nat) (s : State) (a : Nat) : (clearRegs s a n).dual = s.dual := by
  induction n generalizing s a with
  | zero => rfl
  | succ n ih => rw [clearRegs, ih, rset_dual]
@[simp] theorem clearRegs_spi (n : Nat) (s : State) (a : Nat) : (clearRegs s a n).spi = s.spi := by
  induction n generalizing s a with
  | zero => rfl
  | succ n ih => rw [clearRegs, ih, rset_spi]
@[simp] theorem clearRegs_mnt (n : Nat) (s : State) (a : Nat) : (clearRegs s a n).mnt = s.mnt := by
  induction n generalizing s a with
  | zero => rfl
  | succ n ih => rw [clearRegs, ih, rset_mnt]
@[simp] theorem clearRegs_bel (n : Nat) (s : State) (a : Nat) : (clearRegs s a n).bel = s.bel := by
  induction n generalizing s a with
  | zero => rfl
  | succ n ih => rw [clearRegs, ih, rset_bel]
@[simp] theorem clearRegs_thm (n : Nat) (s : State) (a : Nat) : (clearRegs s a n).thm = s.thm := by
  induction n generalizing s a with
  | zero => rfl
  | succ n ih => rw [clearRegs, ih, rset_thm]
@[simp] theorem clearRegs_boot (n : Nat) (s : State) (a : Nat) : (clearRegs s a n).boot = s.boot := by
  induction n generalizing s a with
  | zero => rfl
  | succ n ih => rw [clearRegs, ih, rset_boot]
@[simp] theorem clearRegs_restart (n : Nat) (s : State) (a : Nat) : (clearRegs s a n).restart = s.restart := by
  induction n generalizing s a with
  | zero => rfl
  | succ n ih => rw [clearRegs, ih, rset_restart]
@[simp] theorem clearRegs_pwr (n : Nat) (s : State) (a : Nat) : (clearRegs s a n).pwr = s.pwr := by
  induction n generalizing s a with
  | zero => rfl
  | succ n ih => rw [clearRegs, ih, rset_pwr]
@[simp] theorem clearRegs_drv (n : Nat) (s : State) (a : Nat) : (clearRegs s a n).drv = s.drv := by
  induction n generalizing s a with
  | zero => rfl
  | succ n ih => rw [clearRegs, ih, rset_drv]
@[simp] theorem clearRegs_mon (n : Nat) (s : State) (a : Nat) : (clearRegs s a n).mon = s.mon := by
  induction n generalizing s a with
  | zero => rfl
  | succ n ih => rw [clearRegs, ih, rset_mon]
@[simp] theorem clearRegs_trk (n : Nat) (s : State) (a : Nat) : (clearRegs s a n).trk = s.trk := by
  induction n generalizing s a with
  | zero => rfl
  | succ n ih => rw [clearRegs, ih, rset_trk]
@[simp] theorem clearRegs_hold (n : Nat) (s : State) (a : Nat) : (clearRegs s a n).hold = s.hold := by
  induction n generalizing s a with
  | zero => rfl
  | succ n ih => rw [clearRegs, ih, rset_hold]
@[simp] theorem clearRegs_cal (n : Nat) (s : State) (a : Nat) : (clearRegs s a n).cal = s.cal := by
  induction n generalizing s a with
  | zero => rfl
  | succ n ih => rw [clearRegs, ih, rset_cal]
@[simp] theorem clearRegs_tmu (n : Nat) (s : State) (a : Nat) : (clearRegs s a n).tmu = s.tmu := by
  induction n generalizing s a with
  | zero => rfl
  | succ n ih => rw [clearRegs, ih, rset_tmu]
@[simp] theorem clearRegs_eth (n : Nat) (s : State) (a : Nat) : (clearRegs s a n).eth = s.eth := by
  induction n generalizing s a with
  | zero => rfl
  | succ n ih => rw [clearRegs, ih, rset_eth]

/-! ## mset -/

@[simp] theorem mset_pending (s : State) (a n v : Nat) : (mset s a n v).pending = s.pending := rfl
@[simp] theorem mset_regs (s : State) (a n v : Nat) : (mset s a n v).regs = s.regs := rfl
@[simp] theorem mset_slotMem (s : State) (a n v : Nat) : (mset s a n v).slotMem = s.slotMem := rfl
@[simp] theorem mset_now (s : State) (a n v : Nat) : (mset s a n v).now = s.now := rfl
@[simp] theorem mset_rho (s : State) (a n v : Nat) : (mset s a n v).rho = s.rho := rfl
@[simp] theorem mset_up (s : State) (a n v : Nat) : (mset s a n v).up = s.up := rfl
@[simp] theorem mset_draws (s : State) (a n v : Nat) : (mset s a n v).draws = s.draws := rfl
@[simp] theorem mset_out (s : State) (a n v : Nat) : (mset s a n v).out = s.out := rfl
@[simp] theorem mset_pins (s : State) (a n v : Nat) : (mset s a n v).pins = s.pins := rfl
@[simp] theorem mset_flt (s : State) (a n v : Nat) : (mset s a n v).flt = s.flt := rfl
@[simp] theorem mset_hif (s : State) (a n v : Nat) : (mset s a n v).hif = s.hif := rfl
@[simp] theorem mset_dual (s : State) (a n v : Nat) : (mset s a n v).dual = s.dual := rfl
@[simp] theorem mset_spi (s : State) (a n v : Nat) : (mset s a n v).spi = s.spi := rfl
@[simp] theorem mset_mnt (s : State) (a n v : Nat) : (mset s a n v).mnt = s.mnt := rfl
@[simp] theorem mset_bel (s : State) (a n v : Nat) : (mset s a n v).bel = s.bel := rfl
@[simp] theorem mset_thm (s : State) (a n v : Nat) : (mset s a n v).thm = s.thm := rfl
@[simp] theorem mset_boot (s : State) (a n v : Nat) : (mset s a n v).boot = s.boot := rfl
@[simp] theorem mset_restart (s : State) (a n v : Nat) : (mset s a n v).restart = s.restart := rfl
@[simp] theorem mset_pwr (s : State) (a n v : Nat) : (mset s a n v).pwr = s.pwr := rfl
@[simp] theorem mset_drv (s : State) (a n v : Nat) : (mset s a n v).drv = s.drv := rfl
@[simp] theorem mset_mon (s : State) (a n v : Nat) : (mset s a n v).mon = s.mon := rfl
@[simp] theorem mset_trk (s : State) (a n v : Nat) : (mset s a n v).trk = s.trk := rfl
@[simp] theorem mset_hold (s : State) (a n v : Nat) : (mset s a n v).hold = s.hold := rfl
@[simp] theorem mset_cal (s : State) (a n v : Nat) : (mset s a n v).cal = s.cal := rfl
@[simp] theorem mset_tmu (s : State) (a n v : Nat) : (mset s a n v).tmu = s.tmu := rfl
@[simp] theorem mset_eth (s : State) (a n v : Nat) : (mset s a n v).eth = s.eth := rfl

/-! ## setRetired -/

@[simp] theorem setRetired_pending (s : State) (i : Nat) (b : Bool) (k : Nat) : (setRetired s i b k).pending = s.pending := rfl
@[simp] theorem setRetired_regs (s : State) (i : Nat) (b : Bool) (k : Nat) : (setRetired s i b k).regs = s.regs := rfl
@[simp] theorem setRetired_slotMem (s : State) (i : Nat) (b : Bool) (k : Nat) : (setRetired s i b k).slotMem = s.slotMem := rfl
@[simp] theorem setRetired_now (s : State) (i : Nat) (b : Bool) (k : Nat) : (setRetired s i b k).now = s.now := rfl
@[simp] theorem setRetired_rho (s : State) (i : Nat) (b : Bool) (k : Nat) : (setRetired s i b k).rho = s.rho := rfl
@[simp] theorem setRetired_up (s : State) (i : Nat) (b : Bool) (k : Nat) : (setRetired s i b k).up = s.up := rfl
@[simp] theorem setRetired_draws (s : State) (i : Nat) (b : Bool) (k : Nat) : (setRetired s i b k).draws = s.draws := rfl
@[simp] theorem setRetired_out (s : State) (i : Nat) (b : Bool) (k : Nat) : (setRetired s i b k).out = s.out := rfl
@[simp] theorem setRetired_pins (s : State) (i : Nat) (b : Bool) (k : Nat) : (setRetired s i b k).pins = s.pins := rfl
@[simp] theorem setRetired_flt (s : State) (i : Nat) (b : Bool) (k : Nat) : (setRetired s i b k).flt = s.flt := rfl
@[simp] theorem setRetired_hif (s : State) (i : Nat) (b : Bool) (k : Nat) : (setRetired s i b k).hif = s.hif := rfl
@[simp] theorem setRetired_dual (s : State) (i : Nat) (b : Bool) (k : Nat) : (setRetired s i b k).dual = s.dual := rfl
@[simp] theorem setRetired_spi (s : State) (i : Nat) (b : Bool) (k : Nat) : (setRetired s i b k).spi = s.spi := rfl
@[simp] theorem setRetired_mnt (s : State) (i : Nat) (b : Bool) (k : Nat) : (setRetired s i b k).mnt = s.mnt := rfl
@[simp] theorem setRetired_bel (s : State) (i : Nat) (b : Bool) (k : Nat) : (setRetired s i b k).bel = s.bel := rfl
@[simp] theorem setRetired_thm (s : State) (i : Nat) (b : Bool) (k : Nat) : (setRetired s i b k).thm = s.thm := rfl
@[simp] theorem setRetired_boot (s : State) (i : Nat) (b : Bool) (k : Nat) : (setRetired s i b k).boot = s.boot := rfl
@[simp] theorem setRetired_restart (s : State) (i : Nat) (b : Bool) (k : Nat) : (setRetired s i b k).restart = s.restart := rfl
@[simp] theorem setRetired_pwr (s : State) (i : Nat) (b : Bool) (k : Nat) : (setRetired s i b k).pwr = s.pwr := rfl
@[simp] theorem setRetired_drv (s : State) (i : Nat) (b : Bool) (k : Nat) : (setRetired s i b k).drv = s.drv := rfl
@[simp] theorem setRetired_mon (s : State) (i : Nat) (b : Bool) (k : Nat) : (setRetired s i b k).mon = s.mon := rfl
@[simp] theorem setRetired_trk (s : State) (i : Nat) (b : Bool) (k : Nat) : (setRetired s i b k).trk = s.trk := rfl
@[simp] theorem setRetired_hold (s : State) (i : Nat) (b : Bool) (k : Nat) : (setRetired s i b k).hold = s.hold := rfl
@[simp] theorem setRetired_cal (s : State) (i : Nat) (b : Bool) (k : Nat) : (setRetired s i b k).cal = s.cal := rfl
@[simp] theorem setRetired_tmu (s : State) (i : Nat) (b : Bool) (k : Nat) : (setRetired s i b k).tmu = s.tmu := rfl
@[simp] theorem setRetired_eth (s : State) (i : Nat) (b : Bool) (k : Nat) : (setRetired s i b k).eth = s.eth := rfl

/-! ## draw -/

@[simp] theorem draw_pending (s : State) : (draw s).2.pending = s.pending := rfl
@[simp] theorem draw_regs (s : State) : (draw s).2.regs = s.regs := rfl
@[simp] theorem draw_mem (s : State) : (draw s).2.mem = s.mem := rfl
@[simp] theorem draw_slotMem (s : State) : (draw s).2.slotMem = s.slotMem := rfl
@[simp] theorem draw_now (s : State) : (draw s).2.now = s.now := rfl
@[simp] theorem draw_rho (s : State) : (draw s).2.rho = s.rho := rfl
@[simp] theorem draw_up (s : State) : (draw s).2.up = s.up := rfl
@[simp] theorem draw_out (s : State) : (draw s).2.out = s.out := rfl
@[simp] theorem draw_pins (s : State) : (draw s).2.pins = s.pins := rfl
@[simp] theorem draw_flt (s : State) : (draw s).2.flt = s.flt := rfl
@[simp] theorem draw_hif (s : State) : (draw s).2.hif = s.hif := rfl
@[simp] theorem draw_dual (s : State) : (draw s).2.dual = s.dual := rfl
@[simp] theorem draw_spi (s : State) : (draw s).2.spi = s.spi := rfl
@[simp] theorem draw_mnt (s : State) : (draw s).2.mnt = s.mnt := rfl
@[simp] theorem draw_bel (s : State) : (draw s).2.bel = s.bel := rfl
@[simp] theorem draw_thm (s : State) : (draw s).2.thm = s.thm := rfl
@[simp] theorem draw_boot (s : State) : (draw s).2.boot = s.boot := rfl
@[simp] theorem draw_restart (s : State) : (draw s).2.restart = s.restart := rfl
@[simp] theorem draw_pwr (s : State) : (draw s).2.pwr = s.pwr := rfl
@[simp] theorem draw_drv (s : State) : (draw s).2.drv = s.drv := rfl
@[simp] theorem draw_mon (s : State) : (draw s).2.mon = s.mon := rfl
@[simp] theorem draw_trk (s : State) : (draw s).2.trk = s.trk := rfl
@[simp] theorem draw_hold (s : State) : (draw s).2.hold = s.hold := rfl
@[simp] theorem draw_cal (s : State) : (draw s).2.cal = s.cal := rfl
@[simp] theorem draw_tmu (s : State) : (draw s).2.tmu = s.tmu := rfl
@[simp] theorem draw_eth (s : State) : (draw s).2.eth = s.eth := rfl

/-! ## emit -/

@[simp] theorem emit_pending (s : State) (o : Output) : (emit s o).pending = s.pending := rfl
@[simp] theorem emit_regs (s : State) (o : Output) : (emit s o).regs = s.regs := rfl
@[simp] theorem emit_mem (s : State) (o : Output) : (emit s o).mem = s.mem := rfl
@[simp] theorem emit_slotMem (s : State) (o : Output) : (emit s o).slotMem = s.slotMem := rfl
@[simp] theorem emit_now (s : State) (o : Output) : (emit s o).now = s.now := rfl
@[simp] theorem emit_rho (s : State) (o : Output) : (emit s o).rho = s.rho := rfl
@[simp] theorem emit_up (s : State) (o : Output) : (emit s o).up = s.up := rfl
@[simp] theorem emit_draws (s : State) (o : Output) : (emit s o).draws = s.draws := rfl
@[simp] theorem emit_pins (s : State) (o : Output) : (emit s o).pins = s.pins := rfl
@[simp] theorem emit_flt (s : State) (o : Output) : (emit s o).flt = s.flt := rfl
@[simp] theorem emit_hif (s : State) (o : Output) : (emit s o).hif = s.hif := rfl
@[simp] theorem emit_dual (s : State) (o : Output) : (emit s o).dual = s.dual := rfl
@[simp] theorem emit_spi (s : State) (o : Output) : (emit s o).spi = s.spi := rfl
@[simp] theorem emit_mnt (s : State) (o : Output) : (emit s o).mnt = s.mnt := rfl
@[simp] theorem emit_bel (s : State) (o : Output) : (emit s o).bel = s.bel := rfl
@[simp] theorem emit_thm (s : State) (o : Output) : (emit s o).thm = s.thm := rfl
@[simp] theorem emit_boot (s : State) (o : Output) : (emit s o).boot = s.boot := rfl
@[simp] theorem emit_restart (s : State) (o : Output) : (emit s o).restart = s.restart := rfl
@[simp] theorem emit_pwr (s : State) (o : Output) : (emit s o).pwr = s.pwr := rfl
@[simp] theorem emit_drv (s : State) (o : Output) : (emit s o).drv = s.drv := rfl
@[simp] theorem emit_mon (s : State) (o : Output) : (emit s o).mon = s.mon := rfl
@[simp] theorem emit_trk (s : State) (o : Output) : (emit s o).trk = s.trk := rfl
@[simp] theorem emit_hold (s : State) (o : Output) : (emit s o).hold = s.hold := rfl
@[simp] theorem emit_cal (s : State) (o : Output) : (emit s o).cal = s.cal := rfl
@[simp] theorem emit_tmu (s : State) (o : Output) : (emit s o).tmu = s.tmu := rfl
@[simp] theorem emit_eth (s : State) (o : Output) : (emit s o).eth = s.eth := rfl

/-! ## setPort -/

@[simp] theorem setPort_pending (s : State) (p : Nat) (x : Port) : (setPort s p x).pending = s.pending := by unfold setPort; split <;> rfl
@[simp] theorem setPort_regs (s : State) (p : Nat) (x : Port) : (setPort s p x).regs = s.regs := by unfold setPort; split <;> rfl
@[simp] theorem setPort_mem (s : State) (p : Nat) (x : Port) : (setPort s p x).mem = s.mem := by unfold setPort; split <;> rfl
@[simp] theorem setPort_slotMem (s : State) (p : Nat) (x : Port) : (setPort s p x).slotMem = s.slotMem := by unfold setPort; split <;> rfl
@[simp] theorem setPort_now (s : State) (p : Nat) (x : Port) : (setPort s p x).now = s.now := by unfold setPort; split <;> rfl
@[simp] theorem setPort_rho (s : State) (p : Nat) (x : Port) : (setPort s p x).rho = s.rho := by unfold setPort; split <;> rfl
@[simp] theorem setPort_up (s : State) (p : Nat) (x : Port) : (setPort s p x).up = s.up := by unfold setPort; split <;> rfl
@[simp] theorem setPort_draws (s : State) (p : Nat) (x : Port) : (setPort s p x).draws = s.draws := by unfold setPort; split <;> rfl
@[simp] theorem setPort_out (s : State) (p : Nat) (x : Port) : (setPort s p x).out = s.out := by unfold setPort; split <;> rfl
@[simp] theorem setPort_pins (s : State) (p : Nat) (x : Port) : (setPort s p x).pins = s.pins := by unfold setPort; split <;> rfl
@[simp] theorem setPort_flt (s : State) (p : Nat) (x : Port) : (setPort s p x).flt = s.flt := by unfold setPort; split <;> rfl
@[simp] theorem setPort_dual (s : State) (p : Nat) (x : Port) : (setPort s p x).dual = s.dual := by unfold setPort; split <;> rfl
@[simp] theorem setPort_spi (s : State) (p : Nat) (x : Port) : (setPort s p x).spi = s.spi := by unfold setPort; split <;> rfl
@[simp] theorem setPort_mnt (s : State) (p : Nat) (x : Port) : (setPort s p x).mnt = s.mnt := by unfold setPort; split <;> rfl
@[simp] theorem setPort_bel (s : State) (p : Nat) (x : Port) : (setPort s p x).bel = s.bel := by unfold setPort; split <;> rfl
@[simp] theorem setPort_thm (s : State) (p : Nat) (x : Port) : (setPort s p x).thm = s.thm := by unfold setPort; split <;> rfl
@[simp] theorem setPort_boot (s : State) (p : Nat) (x : Port) : (setPort s p x).boot = s.boot := by unfold setPort; split <;> rfl
@[simp] theorem setPort_restart (s : State) (p : Nat) (x : Port) : (setPort s p x).restart = s.restart := by unfold setPort; split <;> rfl
@[simp] theorem setPort_pwr (s : State) (p : Nat) (x : Port) : (setPort s p x).pwr = s.pwr := by unfold setPort; split <;> rfl
@[simp] theorem setPort_drv (s : State) (p : Nat) (x : Port) : (setPort s p x).drv = s.drv := by unfold setPort; split <;> rfl
@[simp] theorem setPort_mon (s : State) (p : Nat) (x : Port) : (setPort s p x).mon = s.mon := by unfold setPort; split <;> rfl
@[simp] theorem setPort_trk (s : State) (p : Nat) (x : Port) : (setPort s p x).trk = s.trk := by unfold setPort; split <;> rfl
@[simp] theorem setPort_hold (s : State) (p : Nat) (x : Port) : (setPort s p x).hold = s.hold := by unfold setPort; split <;> rfl
@[simp] theorem setPort_cal (s : State) (p : Nat) (x : Port) : (setPort s p x).cal = s.cal := by unfold setPort; split <;> rfl
@[simp] theorem setPort_tmu (s : State) (p : Nat) (x : Port) : (setPort s p x).tmu = s.tmu := by unfold setPort; split <;> rfl
@[simp] theorem setPort_eth (s : State) (p : Nat) (x : Port) : (setPort s p x).eth = s.eth := by unfold setPort; split <;> rfl

/-! ## setRing -/

@[simp] theorem setRing_pending (s : State) (i : Nat) (x : Ring) : (setRing s i x).pending = s.pending := rfl
@[simp] theorem setRing_regs (s : State) (i : Nat) (x : Ring) : (setRing s i x).regs = s.regs := rfl
@[simp] theorem setRing_mem (s : State) (i : Nat) (x : Ring) : (setRing s i x).mem = s.mem := rfl
@[simp] theorem setRing_slotMem (s : State) (i : Nat) (x : Ring) : (setRing s i x).slotMem = s.slotMem := rfl
@[simp] theorem setRing_now (s : State) (i : Nat) (x : Ring) : (setRing s i x).now = s.now := rfl
@[simp] theorem setRing_rho (s : State) (i : Nat) (x : Ring) : (setRing s i x).rho = s.rho := rfl
@[simp] theorem setRing_up (s : State) (i : Nat) (x : Ring) : (setRing s i x).up = s.up := rfl
@[simp] theorem setRing_draws (s : State) (i : Nat) (x : Ring) : (setRing s i x).draws = s.draws := rfl
@[simp] theorem setRing_out (s : State) (i : Nat) (x : Ring) : (setRing s i x).out = s.out := rfl
@[simp] theorem setRing_pins (s : State) (i : Nat) (x : Ring) : (setRing s i x).pins = s.pins := rfl
@[simp] theorem setRing_flt (s : State) (i : Nat) (x : Ring) : (setRing s i x).flt = s.flt := rfl
@[simp] theorem setRing_dual (s : State) (i : Nat) (x : Ring) : (setRing s i x).dual = s.dual := rfl
@[simp] theorem setRing_spi (s : State) (i : Nat) (x : Ring) : (setRing s i x).spi = s.spi := rfl
@[simp] theorem setRing_mnt (s : State) (i : Nat) (x : Ring) : (setRing s i x).mnt = s.mnt := rfl
@[simp] theorem setRing_bel (s : State) (i : Nat) (x : Ring) : (setRing s i x).bel = s.bel := rfl
@[simp] theorem setRing_thm (s : State) (i : Nat) (x : Ring) : (setRing s i x).thm = s.thm := rfl
@[simp] theorem setRing_boot (s : State) (i : Nat) (x : Ring) : (setRing s i x).boot = s.boot := rfl
@[simp] theorem setRing_restart (s : State) (i : Nat) (x : Ring) : (setRing s i x).restart = s.restart := rfl
@[simp] theorem setRing_pwr (s : State) (i : Nat) (x : Ring) : (setRing s i x).pwr = s.pwr := rfl
@[simp] theorem setRing_drv (s : State) (i : Nat) (x : Ring) : (setRing s i x).drv = s.drv := rfl
@[simp] theorem setRing_mon (s : State) (i : Nat) (x : Ring) : (setRing s i x).mon = s.mon := rfl
@[simp] theorem setRing_trk (s : State) (i : Nat) (x : Ring) : (setRing s i x).trk = s.trk := rfl
@[simp] theorem setRing_hold (s : State) (i : Nat) (x : Ring) : (setRing s i x).hold = s.hold := rfl
@[simp] theorem setRing_cal (s : State) (i : Nat) (x : Ring) : (setRing s i x).cal = s.cal := rfl
@[simp] theorem setRing_tmu (s : State) (i : Nat) (x : Ring) : (setRing s i x).tmu = s.tmu := rfl
@[simp] theorem setRing_eth (s : State) (i : Nat) (x : Ring) : (setRing s i x).eth = s.eth := rfl

/-! ## setOwed -/

@[simp] theorem setOwed_pending (s : State) (i n : Nat) : (setOwed s i n).pending = s.pending := by unfold setOwed; split <;> rfl
@[simp] theorem setOwed_mem (s : State) (i n : Nat) : (setOwed s i n).mem = s.mem := by unfold setOwed; split <;> rfl
@[simp] theorem setOwed_slotMem (s : State) (i n : Nat) : (setOwed s i n).slotMem = s.slotMem := by unfold setOwed; split <;> rfl
@[simp] theorem setOwed_now (s : State) (i n : Nat) : (setOwed s i n).now = s.now := by unfold setOwed; split <;> rfl
@[simp] theorem setOwed_rho (s : State) (i n : Nat) : (setOwed s i n).rho = s.rho := by unfold setOwed; split <;> rfl
@[simp] theorem setOwed_up (s : State) (i n : Nat) : (setOwed s i n).up = s.up := by unfold setOwed; split <;> rfl
@[simp] theorem setOwed_draws (s : State) (i n : Nat) : (setOwed s i n).draws = s.draws := by unfold setOwed; split <;> rfl
@[simp] theorem setOwed_out (s : State) (i n : Nat) : (setOwed s i n).out = s.out := by unfold setOwed; split <;> rfl
@[simp] theorem setOwed_pins (s : State) (i n : Nat) : (setOwed s i n).pins = s.pins := by unfold setOwed; split <;> rfl
@[simp] theorem setOwed_flt (s : State) (i n : Nat) : (setOwed s i n).flt = s.flt := by unfold setOwed; split <;> rfl
@[simp] theorem setOwed_hif (s : State) (i n : Nat) : (setOwed s i n).hif = s.hif := by unfold setOwed; split <;> rfl
@[simp] theorem setOwed_dual (s : State) (i n : Nat) : (setOwed s i n).dual = s.dual := by unfold setOwed; split <;> rfl
@[simp] theorem setOwed_mnt (s : State) (i n : Nat) : (setOwed s i n).mnt = s.mnt := by unfold setOwed; split <;> rfl
@[simp] theorem setOwed_bel (s : State) (i n : Nat) : (setOwed s i n).bel = s.bel := by unfold setOwed; split <;> rfl
@[simp] theorem setOwed_thm (s : State) (i n : Nat) : (setOwed s i n).thm = s.thm := by unfold setOwed; split <;> rfl
@[simp] theorem setOwed_boot (s : State) (i n : Nat) : (setOwed s i n).boot = s.boot := by unfold setOwed; split <;> rfl
@[simp] theorem setOwed_restart (s : State) (i n : Nat) : (setOwed s i n).restart = s.restart := by unfold setOwed; split <;> rfl
@[simp] theorem setOwed_pwr (s : State) (i n : Nat) : (setOwed s i n).pwr = s.pwr := by unfold setOwed; split <;> rfl
@[simp] theorem setOwed_drv (s : State) (i n : Nat) : (setOwed s i n).drv = s.drv := by unfold setOwed; split <;> rfl
@[simp] theorem setOwed_mon (s : State) (i n : Nat) : (setOwed s i n).mon = s.mon := by unfold setOwed; split <;> rfl
@[simp] theorem setOwed_trk (s : State) (i n : Nat) : (setOwed s i n).trk = s.trk := by unfold setOwed; split <;> rfl
@[simp] theorem setOwed_hold (s : State) (i n : Nat) : (setOwed s i n).hold = s.hold := by unfold setOwed; split <;> rfl
@[simp] theorem setOwed_cal (s : State) (i n : Nat) : (setOwed s i n).cal = s.cal := by unfold setOwed; split <;> rfl
@[simp] theorem setOwed_tmu (s : State) (i n : Nat) : (setOwed s i n).tmu = s.tmu := by unfold setOwed; split <;> rfl
@[simp] theorem setOwed_eth (s : State) (i n : Nat) : (setOwed s i n).eth = s.eth := by unfold setOwed; split <;> rfl

/-! ## reportF -/

@[simp] theorem reportF_pending (s : State) (src k a i : Nat) (f : Bool) : (reportF s src k a i f).pending = s.pending := by unfold reportF; split <;> rfl
@[simp] theorem reportF_mem (s : State) (src k a i : Nat) (f : Bool) : (reportF s src k a i f).mem = s.mem := by unfold reportF; split <;> rfl
@[simp] theorem reportF_slotMem (s : State) (src k a i : Nat) (f : Bool) : (reportF s src k a i f).slotMem = s.slotMem := by unfold reportF; split <;> rfl
@[simp] theorem reportF_now (s : State) (src k a i : Nat) (f : Bool) : (reportF s src k a i f).now = s.now := by unfold reportF; split <;> rfl
@[simp] theorem reportF_rho (s : State) (src k a i : Nat) (f : Bool) : (reportF s src k a i f).rho = s.rho := by unfold reportF; split <;> rfl
@[simp] theorem reportF_up (s : State) (src k a i : Nat) (f : Bool) : (reportF s src k a i f).up = s.up := by unfold reportF; split <;> rfl
@[simp] theorem reportF_draws (s : State) (src k a i : Nat) (f : Bool) : (reportF s src k a i f).draws = s.draws := by unfold reportF; split <;> rfl
@[simp] theorem reportF_out (s : State) (src k a i : Nat) (f : Bool) : (reportF s src k a i f).out = s.out := by unfold reportF; split <;> rfl
@[simp] theorem reportF_pins (s : State) (src k a i : Nat) (f : Bool) : (reportF s src k a i f).pins = s.pins := by unfold reportF; split <;> rfl
@[simp] theorem reportF_hif (s : State) (src k a i : Nat) (f : Bool) : (reportF s src k a i f).hif = s.hif := by unfold reportF; split <;> rfl
@[simp] theorem reportF_dual (s : State) (src k a i : Nat) (f : Bool) : (reportF s src k a i f).dual = s.dual := by unfold reportF; split <;> rfl
@[simp] theorem reportF_spi (s : State) (src k a i : Nat) (f : Bool) : (reportF s src k a i f).spi = s.spi := by unfold reportF; split <;> rfl
@[simp] theorem reportF_mnt (s : State) (src k a i : Nat) (f : Bool) : (reportF s src k a i f).mnt = s.mnt := by unfold reportF; split <;> rfl
@[simp] theorem reportF_bel (s : State) (src k a i : Nat) (f : Bool) : (reportF s src k a i f).bel = s.bel := by unfold reportF; split <;> rfl
@[simp] theorem reportF_thm (s : State) (src k a i : Nat) (f : Bool) : (reportF s src k a i f).thm = s.thm := by unfold reportF; split <;> rfl
@[simp] theorem reportF_boot (s : State) (src k a i : Nat) (f : Bool) : (reportF s src k a i f).boot = s.boot := by unfold reportF; split <;> rfl
@[simp] theorem reportF_restart (s : State) (src k a i : Nat) (f : Bool) : (reportF s src k a i f).restart = s.restart := by unfold reportF; split <;> rfl
@[simp] theorem reportF_pwr (s : State) (src k a i : Nat) (f : Bool) : (reportF s src k a i f).pwr = s.pwr := by unfold reportF; split <;> rfl
@[simp] theorem reportF_drv (s : State) (src k a i : Nat) (f : Bool) : (reportF s src k a i f).drv = s.drv := by unfold reportF; split <;> rfl
@[simp] theorem reportF_mon (s : State) (src k a i : Nat) (f : Bool) : (reportF s src k a i f).mon = s.mon := by unfold reportF; split <;> rfl
@[simp] theorem reportF_trk (s : State) (src k a i : Nat) (f : Bool) : (reportF s src k a i f).trk = s.trk := by unfold reportF; split <;> rfl
@[simp] theorem reportF_hold (s : State) (src k a i : Nat) (f : Bool) : (reportF s src k a i f).hold = s.hold := by unfold reportF; split <;> rfl
@[simp] theorem reportF_cal (s : State) (src k a i : Nat) (f : Bool) : (reportF s src k a i f).cal = s.cal := by unfold reportF; split <;> rfl
@[simp] theorem reportF_tmu (s : State) (src k a i : Nat) (f : Bool) : (reportF s src k a i f).tmu = s.tmu := by unfold reportF; split <;> rfl
@[simp] theorem reportF_eth (s : State) (src k a i : Nat) (f : Bool) : (reportF s src k a i f).eth = s.eth := by unfold reportF; split <;> rfl

/-! ## report -/

@[simp] theorem report_pending (s : State) (src k a i : Nat) : (report s src k a i).pending = s.pending := reportF_pending _ _ _ _ _ _
@[simp] theorem report_mem (s : State) (src k a i : Nat) : (report s src k a i).mem = s.mem := reportF_mem _ _ _ _ _ _
@[simp] theorem report_slotMem (s : State) (src k a i : Nat) : (report s src k a i).slotMem = s.slotMem := reportF_slotMem _ _ _ _ _ _
@[simp] theorem report_now (s : State) (src k a i : Nat) : (report s src k a i).now = s.now := reportF_now _ _ _ _ _ _
@[simp] theorem report_rho (s : State) (src k a i : Nat) : (report s src k a i).rho = s.rho := reportF_rho _ _ _ _ _ _
@[simp] theorem report_up (s : State) (src k a i : Nat) : (report s src k a i).up = s.up := reportF_up _ _ _ _ _ _
@[simp] theorem report_draws (s : State) (src k a i : Nat) : (report s src k a i).draws = s.draws := reportF_draws _ _ _ _ _ _
@[simp] theorem report_out (s : State) (src k a i : Nat) : (report s src k a i).out = s.out := reportF_out _ _ _ _ _ _
@[simp] theorem report_pins (s : State) (src k a i : Nat) : (report s src k a i).pins = s.pins := reportF_pins _ _ _ _ _ _
@[simp] theorem report_hif (s : State) (src k a i : Nat) : (report s src k a i).hif = s.hif := reportF_hif _ _ _ _ _ _
@[simp] theorem report_dual (s : State) (src k a i : Nat) : (report s src k a i).dual = s.dual := reportF_dual _ _ _ _ _ _
@[simp] theorem report_spi (s : State) (src k a i : Nat) : (report s src k a i).spi = s.spi := reportF_spi _ _ _ _ _ _
@[simp] theorem report_mnt (s : State) (src k a i : Nat) : (report s src k a i).mnt = s.mnt := reportF_mnt _ _ _ _ _ _
@[simp] theorem report_bel (s : State) (src k a i : Nat) : (report s src k a i).bel = s.bel := reportF_bel _ _ _ _ _ _
@[simp] theorem report_thm (s : State) (src k a i : Nat) : (report s src k a i).thm = s.thm := reportF_thm _ _ _ _ _ _
@[simp] theorem report_boot (s : State) (src k a i : Nat) : (report s src k a i).boot = s.boot := reportF_boot _ _ _ _ _ _
@[simp] theorem report_restart (s : State) (src k a i : Nat) : (report s src k a i).restart = s.restart := reportF_restart _ _ _ _ _ _
@[simp] theorem report_pwr (s : State) (src k a i : Nat) : (report s src k a i).pwr = s.pwr := reportF_pwr _ _ _ _ _ _
@[simp] theorem report_drv (s : State) (src k a i : Nat) : (report s src k a i).drv = s.drv := reportF_drv _ _ _ _ _ _
@[simp] theorem report_mon (s : State) (src k a i : Nat) : (report s src k a i).mon = s.mon := reportF_mon _ _ _ _ _ _
@[simp] theorem report_trk (s : State) (src k a i : Nat) : (report s src k a i).trk = s.trk := reportF_trk _ _ _ _ _ _
@[simp] theorem report_hold (s : State) (src k a i : Nat) : (report s src k a i).hold = s.hold := reportF_hold _ _ _ _ _ _
@[simp] theorem report_cal (s : State) (src k a i : Nat) : (report s src k a i).cal = s.cal := reportF_cal _ _ _ _ _ _
@[simp] theorem report_tmu (s : State) (src k a i : Nat) : (report s src k a i).tmu = s.tmu := reportF_tmu _ _ _ _ _ _
@[simp] theorem report_eth (s : State) (src k a i : Nat) : (report s src k a i).eth = s.eth := reportF_eth _ _ _ _ _ _

/-! ## refuseWrite -/

@[simp] theorem refuseWrite_pending (s : State) (m : Master) (a : Nat) : (refuseWrite s m a).pending = s.pending := by
  unfold refuseWrite; dsimp only; split
  · simp
  · split <;> simp
@[simp] theorem refuseWrite_mem (s : State) (m : Master) (a : Nat) : (refuseWrite s m a).mem = s.mem := by
  unfold refuseWrite; dsimp only; split
  · simp
  · split <;> simp
@[simp] theorem refuseWrite_slotMem (s : State) (m : Master) (a : Nat) : (refuseWrite s m a).slotMem = s.slotMem := by
  unfold refuseWrite; dsimp only; split
  · simp
  · split <;> simp
@[simp] theorem refuseWrite_now (s : State) (m : Master) (a : Nat) : (refuseWrite s m a).now = s.now := by
  unfold refuseWrite; dsimp only; split
  · simp
  · split <;> simp
@[simp] theorem refuseWrite_rho (s : State) (m : Master) (a : Nat) : (refuseWrite s m a).rho = s.rho := by
  unfold refuseWrite; dsimp only; split
  · simp
  · split <;> simp
@[simp] theorem refuseWrite_up (s : State) (m : Master) (a : Nat) : (refuseWrite s m a).up = s.up := by
  unfold refuseWrite; dsimp only; split
  · simp
  · split <;> simp
@[simp] theorem refuseWrite_draws (s : State) (m : Master) (a : Nat) : (refuseWrite s m a).draws = s.draws := by
  unfold refuseWrite; dsimp only; split
  · simp
  · split <;> simp
@[simp] theorem refuseWrite_out (s : State) (m : Master) (a : Nat) : (refuseWrite s m a).out = s.out := by
  unfold refuseWrite; dsimp only; split
  · simp
  · split <;> simp
@[simp] theorem refuseWrite_pins (s : State) (m : Master) (a : Nat) : (refuseWrite s m a).pins = s.pins := by
  unfold refuseWrite; dsimp only; split
  · simp
  · split <;> simp
@[simp] theorem refuseWrite_hif (s : State) (m : Master) (a : Nat) : (refuseWrite s m a).hif = s.hif := by
  unfold refuseWrite; dsimp only; split
  · simp
  · split <;> simp
@[simp] theorem refuseWrite_dual (s : State) (m : Master) (a : Nat) : (refuseWrite s m a).dual = s.dual := by
  unfold refuseWrite; dsimp only; split
  · simp
  · split <;> simp
@[simp] theorem refuseWrite_spi (s : State) (m : Master) (a : Nat) : (refuseWrite s m a).spi = s.spi := by
  unfold refuseWrite; dsimp only; split
  · simp
  · split <;> simp
@[simp] theorem refuseWrite_bel (s : State) (m : Master) (a : Nat) : (refuseWrite s m a).bel = s.bel := by
  unfold refuseWrite; dsimp only; split
  · simp
  · split <;> simp
@[simp] theorem refuseWrite_thm (s : State) (m : Master) (a : Nat) : (refuseWrite s m a).thm = s.thm := by
  unfold refuseWrite; dsimp only; split
  · simp
  · split <;> simp
@[simp] theorem refuseWrite_boot (s : State) (m : Master) (a : Nat) : (refuseWrite s m a).boot = s.boot := by
  unfold refuseWrite; dsimp only; split
  · simp
  · split <;> simp
@[simp] theorem refuseWrite_restart (s : State) (m : Master) (a : Nat) : (refuseWrite s m a).restart = s.restart := by
  unfold refuseWrite; dsimp only; split
  · simp
  · split <;> simp
@[simp] theorem refuseWrite_pwr (s : State) (m : Master) (a : Nat) : (refuseWrite s m a).pwr = s.pwr := by
  unfold refuseWrite; dsimp only; split
  · simp
  · split <;> simp
@[simp] theorem refuseWrite_drv (s : State) (m : Master) (a : Nat) : (refuseWrite s m a).drv = s.drv := by
  unfold refuseWrite; dsimp only; split
  · simp
  · split <;> simp
@[simp] theorem refuseWrite_mon (s : State) (m : Master) (a : Nat) : (refuseWrite s m a).mon = s.mon := by
  unfold refuseWrite; dsimp only; split
  · simp
  · split <;> simp
@[simp] theorem refuseWrite_trk (s : State) (m : Master) (a : Nat) : (refuseWrite s m a).trk = s.trk := by
  unfold refuseWrite; dsimp only; split
  · simp
  · split <;> simp
@[simp] theorem refuseWrite_hold (s : State) (m : Master) (a : Nat) : (refuseWrite s m a).hold = s.hold := by
  unfold refuseWrite; dsimp only; split
  · simp
  · split <;> simp
@[simp] theorem refuseWrite_cal (s : State) (m : Master) (a : Nat) : (refuseWrite s m a).cal = s.cal := by
  unfold refuseWrite; dsimp only; split
  · simp
  · split <;> simp
@[simp] theorem refuseWrite_tmu (s : State) (m : Master) (a : Nat) : (refuseWrite s m a).tmu = s.tmu := by
  unfold refuseWrite; dsimp only; split
  · simp
  · split <;> simp
@[simp] theorem refuseWrite_eth (s : State) (m : Master) (a : Nat) : (refuseWrite s m a).eth = s.eth := by
  unfold refuseWrite; dsimp only; split
  · simp
  · split <;> simp

/-! ## msix -/

@[simp] theorem msix_pending (s : State) (p v : Nat) : (msix s p v).pending = s.pending := by
  unfold msix; dsimp only; split
  · rfl
  · split <;> rfl
@[simp] theorem msix_mem (s : State) (p v : Nat) : (msix s p v).mem = s.mem := by
  unfold msix; dsimp only; split
  · rfl
  · split <;> rfl
@[simp] theorem msix_slotMem (s : State) (p v : Nat) : (msix s p v).slotMem = s.slotMem := by
  unfold msix; dsimp only; split
  · rfl
  · split <;> rfl
@[simp] theorem msix_now (s : State) (p v : Nat) : (msix s p v).now = s.now := by
  unfold msix; dsimp only; split
  · rfl
  · split <;> rfl
@[simp] theorem msix_rho (s : State) (p v : Nat) : (msix s p v).rho = s.rho := by
  unfold msix; dsimp only; split
  · rfl
  · split <;> rfl
@[simp] theorem msix_up (s : State) (p v : Nat) : (msix s p v).up = s.up := by
  unfold msix; dsimp only; split
  · rfl
  · split <;> rfl
@[simp] theorem msix_draws (s : State) (p v : Nat) : (msix s p v).draws = s.draws := by
  unfold msix; dsimp only; split
  · rfl
  · split <;> rfl
@[simp] theorem msix_pins (s : State) (p v : Nat) : (msix s p v).pins = s.pins := by
  unfold msix; dsimp only; split
  · rfl
  · split <;> rfl
@[simp] theorem msix_flt (s : State) (p v : Nat) : (msix s p v).flt = s.flt := by
  unfold msix; dsimp only; split
  · rfl
  · split <;> rfl
@[simp] theorem msix_hif (s : State) (p v : Nat) : (msix s p v).hif = s.hif := by
  unfold msix; dsimp only; split
  · rfl
  · split <;> rfl
@[simp] theorem msix_dual (s : State) (p v : Nat) : (msix s p v).dual = s.dual := by
  unfold msix; dsimp only; split
  · rfl
  · split <;> rfl
@[simp] theorem msix_spi (s : State) (p v : Nat) : (msix s p v).spi = s.spi := by
  unfold msix; dsimp only; split
  · rfl
  · split <;> rfl
@[simp] theorem msix_mnt (s : State) (p v : Nat) : (msix s p v).mnt = s.mnt := by
  unfold msix; dsimp only; split
  · rfl
  · split <;> rfl
@[simp] theorem msix_bel (s : State) (p v : Nat) : (msix s p v).bel = s.bel := by
  unfold msix; dsimp only; split
  · rfl
  · split <;> rfl
@[simp] theorem msix_thm (s : State) (p v : Nat) : (msix s p v).thm = s.thm := by
  unfold msix; dsimp only; split
  · rfl
  · split <;> rfl
@[simp] theorem msix_boot (s : State) (p v : Nat) : (msix s p v).boot = s.boot := by
  unfold msix; dsimp only; split
  · rfl
  · split <;> rfl
@[simp] theorem msix_restart (s : State) (p v : Nat) : (msix s p v).restart = s.restart := by
  unfold msix; dsimp only; split
  · rfl
  · split <;> rfl
@[simp] theorem msix_pwr (s : State) (p v : Nat) : (msix s p v).pwr = s.pwr := by
  unfold msix; dsimp only; split
  · rfl
  · split <;> rfl
@[simp] theorem msix_drv (s : State) (p v : Nat) : (msix s p v).drv = s.drv := by
  unfold msix; dsimp only; split
  · rfl
  · split <;> rfl
@[simp] theorem msix_mon (s : State) (p v : Nat) : (msix s p v).mon = s.mon := by
  unfold msix; dsimp only; split
  · rfl
  · split <;> rfl
@[simp] theorem msix_trk (s : State) (p v : Nat) : (msix s p v).trk = s.trk := by
  unfold msix; dsimp only; split
  · rfl
  · split <;> rfl
@[simp] theorem msix_hold (s : State) (p v : Nat) : (msix s p v).hold = s.hold := by
  unfold msix; dsimp only; split
  · rfl
  · split <;> rfl
@[simp] theorem msix_cal (s : State) (p v : Nat) : (msix s p v).cal = s.cal := by
  unfold msix; dsimp only; split
  · rfl
  · split <;> rfl
@[simp] theorem msix_tmu (s : State) (p v : Nat) : (msix s p v).tmu = s.tmu := by
  unfold msix; dsimp only; split
  · rfl
  · split <;> rfl
@[simp] theorem msix_eth (s : State) (p v : Nat) : (msix s p v).eth = s.eth := by
  unfold msix; dsimp only; split
  · rfl
  · split <;> rfl

/-! ## raiseDual, regrade -/

@[simp] theorem raiseDual_pending (s : State) : (raiseDual s).pending = s.pending := by unfold raiseDual; dsimp only; split <;> split <;> simp
@[simp] theorem raiseDual_mem (s : State) : (raiseDual s).mem = s.mem := by unfold raiseDual; dsimp only; split <;> split <;> simp
@[simp] theorem raiseDual_slotMem (s : State) : (raiseDual s).slotMem = s.slotMem := by unfold raiseDual; dsimp only; split <;> split <;> simp
@[simp] theorem raiseDual_now (s : State) : (raiseDual s).now = s.now := by unfold raiseDual; dsimp only; split <;> split <;> simp
@[simp] theorem raiseDual_rho (s : State) : (raiseDual s).rho = s.rho := by unfold raiseDual; dsimp only; split <;> split <;> simp
@[simp] theorem raiseDual_up (s : State) : (raiseDual s).up = s.up := by unfold raiseDual; dsimp only; split <;> split <;> simp
@[simp] theorem raiseDual_draws (s : State) : (raiseDual s).draws = s.draws := by unfold raiseDual; dsimp only; split <;> split <;> simp
@[simp] theorem raiseDual_pins (s : State) : (raiseDual s).pins = s.pins := by unfold raiseDual; dsimp only; split <;> split <;> simp
@[simp] theorem raiseDual_flt (s : State) : (raiseDual s).flt = s.flt := by unfold raiseDual; dsimp only; split <;> split <;> simp
@[simp] theorem raiseDual_hif (s : State) : (raiseDual s).hif = s.hif := by unfold raiseDual; dsimp only; split <;> split <;> simp
@[simp] theorem raiseDual_dual (s : State) : (raiseDual s).dual = s.dual := by unfold raiseDual; dsimp only; split <;> split <;> simp
@[simp] theorem raiseDual_spi (s : State) : (raiseDual s).spi = s.spi := by unfold raiseDual; dsimp only; split <;> split <;> simp
@[simp] theorem raiseDual_mnt (s : State) : (raiseDual s).mnt = s.mnt := by unfold raiseDual; dsimp only; split <;> split <;> simp
@[simp] theorem raiseDual_bel (s : State) : (raiseDual s).bel = s.bel := by unfold raiseDual; dsimp only; split <;> split <;> simp
@[simp] theorem raiseDual_thm (s : State) : (raiseDual s).thm = s.thm := by unfold raiseDual; dsimp only; split <;> split <;> simp
@[simp] theorem raiseDual_boot (s : State) : (raiseDual s).boot = s.boot := by unfold raiseDual; dsimp only; split <;> split <;> simp
@[simp] theorem raiseDual_restart (s : State) : (raiseDual s).restart = s.restart := by unfold raiseDual; dsimp only; split <;> split <;> simp
@[simp] theorem raiseDual_pwr (s : State) : (raiseDual s).pwr = s.pwr := by unfold raiseDual; dsimp only; split <;> split <;> simp
@[simp] theorem raiseDual_drv (s : State) : (raiseDual s).drv = s.drv := by unfold raiseDual; dsimp only; split <;> split <;> simp
@[simp] theorem raiseDual_mon (s : State) : (raiseDual s).mon = s.mon := by unfold raiseDual; dsimp only; split <;> split <;> simp
@[simp] theorem raiseDual_trk (s : State) : (raiseDual s).trk = s.trk := by unfold raiseDual; dsimp only; split <;> split <;> simp
@[simp] theorem raiseDual_hold (s : State) : (raiseDual s).hold = s.hold := by unfold raiseDual; dsimp only; split <;> split <;> simp
@[simp] theorem raiseDual_cal (s : State) : (raiseDual s).cal = s.cal := by unfold raiseDual; dsimp only; split <;> split <;> simp
@[simp] theorem raiseDual_tmu (s : State) : (raiseDual s).tmu = s.tmu := by unfold raiseDual; dsimp only; split <;> split <;> simp
@[simp] theorem raiseDual_eth (s : State) : (raiseDual s).eth = s.eth := by unfold raiseDual; dsimp only; split <;> split <;> simp
@[simp] theorem regrade_pending (s : State) (p : Nat) : (regrade s p).pending = s.pending := by unfold regrade; dsimp only; split <;> simp
@[simp] theorem regrade_mem (s : State) (p : Nat) : (regrade s p).mem = s.mem := by unfold regrade; dsimp only; split <;> simp
@[simp] theorem regrade_slotMem (s : State) (p : Nat) : (regrade s p).slotMem = s.slotMem := by unfold regrade; dsimp only; split <;> simp
@[simp] theorem regrade_now (s : State) (p : Nat) : (regrade s p).now = s.now := by unfold regrade; dsimp only; split <;> simp
@[simp] theorem regrade_rho (s : State) (p : Nat) : (regrade s p).rho = s.rho := by unfold regrade; dsimp only; split <;> simp
@[simp] theorem regrade_up (s : State) (p : Nat) : (regrade s p).up = s.up := by unfold regrade; dsimp only; split <;> simp
@[simp] theorem regrade_draws (s : State) (p : Nat) : (regrade s p).draws = s.draws := by unfold regrade; dsimp only; split <;> simp
@[simp] theorem regrade_pins (s : State) (p : Nat) : (regrade s p).pins = s.pins := by unfold regrade; dsimp only; split <;> simp
@[simp] theorem regrade_flt (s : State) (p : Nat) : (regrade s p).flt = s.flt := by unfold regrade; dsimp only; split <;> simp
@[simp] theorem regrade_hif (s : State) (p : Nat) : (regrade s p).hif = s.hif := by unfold regrade; dsimp only; split <;> simp
@[simp] theorem regrade_dual (s : State) (p : Nat) : (regrade s p).dual = s.dual := by unfold regrade; dsimp only; split <;> simp
@[simp] theorem regrade_spi (s : State) (p : Nat) : (regrade s p).spi = s.spi := by unfold regrade; dsimp only; split <;> simp
@[simp] theorem regrade_mnt (s : State) (p : Nat) : (regrade s p).mnt = s.mnt := by unfold regrade; dsimp only; split <;> simp
@[simp] theorem regrade_bel (s : State) (p : Nat) : (regrade s p).bel = s.bel := by unfold regrade; dsimp only; split <;> simp
@[simp] theorem regrade_thm (s : State) (p : Nat) : (regrade s p).thm = s.thm := by unfold regrade; dsimp only; split <;> simp
@[simp] theorem regrade_boot (s : State) (p : Nat) : (regrade s p).boot = s.boot := by unfold regrade; dsimp only; split <;> simp
@[simp] theorem regrade_restart (s : State) (p : Nat) : (regrade s p).restart = s.restart := by unfold regrade; dsimp only; split <;> simp
@[simp] theorem regrade_pwr (s : State) (p : Nat) : (regrade s p).pwr = s.pwr := by unfold regrade; dsimp only; split <;> simp
@[simp] theorem regrade_drv (s : State) (p : Nat) : (regrade s p).drv = s.drv := by unfold regrade; dsimp only; split <;> simp
@[simp] theorem regrade_mon (s : State) (p : Nat) : (regrade s p).mon = s.mon := by unfold regrade; dsimp only; split <;> simp
@[simp] theorem regrade_trk (s : State) (p : Nat) : (regrade s p).trk = s.trk := by unfold regrade; dsimp only; split <;> simp
@[simp] theorem regrade_hold (s : State) (p : Nat) : (regrade s p).hold = s.hold := by unfold regrade; dsimp only; split <;> simp
@[simp] theorem regrade_cal (s : State) (p : Nat) : (regrade s p).cal = s.cal := by unfold regrade; dsimp only; split <;> simp
@[simp] theorem regrade_tmu (s : State) (p : Nat) : (regrade s p).tmu = s.tmu := by unfold regrade; dsimp only; split <;> simp
@[simp] theorem regrade_eth (s : State) (p : Nat) : (regrade s p).eth = s.eth := by unfold regrade; dsimp only; split <;> simp
@[simp] theorem regradeAll_pending (s : State) : (regradeAll s).pending = s.pending := by simp [regradeAll]
@[simp] theorem regradeAll_mem (s : State) : (regradeAll s).mem = s.mem := by simp [regradeAll]
@[simp] theorem regradeAll_slotMem (s : State) : (regradeAll s).slotMem = s.slotMem := by simp [regradeAll]
@[simp] theorem regradeAll_now (s : State) : (regradeAll s).now = s.now := by simp [regradeAll]
@[simp] theorem regradeAll_rho (s : State) : (regradeAll s).rho = s.rho := by simp [regradeAll]
@[simp] theorem regradeAll_up (s : State) : (regradeAll s).up = s.up := by simp [regradeAll]
@[simp] theorem regradeAll_draws (s : State) : (regradeAll s).draws = s.draws := by simp [regradeAll]
@[simp] theorem regradeAll_pins (s : State) : (regradeAll s).pins = s.pins := by simp [regradeAll]
@[simp] theorem regradeAll_flt (s : State) : (regradeAll s).flt = s.flt := by simp [regradeAll]
@[simp] theorem regradeAll_hif (s : State) : (regradeAll s).hif = s.hif := by simp [regradeAll]
@[simp] theorem regradeAll_dual (s : State) : (regradeAll s).dual = s.dual := by simp [regradeAll]
@[simp] theorem regradeAll_spi (s : State) : (regradeAll s).spi = s.spi := by simp [regradeAll]
@[simp] theorem regradeAll_mnt (s : State) : (regradeAll s).mnt = s.mnt := by simp [regradeAll]
@[simp] theorem regradeAll_bel (s : State) : (regradeAll s).bel = s.bel := by simp [regradeAll]
@[simp] theorem regradeAll_thm (s : State) : (regradeAll s).thm = s.thm := by simp [regradeAll]
@[simp] theorem regradeAll_boot (s : State) : (regradeAll s).boot = s.boot := by simp [regradeAll]
@[simp] theorem regradeAll_restart (s : State) : (regradeAll s).restart = s.restart := by simp [regradeAll]
@[simp] theorem regradeAll_pwr (s : State) : (regradeAll s).pwr = s.pwr := by simp [regradeAll]
@[simp] theorem regradeAll_drv (s : State) : (regradeAll s).drv = s.drv := by simp [regradeAll]
@[simp] theorem regradeAll_mon (s : State) : (regradeAll s).mon = s.mon := by simp [regradeAll]
@[simp] theorem regradeAll_trk (s : State) : (regradeAll s).trk = s.trk := by simp [regradeAll]
@[simp] theorem regradeAll_hold (s : State) : (regradeAll s).hold = s.hold := by simp [regradeAll]
@[simp] theorem regradeAll_cal (s : State) : (regradeAll s).cal = s.cal := by simp [regradeAll]
@[simp] theorem regradeAll_tmu (s : State) : (regradeAll s).tmu = s.tmu := by simp [regradeAll]
@[simp] theorem regradeAll_eth (s : State) : (regradeAll s).eth = s.eth := by simp [regradeAll]

/-! ## sblkTouch -/

@[simp] theorem sblkTouch_pending (s : State) (p : Nat) : (sblkTouch s p).pending = s.pending := by unfold sblkTouch; dsimp only; split <;> simp
@[simp] theorem sblkTouch_regs (s : State) (p : Nat) : (sblkTouch s p).regs = s.regs := by unfold sblkTouch; dsimp only; split <;> simp
@[simp] theorem sblkTouch_mem (s : State) (p : Nat) : (sblkTouch s p).mem = s.mem := by unfold sblkTouch; dsimp only; split <;> simp
@[simp] theorem sblkTouch_slotMem (s : State) (p : Nat) : (sblkTouch s p).slotMem = s.slotMem := by unfold sblkTouch; dsimp only; split <;> simp
@[simp] theorem sblkTouch_now (s : State) (p : Nat) : (sblkTouch s p).now = s.now := by unfold sblkTouch; dsimp only; split <;> simp
@[simp] theorem sblkTouch_rho (s : State) (p : Nat) : (sblkTouch s p).rho = s.rho := by unfold sblkTouch; dsimp only; split <;> simp
@[simp] theorem sblkTouch_up (s : State) (p : Nat) : (sblkTouch s p).up = s.up := by unfold sblkTouch; dsimp only; split <;> simp
@[simp] theorem sblkTouch_draws (s : State) (p : Nat) : (sblkTouch s p).draws = s.draws := by unfold sblkTouch; dsimp only; split <;> simp
@[simp] theorem sblkTouch_out (s : State) (p : Nat) : (sblkTouch s p).out = s.out := by unfold sblkTouch; dsimp only; split <;> simp
@[simp] theorem sblkTouch_pins (s : State) (p : Nat) : (sblkTouch s p).pins = s.pins := by unfold sblkTouch; dsimp only; split <;> simp
@[simp] theorem sblkTouch_flt (s : State) (p : Nat) : (sblkTouch s p).flt = s.flt := by unfold sblkTouch; dsimp only; split <;> simp
@[simp] theorem sblkTouch_dual (s : State) (p : Nat) : (sblkTouch s p).dual = s.dual := by unfold sblkTouch; dsimp only; split <;> simp
@[simp] theorem sblkTouch_spi (s : State) (p : Nat) : (sblkTouch s p).spi = s.spi := by unfold sblkTouch; dsimp only; split <;> simp
@[simp] theorem sblkTouch_mnt (s : State) (p : Nat) : (sblkTouch s p).mnt = s.mnt := by unfold sblkTouch; dsimp only; split <;> simp
@[simp] theorem sblkTouch_bel (s : State) (p : Nat) : (sblkTouch s p).bel = s.bel := by unfold sblkTouch; dsimp only; split <;> simp
@[simp] theorem sblkTouch_thm (s : State) (p : Nat) : (sblkTouch s p).thm = s.thm := by unfold sblkTouch; dsimp only; split <;> simp
@[simp] theorem sblkTouch_boot (s : State) (p : Nat) : (sblkTouch s p).boot = s.boot := by unfold sblkTouch; dsimp only; split <;> simp
@[simp] theorem sblkTouch_restart (s : State) (p : Nat) : (sblkTouch s p).restart = s.restart := by unfold sblkTouch; dsimp only; split <;> simp
@[simp] theorem sblkTouch_pwr (s : State) (p : Nat) : (sblkTouch s p).pwr = s.pwr := by unfold sblkTouch; dsimp only; split <;> simp
@[simp] theorem sblkTouch_drv (s : State) (p : Nat) : (sblkTouch s p).drv = s.drv := by unfold sblkTouch; dsimp only; split <;> simp
@[simp] theorem sblkTouch_mon (s : State) (p : Nat) : (sblkTouch s p).mon = s.mon := by unfold sblkTouch; dsimp only; split <;> simp
@[simp] theorem sblkTouch_trk (s : State) (p : Nat) : (sblkTouch s p).trk = s.trk := by unfold sblkTouch; dsimp only; split <;> simp
@[simp] theorem sblkTouch_hold (s : State) (p : Nat) : (sblkTouch s p).hold = s.hold := by unfold sblkTouch; dsimp only; split <;> simp
@[simp] theorem sblkTouch_cal (s : State) (p : Nat) : (sblkTouch s p).cal = s.cal := by unfold sblkTouch; dsimp only; split <;> simp
@[simp] theorem sblkTouch_tmu (s : State) (p : Nat) : (sblkTouch s p).tmu = s.tmu := by unfold sblkTouch; dsimp only; split <;> simp
@[simp] theorem sblkTouch_eth (s : State) (p : Nat) : (sblkTouch s p).eth = s.eth := by unfold sblkTouch; dsimp only; split <;> simp

/-! ## writeRec -/

@[simp] theorem writeRec_pending (s : State) (r : Rec) : (writeRec s r).pending = s.pending := by unfold writeRec; dsimp only; split <;> split <;> simp
@[simp] theorem writeRec_mem (s : State) (r : Rec) : (writeRec s r).mem = s.mem := by unfold writeRec; dsimp only; split <;> split <;> simp
@[simp] theorem writeRec_slotMem (s : State) (r : Rec) : (writeRec s r).slotMem = s.slotMem := by unfold writeRec; dsimp only; split <;> split <;> simp
@[simp] theorem writeRec_now (s : State) (r : Rec) : (writeRec s r).now = s.now := by unfold writeRec; dsimp only; split <;> split <;> simp
@[simp] theorem writeRec_rho (s : State) (r : Rec) : (writeRec s r).rho = s.rho := by unfold writeRec; dsimp only; split <;> split <;> simp
@[simp] theorem writeRec_up (s : State) (r : Rec) : (writeRec s r).up = s.up := by unfold writeRec; dsimp only; split <;> split <;> simp
@[simp] theorem writeRec_draws (s : State) (r : Rec) : (writeRec s r).draws = s.draws := by unfold writeRec; dsimp only; split <;> split <;> simp
@[simp] theorem writeRec_pins (s : State) (r : Rec) : (writeRec s r).pins = s.pins := by unfold writeRec; dsimp only; split <;> split <;> simp
@[simp] theorem writeRec_flt (s : State) (r : Rec) : (writeRec s r).flt = s.flt := by unfold writeRec; dsimp only; split <;> split <;> simp
@[simp] theorem writeRec_dual (s : State) (r : Rec) : (writeRec s r).dual = s.dual := by unfold writeRec; dsimp only; split <;> split <;> simp
@[simp] theorem writeRec_mnt (s : State) (r : Rec) : (writeRec s r).mnt = s.mnt := by unfold writeRec; dsimp only; split <;> split <;> simp
@[simp] theorem writeRec_bel (s : State) (r : Rec) : (writeRec s r).bel = s.bel := by unfold writeRec; dsimp only; split <;> split <;> simp
@[simp] theorem writeRec_thm (s : State) (r : Rec) : (writeRec s r).thm = s.thm := by unfold writeRec; dsimp only; split <;> split <;> simp
@[simp] theorem writeRec_boot (s : State) (r : Rec) : (writeRec s r).boot = s.boot := by unfold writeRec; dsimp only; split <;> split <;> simp
@[simp] theorem writeRec_restart (s : State) (r : Rec) : (writeRec s r).restart = s.restart := by unfold writeRec; dsimp only; split <;> split <;> simp
@[simp] theorem writeRec_pwr (s : State) (r : Rec) : (writeRec s r).pwr = s.pwr := by unfold writeRec; dsimp only; split <;> split <;> simp
@[simp] theorem writeRec_drv (s : State) (r : Rec) : (writeRec s r).drv = s.drv := by unfold writeRec; dsimp only; split <;> split <;> simp
@[simp] theorem writeRec_mon (s : State) (r : Rec) : (writeRec s r).mon = s.mon := by unfold writeRec; dsimp only; split <;> split <;> simp
@[simp] theorem writeRec_trk (s : State) (r : Rec) : (writeRec s r).trk = s.trk := by unfold writeRec; dsimp only; split <;> split <;> simp
@[simp] theorem writeRec_hold (s : State) (r : Rec) : (writeRec s r).hold = s.hold := by unfold writeRec; dsimp only; split <;> split <;> simp
@[simp] theorem writeRec_cal (s : State) (r : Rec) : (writeRec s r).cal = s.cal := by unfold writeRec; dsimp only; split <;> split <;> simp
@[simp] theorem writeRec_tmu (s : State) (r : Rec) : (writeRec s r).tmu = s.tmu := by unfold writeRec; dsimp only; split <;> split <;> simp
@[simp] theorem writeRec_eth (s : State) (r : Rec) : (writeRec s r).eth = s.eth := by unfold writeRec; dsimp only; split <;> split <;> simp

/-! ## pushRec -/

@[simp] theorem pushRec_pending (s : State) (r : Rec) : (pushRec s r).pending = s.pending := by
  unfold pushRec; dsimp only; repeat' split
  all_goals simp
@[simp] theorem pushRec_mem (s : State) (r : Rec) : (pushRec s r).mem = s.mem := by
  unfold pushRec; dsimp only; repeat' split
  all_goals simp
@[simp] theorem pushRec_slotMem (s : State) (r : Rec) : (pushRec s r).slotMem = s.slotMem := by
  unfold pushRec; dsimp only; repeat' split
  all_goals simp
@[simp] theorem pushRec_now (s : State) (r : Rec) : (pushRec s r).now = s.now := by
  unfold pushRec; dsimp only; repeat' split
  all_goals simp
@[simp] theorem pushRec_rho (s : State) (r : Rec) : (pushRec s r).rho = s.rho := by
  unfold pushRec; dsimp only; repeat' split
  all_goals simp
@[simp] theorem pushRec_up (s : State) (r : Rec) : (pushRec s r).up = s.up := by
  unfold pushRec; dsimp only; repeat' split
  all_goals simp
@[simp] theorem pushRec_draws (s : State) (r : Rec) : (pushRec s r).draws = s.draws := by
  unfold pushRec; dsimp only; repeat' split
  all_goals simp
@[simp] theorem pushRec_pins (s : State) (r : Rec) : (pushRec s r).pins = s.pins := by
  unfold pushRec; dsimp only; repeat' split
  all_goals simp
@[simp] theorem pushRec_flt (s : State) (r : Rec) : (pushRec s r).flt = s.flt := by
  unfold pushRec; dsimp only; repeat' split
  all_goals simp
@[simp] theorem pushRec_dual (s : State) (r : Rec) : (pushRec s r).dual = s.dual := by
  unfold pushRec; dsimp only; repeat' split
  all_goals simp
@[simp] theorem pushRec_mnt (s : State) (r : Rec) : (pushRec s r).mnt = s.mnt := by
  unfold pushRec; dsimp only; repeat' split
  all_goals simp
@[simp] theorem pushRec_bel (s : State) (r : Rec) : (pushRec s r).bel = s.bel := by
  unfold pushRec; dsimp only; repeat' split
  all_goals simp
@[simp] theorem pushRec_thm (s : State) (r : Rec) : (pushRec s r).thm = s.thm := by
  unfold pushRec; dsimp only; repeat' split
  all_goals simp
@[simp] theorem pushRec_boot (s : State) (r : Rec) : (pushRec s r).boot = s.boot := by
  unfold pushRec; dsimp only; repeat' split
  all_goals simp
@[simp] theorem pushRec_restart (s : State) (r : Rec) : (pushRec s r).restart = s.restart := by
  unfold pushRec; dsimp only; repeat' split
  all_goals simp
@[simp] theorem pushRec_pwr (s : State) (r : Rec) : (pushRec s r).pwr = s.pwr := by
  unfold pushRec; dsimp only; repeat' split
  all_goals simp
@[simp] theorem pushRec_drv (s : State) (r : Rec) : (pushRec s r).drv = s.drv := by
  unfold pushRec; dsimp only; repeat' split
  all_goals simp
@[simp] theorem pushRec_mon (s : State) (r : Rec) : (pushRec s r).mon = s.mon := by
  unfold pushRec; dsimp only; repeat' split
  all_goals simp
@[simp] theorem pushRec_trk (s : State) (r : Rec) : (pushRec s r).trk = s.trk := by
  unfold pushRec; dsimp only; repeat' split
  all_goals simp
@[simp] theorem pushRec_hold (s : State) (r : Rec) : (pushRec s r).hold = s.hold := by
  unfold pushRec; dsimp only; repeat' split
  all_goals simp
@[simp] theorem pushRec_cal (s : State) (r : Rec) : (pushRec s r).cal = s.cal := by
  unfold pushRec; dsimp only; repeat' split
  all_goals simp
@[simp] theorem pushRec_tmu (s : State) (r : Rec) : (pushRec s r).tmu = s.tmu := by
  unfold pushRec; dsimp only; repeat' split
  all_goals simp
@[simp] theorem pushRec_eth (s : State) (r : Rec) : (pushRec s r).eth = s.eth := by
  unfold pushRec; dsimp only; repeat' split
  all_goals simp

/-! ## settleOuts -/

@[simp] theorem settleOuts_regs (s t : State) : (settleOuts s t).regs = t.regs := rfl
@[simp] theorem settleOuts_mem (s t : State) : (settleOuts s t).mem = t.mem := rfl
@[simp] theorem settleOuts_slotMem (s t : State) : (settleOuts s t).slotMem = t.slotMem := rfl
@[simp] theorem settleOuts_now (s t : State) : (settleOuts s t).now = t.now := rfl
@[simp] theorem settleOuts_rho (s t : State) : (settleOuts s t).rho = t.rho := rfl
@[simp] theorem settleOuts_up (s t : State) : (settleOuts s t).up = t.up := rfl
@[simp] theorem settleOuts_draws (s t : State) : (settleOuts s t).draws = t.draws := rfl
@[simp] theorem settleOuts_out (s t : State) : (settleOuts s t).out = t.out := rfl
@[simp] theorem settleOuts_flt (s t : State) : (settleOuts s t).flt = t.flt := rfl
@[simp] theorem settleOuts_hif (s t : State) : (settleOuts s t).hif = t.hif := rfl
@[simp] theorem settleOuts_dual (s t : State) : (settleOuts s t).dual = t.dual := rfl
@[simp] theorem settleOuts_spi (s t : State) : (settleOuts s t).spi = t.spi := rfl
@[simp] theorem settleOuts_mnt (s t : State) : (settleOuts s t).mnt = t.mnt := rfl
@[simp] theorem settleOuts_bel (s t : State) : (settleOuts s t).bel = t.bel := rfl
@[simp] theorem settleOuts_thm (s t : State) : (settleOuts s t).thm = t.thm := rfl
@[simp] theorem settleOuts_boot (s t : State) : (settleOuts s t).boot = t.boot := rfl
@[simp] theorem settleOuts_restart (s t : State) : (settleOuts s t).restart = t.restart := rfl
@[simp] theorem settleOuts_pwr (s t : State) : (settleOuts s t).pwr = t.pwr := rfl
@[simp] theorem settleOuts_drv (s t : State) : (settleOuts s t).drv = t.drv := rfl
@[simp] theorem settleOuts_mon (s t : State) : (settleOuts s t).mon = t.mon := rfl
@[simp] theorem settleOuts_trk (s t : State) : (settleOuts s t).trk = t.trk := rfl
@[simp] theorem settleOuts_hold (s t : State) : (settleOuts s t).hold = t.hold := rfl
@[simp] theorem settleOuts_cal (s t : State) : (settleOuts s t).cal = t.cal := rfl
@[simp] theorem settleOuts_tmu (s t : State) : (settleOuts s t).tmu = t.tmu := rfl
@[simp] theorem settleOuts_eth (s t : State) : (settleOuts s t).eth = t.eth := rfl

@[simp] theorem settleOuts_pending (s t : State) : (settleOuts s t).pending = s.pending := rfl

end Sys2Proof.Machine
end

