-- ==== Sys2Proof/Laws/Bus.lean ====
section
/-! SUPPORT. What a write that reaches its register does: one law for the crossbar and one per register that has a row of its
own. -/

set_option linter.unusedTactic false
set_option linter.unusedSimpArgs false

namespace Sys2Proof.Machine

/-- A full-word write that reaches a register is what the register's block does with it. -/
theorem busWrite_reaches {s : State} {m : Master} {a v : Nat} (h : Reaches s m a) (h4 : a % 4 = 0) (ht : inTarget a = true)
    (hr : (findReg a).isSome = true) (hs : a < 0x800000) (hw : ¬ (0x300000 ≤ a ∧ 0x1000 ≤ a % 0x4000)) :
    busWrite s m a v 15 = regWrite s m a v := by
  obtain ⟨h1, h2, h3⟩ := h
  have ha : a / 4 * 4 = a := by omega
  have hn : (findReg a).isNone = false := by rw [Option.isNone_eq_false_iff]; exact hr
  unfold busWrite
  simp only [ha]
  rw [if_neg (fun h => by simp [h1 h.1] at h), if_neg (by simp [ht]), if_neg (by decide), if_neg (by simp [h2, inSram]; omega), if_neg hw,
    if_neg (by simp [hn, h3])]

/-- The target ranges of the register blocks. -/
theorem inTarget_low {a : Nat} (h : a ≤ 0x0DFFFF) : inTarget a = true := by
  simp only [inTarget, h, decide_true, Bool.true_or]
theorem inTarget_drv {a : Nat} (h1 : 0x100000 ≤ a) (h2 : a ≤ 0x15FFFF) : inTarget a = true := by
  simp only [inTarget, h1, h2, and_self, decide_true, Bool.true_or, Bool.or_true]
theorem inTarget_mon {a : Nat} (h1 : 0x200000 ≤ a) (h2 : a ≤ 0x25FFFF) : inTarget a = true := by
  simp only [inTarget, h1, h2, and_self, decide_true, Bool.true_or, Bool.or_true]
theorem inTarget_trk {a : Nat} (h1 : 0x300000 ≤ a) (h2 : a ≤ 0x48FFFF) : inTarget a = true := by
  simp only [inTarget, h1, h2, and_self, decide_true, Bool.true_or, Bool.or_true]

/-- A register exists where its row says so. -/
theorem findReg_of {a : Nat} {l : List RegRow} (row : RegRow) (hb : blockRows a = l) (hm : row ∈ l) (hr : rowHas row a = true) :
    (findReg a).isSome = true := by
  unfold findReg; rw [hb, List.find?_isSome]; exact ⟨row, hm, hr⟩

theorem blockRows_drv {a : Nat} (h1 : 0x100000 ≤ a) (h2 : a < 0x160000) : blockRows a = regRowsDrv := by
  have h : a / 0x10000 = 0x10 ∨ a / 0x10000 = 0x11 ∨ a / 0x10000 = 0x12 ∨ a / 0x10000 = 0x13 ∨ a / 0x10000 = 0x14 ∨ a / 0x10000 = 0x15 := by
    omega
  unfold blockRows
  rcases h with h | h | h | h | h | h <;> rw [h] <;> rfl

theorem blockRows_mon {a : Nat} (h1 : 0x200000 ≤ a) (h2 : a < 0x260000) : blockRows a = regRowsMon := by
  have h : a / 0x10000 = 0x20 ∨ a / 0x10000 = 0x21 ∨ a / 0x10000 = 0x22 ∨ a / 0x10000 = 0x23 ∨ a / 0x10000 = 0x24 ∨ a / 0x10000 = 0x25 := by
    omega
  unfold blockRows
  rcases h with h | h | h | h | h | h <;> rw [h] <;> rfl

theorem blockRows_trk {a : Nat} (h1 : 0x300000 ≤ a) (h2 : a < 0x490000) : blockRows a = regRowsTrk := by
  have h : ∃ d, d < 25 ∧ a / 0x10000 = 0x30 + d := ⟨a / 0x10000 - 0x30, by omega, by omega⟩
  obtain ⟨d, hd, h⟩ := h
  unfold blockRows
  rw [h]
  interval_cases d <;> rfl

theorem findReg_HIF_DUAL_CTRL : (findReg Reg.HIF_DUAL_CTRL).isSome = true := by decide

theorem exec_modeWrite (m : Master) (v : BitVec 32) (s : State) (h : Reaches s m (Reg.HIF_DUAL_CTRL)) :
    exec (.modeWrite m v) s = done s (dualCtrlWrite s v.toNat) := by
  change done s (busWrite s m (Reg.HIF_DUAL_CTRL) v.toNat 15) = _
  have hr := findReg_HIF_DUAL_CTRL
  generalize ha : Reg.HIF_DUAL_CTRL = a at *
  simp only [Reg.HIF_DUAL_CTRL] at ha
  rw [busWrite_reaches h (by omega) (inTarget_low (by omega)) hr (by omega) (by omega)]
  refine congrArg (done s) ?_
  unfold regWrite
  try dsimp only
  repeat first
    | with_reducible refine (if_neg (by (try simp only [Reg.HIF_HALT]); omega)).trans ?_
    | with_reducible refine (if_pos (by (try simp only [Reg.HIF_HALT]); omega)).trans ?_
  unfold dualWrite
  try dsimp only
  repeat first
    | with_reducible refine (if_neg (by (try simp only [Reg.HIF_DUAL_CMD, Reg.HIF_DUAL_CTRL, Reg.HIF_PRECEDENCE]); omega)).trans ?_
    | with_reducible refine (if_pos (by (try simp only [Reg.HIF_DUAL_CMD, Reg.HIF_DUAL_CTRL, Reg.HIF_PRECEDENCE]); omega)).trans ?_
  try rfl

theorem findReg_HIF_DUAL_CMD : (findReg Reg.HIF_DUAL_CMD).isSome = true := by decide

theorem exec_promote (m : Master) (v : BitVec 32) (s : State) (h : Reaches s m (Reg.HIF_DUAL_CMD)) :
    exec (.promote m v) s = done s (dualCmd s v.toNat) := by
  change done s (busWrite s m (Reg.HIF_DUAL_CMD) v.toNat 15) = _
  have hr := findReg_HIF_DUAL_CMD
  generalize ha : Reg.HIF_DUAL_CMD = a at *
  simp only [Reg.HIF_DUAL_CMD] at ha
  rw [busWrite_reaches h (by omega) (inTarget_low (by omega)) hr (by omega) (by omega)]
  refine congrArg (done s) ?_
  unfold regWrite
  try dsimp only
  repeat first
    | with_reducible refine (if_neg (by (try simp only [Reg.HIF_HALT]); omega)).trans ?_
    | with_reducible refine (if_pos (by (try simp only [Reg.HIF_HALT]); omega)).trans ?_
  unfold dualWrite
  try dsimp only
  repeat first
    | with_reducible refine (if_neg (by (try simp only [Reg.HIF_DUAL_CMD, Reg.HIF_DUAL_CTRL, Reg.HIF_PRECEDENCE]); omega)).trans ?_
    | with_reducible refine (if_pos (by (try simp only [Reg.HIF_DUAL_CMD, Reg.HIF_DUAL_CTRL, Reg.HIF_PRECEDENCE]); omega)).trans ?_
  try rfl

theorem exec_cardClr (m : Master) (v : BitVec 32) (s : State) (h : Reaches s m (Reg.HIF_DUAL_CMD)) :
    exec (.cardClr m v) s = done s (dualCmd s v.toNat) := by
  change done s (busWrite s m (Reg.HIF_DUAL_CMD) v.toNat 15) = _
  have hr := findReg_HIF_DUAL_CMD
  generalize ha : Reg.HIF_DUAL_CMD = a at *
  simp only [Reg.HIF_DUAL_CMD] at ha
  rw [busWrite_reaches h (by omega) (inTarget_low (by omega)) hr (by omega) (by omega)]
  refine congrArg (done s) ?_
  unfold regWrite
  try dsimp only
  repeat first
    | with_reducible refine (if_neg (by (try simp only [Reg.HIF_HALT]); omega)).trans ?_
    | with_reducible refine (if_pos (by (try simp only [Reg.HIF_HALT]); omega)).trans ?_
  unfold dualWrite
  try dsimp only
  repeat first
    | with_reducible refine (if_neg (by (try simp only [Reg.HIF_DUAL_CMD, Reg.HIF_DUAL_CTRL, Reg.HIF_PRECEDENCE]); omega)).trans ?_
    | with_reducible refine (if_pos (by (try simp only [Reg.HIF_DUAL_CMD, Reg.HIF_DUAL_CTRL, Reg.HIF_PRECEDENCE]); omega)).trans ?_
  try rfl

theorem findReg_HIF_HALT : (findReg Reg.HIF_HALT).isSome = true := by decide

theorem exec_hifHalt (m : Master) (v : BitVec 32) (s : State) (h : Reaches s m (Reg.HIF_HALT)) :
    exec (.hifHalt m v) s = done s (haltWrite s m v.toNat) := by
  change done s (busWrite s m (Reg.HIF_HALT) v.toNat 15) = _
  have hr := findReg_HIF_HALT
  generalize ha : Reg.HIF_HALT = a at *
  simp only [Reg.HIF_HALT] at ha
  rw [busWrite_reaches h (by omega) (inTarget_low (by omega)) hr (by omega) (by omega)]
  refine congrArg (done s) ?_
  unfold regWrite
  try dsimp only
  repeat first
    | with_reducible refine (if_neg (by (try simp only [Reg.HIF_HALT]); omega)).trans ?_
    | with_reducible refine (if_pos (by (try simp only [Reg.HIF_HALT]); omega)).trans ?_
  try rfl

theorem findReg_HIF_RING_CFG : ∀ (p : Fin 2) (r : Fin 16), (findReg (Reg.HIF_RING_CFG p r)).isSome = true := by decide

theorem exec_ringEnSet (m : Master) (p : Fin 2) (r : Fin 16) (v : BitVec 32) (s : State) (h : Reaches s m (Reg.HIF_RING_CFG p r)) :
    exec (.ringEnSet m p r v) s = done s (ringCfgWrite s m p r v.toNat) := by
  change done s (busWrite s m (Reg.HIF_RING_CFG p r) v.toNat 15) = _
  have hr := findReg_HIF_RING_CFG p r
  generalize ha : Reg.HIF_RING_CFG p r = a at *
  simp only [Reg.HIF_RING_CFG] at ha
  have f0 : (a - 0x010000) % 0x4000 = 0x110 + 0x40 * r := by omega
  have e0 : (a - 0x010000) / 0x4000 = p := by omega
  have e1 : ((a - 0x010000) % 0x4000 - 0x100) / 0x40 = r := by rw [f0]; clear f0 ha e0; omega
  rw [busWrite_reaches h (by omega) (inTarget_low (by omega)) hr (by omega) (by omega)]
  refine congrArg (done s) ?_
  unfold regWrite
  try dsimp only
  repeat first
    | with_reducible refine (if_neg (by (try simp only [Reg.HIF_HALT]); omega)).trans ?_
    | with_reducible refine (if_pos (by (try simp only [Reg.HIF_HALT]); omega)).trans ?_
  unfold hifWrite
  try dsimp only
  repeat first
    | with_reducible refine (if_neg (by omega)).trans ?_
    | with_reducible refine (if_pos (by omega)).trans ?_
  rw [e0, e1]

theorem exec_ringEnClear (m : Master) (p : Fin 2) (r : Fin 16) (v : BitVec 32) (s : State) (h : Reaches s m (Reg.HIF_RING_CFG p r)) :
    exec (.ringEnClear m p r v) s = done s (ringCfgWrite s m p r v.toNat) := by
  change done s (busWrite s m (Reg.HIF_RING_CFG p r) v.toNat 15) = _
  have hr := findReg_HIF_RING_CFG p r
  generalize ha : Reg.HIF_RING_CFG p r = a at *
  simp only [Reg.HIF_RING_CFG] at ha
  have f0 : (a - 0x010000) % 0x4000 = 0x110 + 0x40 * r := by omega
  have e0 : (a - 0x010000) / 0x4000 = p := by omega
  have e1 : ((a - 0x010000) % 0x4000 - 0x100) / 0x40 = r := by rw [f0]; clear f0 ha e0; omega
  rw [busWrite_reaches h (by omega) (inTarget_low (by omega)) hr (by omega) (by omega)]
  refine congrArg (done s) ?_
  unfold regWrite
  try dsimp only
  repeat first
    | with_reducible refine (if_neg (by (try simp only [Reg.HIF_HALT]); omega)).trans ?_
    | with_reducible refine (if_pos (by (try simp only [Reg.HIF_HALT]); omega)).trans ?_
  unfold hifWrite
  try dsimp only
  repeat first
    | with_reducible refine (if_neg (by omega)).trans ?_
    | with_reducible refine (if_pos (by omega)).trans ?_
  rw [e0, e1]

theorem findReg_HIF_PCNT_CLR : ∀ (p : Fin 2), (findReg (Reg.HIF_PCNT_CLR p)).isSome = true := by decide

theorem exec_hifPcntClr (m : Master) (p : Fin 2) (v : BitVec 32) (s : State) (h : Reaches s m (Reg.HIF_PCNT_CLR p)) :
    exec (.hifPcntClr m p v) s = done s (pcntClear s p v.toNat) := by
  change done s (busWrite s m (Reg.HIF_PCNT_CLR p) v.toNat 15) = _
  have hr := findReg_HIF_PCNT_CLR p
  generalize ha : Reg.HIF_PCNT_CLR p = a at *
  simp only [Reg.HIF_PCNT_CLR] at ha
  have e0 : (a - 0x010000) / 0x4000 = p := by omega
  rw [busWrite_reaches h (by omega) (inTarget_low (by omega)) hr (by omega) (by omega)]
  refine congrArg (done s) ?_
  unfold regWrite
  try dsimp only
  repeat first
    | with_reducible refine (if_neg (by (try simp only [Reg.HIF_HALT]); omega)).trans ?_
    | with_reducible refine (if_pos (by (try simp only [Reg.HIF_HALT]); omega)).trans ?_
  unfold hifWrite
  try dsimp only
  repeat first
    | with_reducible refine (if_neg (by omega)).trans ?_
    | with_reducible refine (if_pos (by omega)).trans ?_
  rw [e0]

theorem exec_hifPcntClrRing (m : Master) (p : Fin 2) (v : BitVec 32) (s : State) (h : Reaches s m (Reg.HIF_PCNT_CLR p)) :
    exec (.hifPcntClrRing m p v) s = done s (pcntClear s p v.toNat) := by
  change done s (busWrite s m (Reg.HIF_PCNT_CLR p) v.toNat 15) = _
  have hr := findReg_HIF_PCNT_CLR p
  generalize ha : Reg.HIF_PCNT_CLR p = a at *
  simp only [Reg.HIF_PCNT_CLR] at ha
  have e0 : (a - 0x010000) / 0x4000 = p := by omega
  rw [busWrite_reaches h (by omega) (inTarget_low (by omega)) hr (by omega) (by omega)]
  refine congrArg (done s) ?_
  unfold regWrite
  try dsimp only
  repeat first
    | with_reducible refine (if_neg (by (try simp only [Reg.HIF_HALT]); omega)).trans ?_
    | with_reducible refine (if_pos (by (try simp only [Reg.HIF_HALT]); omega)).trans ?_
  unfold hifWrite
  try dsimp only
  repeat first
    | with_reducible refine (if_neg (by omega)).trans ?_
    | with_reducible refine (if_pos (by omega)).trans ?_
  rw [e0]

theorem findReg_DRV_CTRL (t : Fin 96) : (findReg (Reg.DRV_CTRL t)).isSome = true := by
  have e : ∃ row ∈ regRowsDrv, row.base = 0x100000 ∧ row.dims = [(0x1000, 96)] := by decide
  obtain ⟨row, hm, hb, hd⟩ := e
  refine findReg_of row (blockRows_drv (by simp only [Reg.DRV_CTRL]; omega) (by simp only [Reg.DRV_CTRL]; omega)) hm ?_
  simp only [rowHas, hb, hd, inDims, Reg.DRV_CTRL, Bool.and_eq_true, decide_eq_true_eq]
  omega

theorem exec_drvEnable (m : Master) (t : Fin 96) (v : BitVec 32) (s : State) (h : Reaches s m (Reg.DRV_CTRL t)) :
    exec (.drvEnable m t v) s = done s (afterRelease s (drvCtrlWrite s t v.toNat) t) := by
  change done s (busWrite s m (Reg.DRV_CTRL t) v.toNat 15) = _
  have hr := findReg_DRV_CTRL t
  generalize ha : Reg.DRV_CTRL t = a at *
  simp only [Reg.DRV_CTRL] at ha
  have e0 : (a - 0x100000) / 0x1000 = t := by omega
  rw [busWrite_reaches h (by omega) (inTarget_drv (by omega) (by omega)) hr (by omega) (by omega)]
  refine congrArg (done s) ?_
  unfold regWrite
  try dsimp only
  repeat first
    | with_reducible refine (if_neg (by (try simp only [Reg.HIF_HALT]); omega)).trans ?_
    | with_reducible refine (if_pos (by (try simp only [Reg.HIF_HALT]); omega)).trans ?_
  unfold drvWrite
  try dsimp only
  repeat first
    | with_reducible refine (if_neg (by omega)).trans ?_
    | with_reducible refine (if_pos (by omega)).trans ?_
  rw [e0]

theorem exec_drvRelease (m : Master) (t : Fin 96) (v : BitVec 32) (s : State) (h : Reaches s m (Reg.DRV_CTRL t)) :
    exec (.drvRelease m t v) s = done s (afterRelease s (drvCtrlWrite s t v.toNat) t) := by
  change done s (busWrite s m (Reg.DRV_CTRL t) v.toNat 15) = _
  have hr := findReg_DRV_CTRL t
  generalize ha : Reg.DRV_CTRL t = a at *
  simp only [Reg.DRV_CTRL] at ha
  have e0 : (a - 0x100000) / 0x1000 = t := by omega
  rw [busWrite_reaches h (by omega) (inTarget_drv (by omega) (by omega)) hr (by omega) (by omega)]
  refine congrArg (done s) ?_
  unfold regWrite
  try dsimp only
  repeat first
    | with_reducible refine (if_neg (by (try simp only [Reg.HIF_HALT]); omega)).trans ?_
    | with_reducible refine (if_pos (by (try simp only [Reg.HIF_HALT]); omega)).trans ?_
  unfold drvWrite
  try dsimp only
  repeat first
    | with_reducible refine (if_neg (by omega)).trans ?_
    | with_reducible refine (if_pos (by omega)).trans ?_
  rw [e0]

theorem exec_manual (m : Master) (t : Fin 96) (v : BitVec 32) (s : State) (h : Reaches s m (Reg.DRV_CTRL t)) :
    exec (.manual m t v) s = done s (afterRelease s (drvCtrlWrite s t v.toNat) t) := by
  change done s (busWrite s m (Reg.DRV_CTRL t) v.toNat 15) = _
  have hr := findReg_DRV_CTRL t
  generalize ha : Reg.DRV_CTRL t = a at *
  simp only [Reg.DRV_CTRL] at ha
  have e0 : (a - 0x100000) / 0x1000 = t := by omega
  rw [busWrite_reaches h (by omega) (inTarget_drv (by omega) (by omega)) hr (by omega) (by omega)]
  refine congrArg (done s) ?_
  unfold regWrite
  try dsimp only
  repeat first
    | with_reducible refine (if_neg (by (try simp only [Reg.HIF_HALT]); omega)).trans ?_
    | with_reducible refine (if_pos (by (try simp only [Reg.HIF_HALT]); omega)).trans ?_
  unfold drvWrite
  try dsimp only
  repeat first
    | with_reducible refine (if_neg (by omega)).trans ?_
    | with_reducible refine (if_pos (by omega)).trans ?_
  rw [e0]

theorem findReg_DRV_CH_CODE (t : Fin 96) (c : Fin 128) : (findReg (Reg.DRV_CH_CODE t c)).isSome = true := by
  have e : ∃ row ∈ regRowsDrv, row.base = 0x100400 ∧ row.dims = [(0x1000, 96), (0x4, 128)] := by decide
  obtain ⟨row, hm, hb, hd⟩ := e
  refine findReg_of row (blockRows_drv (by simp only [Reg.DRV_CH_CODE]; omega) (by simp only [Reg.DRV_CH_CODE]; omega)) hm ?_
  simp only [rowHas, hb, hd, inDims, Reg.DRV_CH_CODE, Bool.and_eq_true, decide_eq_true_eq]
  omega

theorem exec_pendingRegisterWrite (m : Master) (t : Fin 96) (c : Fin 128) (v : BitVec 32) (s : State) (h : Reaches s m (Reg.DRV_CH_CODE t c)) :
    exec (.pendingRegisterWrite m t c v) s = done s (pendHost s m (128 * t + c) v.toNat) := by
  change done s (busWrite s m (Reg.DRV_CH_CODE t c) v.toNat 15) = _
  have hr := findReg_DRV_CH_CODE t c
  generalize ha : Reg.DRV_CH_CODE t c = a at *
  simp only [Reg.DRV_CH_CODE] at ha
  have f0 : a % 0x1000 = 0x400 + 4 * c := by omega
  have e0 : (a - 0x100000) / 0x1000 = t := by omega
  have e1 : (a % 0x1000 - 0x400) / 4 = c := by rw [f0]; clear f0 ha e0; omega
  rw [busWrite_reaches h (by omega) (inTarget_drv (by omega) (by omega)) hr (by omega) (by omega)]
  refine congrArg (done s) ?_
  unfold regWrite
  try dsimp only
  repeat first
    | with_reducible refine (if_neg (by (try simp only [Reg.HIF_HALT]); omega)).trans ?_
    | with_reducible refine (if_pos (by (try simp only [Reg.HIF_HALT]); omega)).trans ?_
  unfold drvWrite
  try dsimp only
  repeat first
    | with_reducible refine (if_neg (by omega)).trans ?_
    | with_reducible refine (if_pos (by omega)).trans ?_
  rw [e0, e1]

theorem findReg_DRV_LOAD (t : Fin 96) : (findReg (Reg.DRV_LOAD t)).isSome = true := by
  have e : ∃ row ∈ regRowsDrv, row.base = 0x10001C ∧ row.dims = [(0x1000, 96)] := by decide
  obtain ⟨row, hm, hb, hd⟩ := e
  refine findReg_of row (blockRows_drv (by simp only [Reg.DRV_LOAD]; omega) (by simp only [Reg.DRV_LOAD]; omega)) hm ?_
  simp only [rowHas, hb, hd, inDims, Reg.DRV_LOAD, Bool.and_eq_true, decide_eq_true_eq]
  omega

theorem exec_drvLoad (m : Master) (t : Fin 96) (v : BitVec 32) (s : State) (h : Reaches s m (Reg.DRV_LOAD t)) :
    exec (.drvLoad m t v) s = done s (loadWrite s t v.toNat) := by
  change done s (busWrite s m (Reg.DRV_LOAD t) v.toNat 15) = _
  have hr := findReg_DRV_LOAD t
  generalize ha : Reg.DRV_LOAD t = a at *
  simp only [Reg.DRV_LOAD] at ha
  have e0 : (a - 0x100000) / 0x1000 = t := by omega
  rw [busWrite_reaches h (by omega) (inTarget_drv (by omega) (by omega)) hr (by omega) (by omega)]
  refine congrArg (done s) ?_
  unfold regWrite
  try dsimp only
  repeat first
    | with_reducible refine (if_neg (by (try simp only [Reg.HIF_HALT]); omega)).trans ?_
    | with_reducible refine (if_pos (by (try simp only [Reg.HIF_HALT]); omega)).trans ?_
  unfold drvWrite
  try dsimp only
  repeat first
    | with_reducible refine (if_neg (by omega)).trans ?_
    | with_reducible refine (if_pos (by omega)).trans ?_
  rw [e0]

theorem findReg_DRV_TEST (t : Fin 96) : (findReg (Reg.DRV_TEST t)).isSome = true := by
  have e : ∃ row ∈ regRowsDrv, row.base = 0x100028 ∧ row.dims = [(0x1000, 96)] := by decide
  obtain ⟨row, hm, hb, hd⟩ := e
  refine findReg_of row (blockRows_drv (by simp only [Reg.DRV_TEST]; omega) (by simp only [Reg.DRV_TEST]; omega)) hm ?_
  simp only [rowHas, hb, hd, inDims, Reg.DRV_TEST, Bool.and_eq_true, decide_eq_true_eq]
  omega

theorem exec_drvTest (m : Master) (t : Fin 96) (v : BitVec 32) (s : State) (h : Reaches s m (Reg.DRV_TEST t)) :
    exec (.drvTest m t v) s = done s (drvTestWrite s t v.toNat) := by
  change done s (busWrite s m (Reg.DRV_TEST t) v.toNat 15) = _
  have hr := findReg_DRV_TEST t
  generalize ha : Reg.DRV_TEST t = a at *
  simp only [Reg.DRV_TEST] at ha
  have e0 : (a - 0x100000) / 0x1000 = t := by omega
  rw [busWrite_reaches h (by omega) (inTarget_drv (by omega) (by omega)) hr (by omega) (by omega)]
  refine congrArg (done s) ?_
  unfold regWrite
  try dsimp only
  repeat first
    | with_reducible refine (if_neg (by (try simp only [Reg.HIF_HALT]); omega)).trans ?_
    | with_reducible refine (if_pos (by (try simp only [Reg.HIF_HALT]); omega)).trans ?_
  unfold drvWrite
  try dsimp only
  repeat first
    | with_reducible refine (if_neg (by omega)).trans ?_
    | with_reducible refine (if_pos (by omega)).trans ?_
  rw [e0]

theorem findReg_MON_CTRL (t : Fin 96) : (findReg (Reg.MON_CTRL t)).isSome = true := by
  have e : ∃ row ∈ regRowsMon, row.base = 0x200000 ∧ row.dims = [(0x1000, 96)] := by decide
  obtain ⟨row, hm, hb, hd⟩ := e
  refine findReg_of row (blockRows_mon (by simp only [Reg.MON_CTRL]; omega) (by simp only [Reg.MON_CTRL]; omega)) hm ?_
  simp only [rowHas, hb, hd, inDims, Reg.MON_CTRL, Bool.and_eq_true, decide_eq_true_eq]
  omega

theorem exec_monEnable (m : Master) (t : Fin 96) (v : BitVec 32) (s : State) (h : Reaches s m (Reg.MON_CTRL t)) :
    exec (.monEnable m t v) s = done s (monCtrlWrite s t v.toNat) := by
  change done s (busWrite s m (Reg.MON_CTRL t) v.toNat 15) = _
  have hr := findReg_MON_CTRL t
  generalize ha : Reg.MON_CTRL t = a at *
  simp only [Reg.MON_CTRL] at ha
  have e0 : (a - 0x200000) / 0x1000 = t := by omega
  rw [busWrite_reaches h (by omega) (inTarget_mon (by omega) (by omega)) hr (by omega) (by omega)]
  refine congrArg (done s) ?_
  unfold regWrite
  try dsimp only
  repeat first
    | with_reducible refine (if_neg (by (try simp only [Reg.HIF_HALT]); omega)).trans ?_
    | with_reducible refine (if_pos (by (try simp only [Reg.HIF_HALT]); omega)).trans ?_
  unfold monWrite
  try dsimp only
  repeat first
    | with_reducible refine (if_neg (by omega)).trans ?_
    | with_reducible refine (if_pos (by omega)).trans ?_
  rw [e0]

theorem findReg_MON_IN_CFG (t : Fin 96) (j : Fin 128) : (findReg (Reg.MON_IN_CFG t j)).isSome = true := by
  have e : ∃ row ∈ regRowsMon, row.base = 0x200400 ∧ row.dims = [(0x1000, 96), (0x4, 128)] := by decide
  obtain ⟨row, hm, hb, hd⟩ := e
  refine findReg_of row (blockRows_mon (by simp only [Reg.MON_IN_CFG]; omega) (by simp only [Reg.MON_IN_CFG]; omega)) hm ?_
  simp only [rowHas, hb, hd, inDims, Reg.MON_IN_CFG, Bool.and_eq_true, decide_eq_true_eq]
  omega

theorem exec_gainChange (m : Master) (t : Fin 96) (j : Fin 128) (v : BitVec 32) (s : State) (h : Reaches s m (Reg.MON_IN_CFG t j)) :
    exec (.gainChange m t j v) s = done s (inCfgWrite s (128 * t + j) v.toNat) := by
  change done s (busWrite s m (Reg.MON_IN_CFG t j) v.toNat 15) = _
  have hr := findReg_MON_IN_CFG t j
  generalize ha : Reg.MON_IN_CFG t j = a at *
  simp only [Reg.MON_IN_CFG] at ha
  have f0 : a % 0x1000 = 0x400 + 4 * j := by omega
  have e0 : (a - 0x200000) / 0x1000 = t := by omega
  have e1 : (a % 0x1000 - 0x400) / 4 = j := by rw [f0]; clear f0 ha e0; omega
  rw [busWrite_reaches h (by omega) (inTarget_mon (by omega) (by omega)) hr (by omega) (by omega)]
  refine congrArg (done s) ?_
  unfold regWrite
  try dsimp only
  repeat first
    | with_reducible refine (if_neg (by (try simp only [Reg.HIF_HALT]); omega)).trans ?_
    | with_reducible refine (if_pos (by (try simp only [Reg.HIF_HALT]); omega)).trans ?_
  unfold monWrite
  try dsimp only
  repeat first
    | with_reducible refine (if_neg (by omega)).trans ?_
    | with_reducible refine (if_pos (by omega)).trans ?_
  rw [e0, e1]

theorem findReg_MON_IN_WIN (t : Fin 96) (j : Fin 128) : (findReg (Reg.MON_IN_WIN t j)).isSome = true := by
  have e : ∃ row ∈ regRowsMon, row.base = 0x200600 ∧ row.dims = [(0x1000, 96), (0x4, 128)] := by decide
  obtain ⟨row, hm, hb, hd⟩ := e
  refine findReg_of row (blockRows_mon (by simp only [Reg.MON_IN_WIN]; omega) (by simp only [Reg.MON_IN_WIN]; omega)) hm ?_
  simp only [rowHas, hb, hd, inDims, Reg.MON_IN_WIN, Bool.and_eq_true, decide_eq_true_eq]
  omega

theorem exec_windowWrite (m : Master) (t : Fin 96) (j : Fin 128) (v : BitVec 32) (s : State) (h : Reaches s m (Reg.MON_IN_WIN t j)) :
    exec (.windowWrite m t j v) s = done s (winSet s (128 * t + j) (bits v.toNat 0 12) (bits v.toNat 16 12)) := by
  change done s (busWrite s m (Reg.MON_IN_WIN t j) v.toNat 15) = _
  have hr := findReg_MON_IN_WIN t j
  generalize ha : Reg.MON_IN_WIN t j = a at *
  simp only [Reg.MON_IN_WIN] at ha
  have f0 : a % 0x1000 = 0x600 + 4 * j := by omega
  have e0 : (a - 0x200000) / 0x1000 = t := by omega
  have e1 : (a % 0x1000 - 0x600) / 4 = j := by rw [f0]; clear f0 ha e0; omega
  rw [busWrite_reaches h (by omega) (inTarget_mon (by omega) (by omega)) hr (by omega) (by omega)]
  refine congrArg (done s) ?_
  unfold regWrite
  try dsimp only
  repeat first
    | with_reducible refine (if_neg (by (try simp only [Reg.HIF_HALT]); omega)).trans ?_
    | with_reducible refine (if_pos (by (try simp only [Reg.HIF_HALT]); omega)).trans ?_
  unfold monWrite
  try dsimp only
  repeat first
    | with_reducible refine (if_neg (by omega)).trans ?_
    | with_reducible refine (if_pos (by omega)).trans ?_
  rw [e0, e1]

theorem findReg_MON_DIAG (t : Fin 96) : (findReg (Reg.MON_DIAG t)).isSome = true := by
  have e : ∃ row ∈ regRowsMon, row.base = 0x200014 ∧ row.dims = [(0x1000, 96)] := by decide
  obtain ⟨row, hm, hb, hd⟩ := e
  refine findReg_of row (blockRows_mon (by simp only [Reg.MON_DIAG]; omega) (by simp only [Reg.MON_DIAG]; omega)) hm ?_
  simp only [rowHas, hb, hd, inDims, Reg.MON_DIAG, Bool.and_eq_true, decide_eq_true_eq]
  omega

theorem exec_monDiag (m : Master) (t : Fin 96) (v : BitVec 32) (s : State) (h : Reaches s m (Reg.MON_DIAG t)) :
    exec (.monDiag m t v) s = done s (diagWrite s t v.toNat) := by
  change done s (busWrite s m (Reg.MON_DIAG t) v.toNat 15) = _
  have hr := findReg_MON_DIAG t
  generalize ha : Reg.MON_DIAG t = a at *
  simp only [Reg.MON_DIAG] at ha
  have e0 : (a - 0x200000) / 0x1000 = t := by omega
  rw [busWrite_reaches h (by omega) (inTarget_mon (by omega) (by omega)) hr (by omega) (by omega)]
  refine congrArg (done s) ?_
  unfold regWrite
  try dsimp only
  repeat first
    | with_reducible refine (if_neg (by (try simp only [Reg.HIF_HALT]); omega)).trans ?_
    | with_reducible refine (if_pos (by (try simp only [Reg.HIF_HALT]); omega)).trans ?_
  unfold monWrite
  try dsimp only
  repeat first
    | with_reducible refine (if_neg (by omega)).trans ?_
    | with_reducible refine (if_pos (by omega)).trans ?_
  rw [e0]

theorem findReg_CAL_ADC_CMD : (findReg Reg.CAL_ADC_CMD).isSome = true := by decide

theorem exec_adcCalibrationAll (m : Master) (v : BitVec 32) (s : State) (h : Reaches s m (Reg.CAL_ADC_CMD)) :
    exec (.adcCalibrationAll m v) s = done s (adcCalWrite s v.toNat) := by
  change done s (busWrite s m (Reg.CAL_ADC_CMD) v.toNat 15) = _
  have hr := findReg_CAL_ADC_CMD
  generalize ha : Reg.CAL_ADC_CMD = a at *
  simp only [Reg.CAL_ADC_CMD] at ha
  rw [busWrite_reaches h (by omega) (inTarget_low (by omega)) hr (by omega) (by omega)]
  refine congrArg (done s) ?_
  unfold regWrite
  try dsimp only
  repeat first
    | with_reducible refine (if_neg (by (try simp only [Reg.HIF_HALT]); omega)).trans ?_
    | with_reducible refine (if_pos (by (try simp only [Reg.HIF_HALT]); omega)).trans ?_
  unfold calWrite
  try dsimp only
  repeat first
    | with_reducible refine (if_neg (by (try simp only [Reg.CAL_ADC_CMD, Reg.CAL_CNT_CLR]); omega)).trans ?_
    | with_reducible refine (if_pos (by (try simp only [Reg.CAL_ADC_CMD, Reg.CAL_CNT_CLR]); omega)).trans ?_
  try rfl

theorem exec_adcCalibrationSingle (m : Master) (v : BitVec 32) (s : State) (h : Reaches s m (Reg.CAL_ADC_CMD)) :
    exec (.adcCalibrationSingle m v) s = done s (adcCalWrite s v.toNat) := by
  change done s (busWrite s m (Reg.CAL_ADC_CMD) v.toNat 15) = _
  have hr := findReg_CAL_ADC_CMD
  generalize ha : Reg.CAL_ADC_CMD = a at *
  simp only [Reg.CAL_ADC_CMD] at ha
  rw [busWrite_reaches h (by omega) (inTarget_low (by omega)) hr (by omega) (by omega)]
  refine congrArg (done s) ?_
  unfold regWrite
  try dsimp only
  repeat first
    | with_reducible refine (if_neg (by (try simp only [Reg.HIF_HALT]); omega)).trans ?_
    | with_reducible refine (if_pos (by (try simp only [Reg.HIF_HALT]); omega)).trans ?_
  unfold calWrite
  try dsimp only
  repeat first
    | with_reducible refine (if_neg (by (try simp only [Reg.CAL_ADC_CMD, Reg.CAL_CNT_CLR]); omega)).trans ?_
    | with_reducible refine (if_pos (by (try simp only [Reg.CAL_ADC_CMD, Reg.CAL_CNT_CLR]); omega)).trans ?_
  try rfl

theorem findReg_TRK_CTRL (k : Fin 100) : (findReg (Reg.TRK_CTRL k)).isSome = true := by
  have e : ∃ row ∈ regRowsTrk, row.base = 0x300000 ∧ row.dims = [(0x4000, 100)] := by decide
  obtain ⟨row, hm, hb, hd⟩ := e
  refine findReg_of row (blockRows_trk (by simp only [Reg.TRK_CTRL]; omega) (by simp only [Reg.TRK_CTRL]; omega)) hm ?_
  simp only [rowHas, hb, hd, inDims, Reg.TRK_CTRL, Bool.and_eq_true, decide_eq_true_eq]
  omega

theorem exec_hookEn (m : Master) (k : Fin 100) (v : BitVec 32) (s : State) (h : Reaches s m (Reg.TRK_CTRL k)) :
    exec (.hookEn m k v) s = done s (hookWrite s k v.toNat) := by
  change done s (busWrite s m (Reg.TRK_CTRL k) v.toNat 15) = _
  have hr := findReg_TRK_CTRL k
  generalize ha : Reg.TRK_CTRL k = a at *
  simp only [Reg.TRK_CTRL] at ha
  have e0 : (a - 0x300000) / 0x4000 = k := by omega
  rw [busWrite_reaches h (by omega) (inTarget_trk (by omega) (by omega)) hr (by omega) (by omega)]
  refine congrArg (done s) ?_
  unfold regWrite
  try dsimp only
  repeat first
    | with_reducible refine (if_neg (by (try simp only [Reg.HIF_HALT]); omega)).trans ?_
    | with_reducible refine (if_pos (by (try simp only [Reg.HIF_HALT]); omega)).trans ?_
  unfold trkWrite
  try dsimp only
  repeat first
    | with_reducible refine (if_neg (by omega)).trans ?_
    | with_reducible refine (if_pos (by omega)).trans ?_
  rw [e0]

theorem findReg_PWR_RAIL_CFG : ∀ (k : Fin 5), (findReg (Reg.PWR_RAIL_CFG k)).isSome = true := by decide

theorem exec_railEn (m : Master) (k : Fin 5) (v : BitVec 32) (s : State) (h : Reaches s m (Reg.PWR_RAIL_CFG k)) :
    exec (.railEn m k v) s = done s (railCfgWrite s k v.toNat) := by
  change done s (busWrite s m (Reg.PWR_RAIL_CFG k) v.toNat 15) = _
  have hr := findReg_PWR_RAIL_CFG k
  generalize ha : Reg.PWR_RAIL_CFG k = a at *
  simp only [Reg.PWR_RAIL_CFG] at ha
  have e0 : (a - 0x070040) / 0x10 = k := by omega
  rw [busWrite_reaches h (by omega) (inTarget_low (by omega)) hr (by omega) (by omega)]
  refine congrArg (done s) ?_
  unfold regWrite
  try dsimp only
  repeat first
    | with_reducible refine (if_neg (by (try simp only [Reg.HIF_HALT]); omega)).trans ?_
    | with_reducible refine (if_pos (by (try simp only [Reg.HIF_HALT]); omega)).trans ?_
  unfold pwrWrite
  try dsimp only
  repeat first
    | with_reducible refine (if_neg (by (try simp only [Reg.PWR_CNT_CLR, Reg.PWR_ENERGY, Reg.PWR_HP, Reg.PWR_KICK, Reg.PWR_KICK2, Reg.PWR_POOL, Reg.PWR_STAND]); omega)).trans ?_
    | with_reducible refine (if_pos (by (try simp only [Reg.PWR_CNT_CLR, Reg.PWR_ENERGY, Reg.PWR_HP, Reg.PWR_KICK, Reg.PWR_KICK2, Reg.PWR_POOL, Reg.PWR_STAND]); omega)).trans ?_
  rw [e0]

theorem findReg_PWR_RAIL_CMD : ∀ (k : Fin 5), (findReg (Reg.PWR_RAIL_CMD k)).isSome = true := by decide

theorem exec_restart (m : Master) (k : Fin 5) (v : BitVec 32) (s : State) (h : Reaches s m (Reg.PWR_RAIL_CMD k)) :
    exec (.restart m k v) s = done s (railRestart s k v.toNat) := by
  change done s (busWrite s m (Reg.PWR_RAIL_CMD k) v.toNat 15) = _
  have hr := findReg_PWR_RAIL_CMD k
  generalize ha : Reg.PWR_RAIL_CMD k = a at *
  simp only [Reg.PWR_RAIL_CMD] at ha
  have e0 : (a - 0x070040) / 0x10 = k := by omega
  rw [busWrite_reaches h (by omega) (inTarget_low (by omega)) hr (by omega) (by omega)]
  refine congrArg (done s) ?_
  unfold regWrite
  try dsimp only
  repeat first
    | with_reducible refine (if_neg (by (try simp only [Reg.HIF_HALT]); omega)).trans ?_
    | with_reducible refine (if_pos (by (try simp only [Reg.HIF_HALT]); omega)).trans ?_
  unfold pwrWrite
  try dsimp only
  repeat first
    | with_reducible refine (if_neg (by (try simp only [Reg.PWR_CNT_CLR, Reg.PWR_ENERGY, Reg.PWR_HP, Reg.PWR_KICK, Reg.PWR_KICK2, Reg.PWR_POOL, Reg.PWR_STAND]); omega)).trans ?_
    | with_reducible refine (if_pos (by (try simp only [Reg.PWR_CNT_CLR, Reg.PWR_ENERGY, Reg.PWR_HP, Reg.PWR_KICK, Reg.PWR_KICK2, Reg.PWR_POOL, Reg.PWR_STAND]); omega)).trans ?_
  rw [e0]

theorem findReg_PWR_RAIL_TGT : ∀ (k : Fin 4), (findReg (Reg.PWR_RAIL_TGT k)).isSome = true := by decide

theorem exec_railTargetWrite (m : Master) (k : Fin 4) (v : BitVec 32) (s : State) (h : Reaches s m (Reg.PWR_RAIL_TGT k)) :
    exec (.railTargetWrite m k v) s = done s (railTgtWrite s m k v.toNat) := by
  change done s (busWrite s m (Reg.PWR_RAIL_TGT k) v.toNat 15) = _
  have hr := findReg_PWR_RAIL_TGT k
  generalize ha : Reg.PWR_RAIL_TGT k = a at *
  simp only [Reg.PWR_RAIL_TGT] at ha
  have e0 : (a - 0x070040) / 0x10 = k := by omega
  rw [busWrite_reaches h (by omega) (inTarget_low (by omega)) hr (by omega) (by omega)]
  refine congrArg (done s) ?_
  unfold regWrite
  try dsimp only
  repeat first
    | with_reducible refine (if_neg (by (try simp only [Reg.HIF_HALT]); omega)).trans ?_
    | with_reducible refine (if_pos (by (try simp only [Reg.HIF_HALT]); omega)).trans ?_
  unfold pwrWrite
  try dsimp only
  repeat first
    | with_reducible refine (if_neg (by (try simp only [Reg.PWR_CNT_CLR, Reg.PWR_ENERGY, Reg.PWR_HP, Reg.PWR_KICK, Reg.PWR_KICK2, Reg.PWR_POOL, Reg.PWR_STAND]); omega)).trans ?_
    | with_reducible refine (if_pos (by (try simp only [Reg.PWR_CNT_CLR, Reg.PWR_ENERGY, Reg.PWR_HP, Reg.PWR_KICK, Reg.PWR_KICK2, Reg.PWR_POOL, Reg.PWR_STAND]); omega)).trans ?_
  rw [e0]

theorem findReg_PWR_PWM_PER : ∀ (n : Fin 24), (findReg (Reg.PWR_PWM_PER n)).isSome = true := by decide

theorem exec_perWrite (m : Master) (n : Fin 24) (v : BitVec 32) (s : State) (h : Reaches s m (Reg.PWR_PWM_PER n)) :
    exec (.perWrite m n v) s = done s (pwmValueWrite s m n v.toNat true) := by
  change done s (busWrite s m (Reg.PWR_PWM_PER n) v.toNat 15) = _
  have hr := findReg_PWR_PWM_PER n
  generalize ha : Reg.PWR_PWM_PER n = a at *
  simp only [Reg.PWR_PWM_PER] at ha
  have e0 : (a - 0x070100) / 0x20 = n := by omega
  rw [busWrite_reaches h (by omega) (inTarget_low (by omega)) hr (by omega) (by omega)]
  refine congrArg (done s) ?_
  unfold regWrite
  try dsimp only
  repeat first
    | with_reducible refine (if_neg (by (try simp only [Reg.HIF_HALT]); omega)).trans ?_
    | with_reducible refine (if_pos (by (try simp only [Reg.HIF_HALT]); omega)).trans ?_
  unfold pwrWrite
  try dsimp only
  repeat first
    | with_reducible refine (if_neg (by (try simp only [Reg.PWR_CNT_CLR, Reg.PWR_ENERGY, Reg.PWR_HP, Reg.PWR_KICK, Reg.PWR_KICK2, Reg.PWR_POOL, Reg.PWR_STAND]); omega)).trans ?_
    | with_reducible refine (if_pos (by (try simp only [Reg.PWR_CNT_CLR, Reg.PWR_ENERGY, Reg.PWR_HP, Reg.PWR_KICK, Reg.PWR_KICK2, Reg.PWR_POOL, Reg.PWR_STAND]); omega)).trans ?_
  unfold pwmWrite
  try dsimp only
  repeat first
    | with_reducible refine (if_neg (by omega)).trans ?_
    | with_reducible refine (if_pos (by omega)).trans ?_
  rw [e0]

theorem findReg_PWR_PWM_CMP : ∀ (n : Fin 24), (findReg (Reg.PWR_PWM_CMP n)).isSome = true := by decide

theorem exec_cmpWrite (m : Master) (n : Fin 24) (v : BitVec 32) (s : State) (h : Reaches s m (Reg.PWR_PWM_CMP n)) :
    exec (.cmpWrite m n v) s = done s (pwmValueWrite s m n v.toNat false) := by
  change done s (busWrite s m (Reg.PWR_PWM_CMP n) v.toNat 15) = _
  have hr := findReg_PWR_PWM_CMP n
  generalize ha : Reg.PWR_PWM_CMP n = a at *
  simp only [Reg.PWR_PWM_CMP] at ha
  have e0 : (a - 0x070100) / 0x20 = n := by omega
  rw [busWrite_reaches h (by omega) (inTarget_low (by omega)) hr (by omega) (by omega)]
  refine congrArg (done s) ?_
  unfold regWrite
  try dsimp only
  repeat first
    | with_reducible refine (if_neg (by (try simp only [Reg.HIF_HALT]); omega)).trans ?_
    | with_reducible refine (if_pos (by (try simp only [Reg.HIF_HALT]); omega)).trans ?_
  unfold pwrWrite
  try dsimp only
  repeat first
    | with_reducible refine (if_neg (by (try simp only [Reg.PWR_CNT_CLR, Reg.PWR_ENERGY, Reg.PWR_HP, Reg.PWR_KICK, Reg.PWR_KICK2, Reg.PWR_POOL, Reg.PWR_STAND]); omega)).trans ?_
    | with_reducible refine (if_pos (by (try simp only [Reg.PWR_CNT_CLR, Reg.PWR_ENERGY, Reg.PWR_HP, Reg.PWR_KICK, Reg.PWR_KICK2, Reg.PWR_POOL, Reg.PWR_STAND]); omega)).trans ?_
  unfold pwmWrite
  try dsimp only
  repeat first
    | with_reducible refine (if_neg (by omega)).trans ?_
    | with_reducible refine (if_pos (by omega)).trans ?_
  rw [e0]

theorem findReg_PWR_PWM_COMMIT : ∀ (n : Fin 24), (findReg (Reg.PWR_PWM_COMMIT n)).isSome = true := by decide

theorem exec_pwrPwmCommit (m : Master) (n : Fin 24) (v : BitVec 32) (s : State) (h : Reaches s m (Reg.PWR_PWM_COMMIT n)) :
    exec (.pwrPwmCommit m n v) s = done s (pwmCommit s n v.toNat) := by
  change done s (busWrite s m (Reg.PWR_PWM_COMMIT n) v.toNat 15) = _
  have hr := findReg_PWR_PWM_COMMIT n
  generalize ha : Reg.PWR_PWM_COMMIT n = a at *
  simp only [Reg.PWR_PWM_COMMIT] at ha
  have e0 : (a - 0x070100) / 0x20 = n := by omega
  rw [busWrite_reaches h (by omega) (inTarget_low (by omega)) hr (by omega) (by omega)]
  refine congrArg (done s) ?_
  unfold regWrite
  try dsimp only
  repeat first
    | with_reducible refine (if_neg (by (try simp only [Reg.HIF_HALT]); omega)).trans ?_
    | with_reducible refine (if_pos (by (try simp only [Reg.HIF_HALT]); omega)).trans ?_
  unfold pwrWrite
  try dsimp only
  repeat first
    | with_reducible refine (if_neg (by (try simp only [Reg.PWR_CNT_CLR, Reg.PWR_ENERGY, Reg.PWR_HP, Reg.PWR_KICK, Reg.PWR_KICK2, Reg.PWR_POOL, Reg.PWR_STAND]); omega)).trans ?_
    | with_reducible refine (if_pos (by (try simp only [Reg.PWR_CNT_CLR, Reg.PWR_ENERGY, Reg.PWR_HP, Reg.PWR_KICK, Reg.PWR_KICK2, Reg.PWR_POOL, Reg.PWR_STAND]); omega)).trans ?_
  unfold pwmWrite
  try dsimp only
  repeat first
    | with_reducible refine (if_neg (by omega)).trans ?_
    | with_reducible refine (if_pos (by omega)).trans ?_
  rw [e0]

theorem findReg_TMU_CMD : (findReg Reg.TMU_CMD).isSome = true := by decide

theorem exec_set (m : Master) (v : BitVec 32) (s : State) (h : Reaches s m (Reg.TMU_CMD)) :
    exec (.set m v) s = done s (tmuCmd s v.toNat) := by
  change done s (busWrite s m (Reg.TMU_CMD) v.toNat 15) = _
  have hr := findReg_TMU_CMD
  generalize ha : Reg.TMU_CMD = a at *
  simp only [Reg.TMU_CMD] at ha
  rw [busWrite_reaches h (by omega) (inTarget_low (by omega)) hr (by omega) (by omega)]
  refine congrArg (done s) ?_
  unfold regWrite
  try dsimp only
  repeat first
    | with_reducible refine (if_neg (by (try simp only [Reg.HIF_HALT]); omega)).trans ?_
    | with_reducible refine (if_pos (by (try simp only [Reg.HIF_HALT]); omega)).trans ?_
  unfold tmuWrite
  try dsimp only
  repeat first
    | with_reducible refine (if_neg (by (try simp only [Reg.TMU_CMD, Reg.TMU_CNT_CLR, Reg.TMU_CTRL, Reg.TMU_PPS_CFG, Reg.TMU_PPS_SEC, Reg.TMU_SRC_PRIO, Reg.TMU_SYNCE]); omega)).trans ?_
    | with_reducible refine (if_pos (by (try simp only [Reg.TMU_CMD, Reg.TMU_CNT_CLR, Reg.TMU_CTRL, Reg.TMU_PPS_CFG, Reg.TMU_PPS_SEC, Reg.TMU_SRC_PRIO, Reg.TMU_SYNCE]); omega)).trans ?_
  try rfl

theorem exec_step (m : Master) (v : BitVec 32) (s : State) (h : Reaches s m (Reg.TMU_CMD)) :
    exec (.step m v) s = done s (tmuCmd s v.toNat) := by
  change done s (busWrite s m (Reg.TMU_CMD) v.toNat 15) = _
  have hr := findReg_TMU_CMD
  generalize ha : Reg.TMU_CMD = a at *
  simp only [Reg.TMU_CMD] at ha
  rw [busWrite_reaches h (by omega) (inTarget_low (by omega)) hr (by omega) (by omega)]
  refine congrArg (done s) ?_
  unfold regWrite
  try dsimp only
  repeat first
    | with_reducible refine (if_neg (by (try simp only [Reg.HIF_HALT]); omega)).trans ?_
    | with_reducible refine (if_pos (by (try simp only [Reg.HIF_HALT]); omega)).trans ?_
  unfold tmuWrite
  try dsimp only
  repeat first
    | with_reducible refine (if_neg (by (try simp only [Reg.TMU_CMD, Reg.TMU_CNT_CLR, Reg.TMU_CTRL, Reg.TMU_PPS_CFG, Reg.TMU_PPS_SEC, Reg.TMU_SRC_PRIO, Reg.TMU_SYNCE]); omega)).trans ?_
    | with_reducible refine (if_pos (by (try simp only [Reg.TMU_CMD, Reg.TMU_CNT_CLR, Reg.TMU_CTRL, Reg.TMU_PPS_CFG, Reg.TMU_PPS_SEC, Reg.TMU_SRC_PRIO, Reg.TMU_SYNCE]); omega)).trans ?_
  try rfl

theorem exec_rcArm (m : Master) (v : BitVec 32) (s : State) (h : Reaches s m (Reg.TMU_CMD)) :
    exec (.rcArm m v) s = done s (tmuCmd s v.toNat) := by
  change done s (busWrite s m (Reg.TMU_CMD) v.toNat 15) = _
  have hr := findReg_TMU_CMD
  generalize ha : Reg.TMU_CMD = a at *
  simp only [Reg.TMU_CMD] at ha
  rw [busWrite_reaches h (by omega) (inTarget_low (by omega)) hr (by omega) (by omega)]
  refine congrArg (done s) ?_
  unfold regWrite
  try dsimp only
  repeat first
    | with_reducible refine (if_neg (by (try simp only [Reg.HIF_HALT]); omega)).trans ?_
    | with_reducible refine (if_pos (by (try simp only [Reg.HIF_HALT]); omega)).trans ?_
  unfold tmuWrite
  try dsimp only
  repeat first
    | with_reducible refine (if_neg (by (try simp only [Reg.TMU_CMD, Reg.TMU_CNT_CLR, Reg.TMU_CTRL, Reg.TMU_PPS_CFG, Reg.TMU_PPS_SEC, Reg.TMU_SRC_PRIO, Reg.TMU_SYNCE]); omega)).trans ?_
    | with_reducible refine (if_pos (by (try simp only [Reg.TMU_CMD, Reg.TMU_CNT_CLR, Reg.TMU_CTRL, Reg.TMU_PPS_CFG, Reg.TMU_PPS_SEC, Reg.TMU_SRC_PRIO, Reg.TMU_SYNCE]); omega)).trans ?_
  try rfl

theorem exec_rcNow (m : Master) (v : BitVec 32) (s : State) (h : Reaches s m (Reg.TMU_CMD)) :
    exec (.rcNow m v) s = done s (tmuCmd s v.toNat) := by
  change done s (busWrite s m (Reg.TMU_CMD) v.toNat 15) = _
  have hr := findReg_TMU_CMD
  generalize ha : Reg.TMU_CMD = a at *
  simp only [Reg.TMU_CMD] at ha
  rw [busWrite_reaches h (by omega) (inTarget_low (by omega)) hr (by omega) (by omega)]
  refine congrArg (done s) ?_
  unfold regWrite
  try dsimp only
  repeat first
    | with_reducible refine (if_neg (by (try simp only [Reg.HIF_HALT]); omega)).trans ?_
    | with_reducible refine (if_pos (by (try simp only [Reg.HIF_HALT]); omega)).trans ?_
  unfold tmuWrite
  try dsimp only
  repeat first
    | with_reducible refine (if_neg (by (try simp only [Reg.TMU_CMD, Reg.TMU_CNT_CLR, Reg.TMU_CTRL, Reg.TMU_PPS_CFG, Reg.TMU_PPS_SEC, Reg.TMU_SRC_PRIO, Reg.TMU_SYNCE]); omega)).trans ?_
    | with_reducible refine (if_pos (by (try simp only [Reg.TMU_CMD, Reg.TMU_CNT_CLR, Reg.TMU_CTRL, Reg.TMU_PPS_CFG, Reg.TMU_PPS_SEC, Reg.TMU_SRC_PRIO, Reg.TMU_SYNCE]); omega)).trans ?_
  try rfl

theorem exec_rcStop (m : Master) (v : BitVec 32) (s : State) (h : Reaches s m (Reg.TMU_CMD)) :
    exec (.rcStop m v) s = done s (tmuCmd s v.toNat) := by
  change done s (busWrite s m (Reg.TMU_CMD) v.toNat 15) = _
  have hr := findReg_TMU_CMD
  generalize ha : Reg.TMU_CMD = a at *
  simp only [Reg.TMU_CMD] at ha
  rw [busWrite_reaches h (by omega) (inTarget_low (by omega)) hr (by omega) (by omega)]
  refine congrArg (done s) ?_
  unfold regWrite
  try dsimp only
  repeat first
    | with_reducible refine (if_neg (by (try simp only [Reg.HIF_HALT]); omega)).trans ?_
    | with_reducible refine (if_pos (by (try simp only [Reg.HIF_HALT]); omega)).trans ?_
  unfold tmuWrite
  try dsimp only
  repeat first
    | with_reducible refine (if_neg (by (try simp only [Reg.TMU_CMD, Reg.TMU_CNT_CLR, Reg.TMU_CTRL, Reg.TMU_PPS_CFG, Reg.TMU_PPS_SEC, Reg.TMU_SRC_PRIO, Reg.TMU_SYNCE]); omega)).trans ?_
    | with_reducible refine (if_pos (by (try simp only [Reg.TMU_CMD, Reg.TMU_CNT_CLR, Reg.TMU_CTRL, Reg.TMU_PPS_CFG, Reg.TMU_PPS_SEC, Reg.TMU_SRC_PRIO, Reg.TMU_SYNCE]); omega)).trans ?_
  try rfl

theorem findReg_FLT_FORCE : ∀ (k : Fin 11), (findReg (Reg.FLT_FORCE k)).isSome = true := by decide

theorem exec_force (m : Master) (k : Fin 11) (v : BitVec 32) (s : State) (h : Reaches s m (Reg.FLT_FORCE k)) :
    exec (.force m k v) s = done s (forceWrite s k v.toNat) := by
  change done s (busWrite s m (Reg.FLT_FORCE k) v.toNat 15) = _
  have hr := findReg_FLT_FORCE k
  generalize ha : Reg.FLT_FORCE k = a at *
  simp only [Reg.FLT_FORCE] at ha
  have e0 : (a - Reg.FLT_FORCE 0) / 4 = k := by simp only [Reg.FLT_FORCE]; omega
  rw [busWrite_reaches h (by omega) (inTarget_low (by omega)) hr (by omega) (by omega)]
  refine congrArg (done s) ?_
  unfold regWrite
  try dsimp only
  repeat first
    | with_reducible refine (if_neg (by (try simp only [Reg.HIF_HALT]); omega)).trans ?_
    | with_reducible refine (if_pos (by (try simp only [Reg.HIF_HALT]); omega)).trans ?_
  unfold fltWrite
  try dsimp only
  repeat first
    | with_reducible refine (if_neg (by (try simp only [Reg.FLT_CNT_CLR, Reg.FLT_FORCE]); omega)).trans ?_
    | with_reducible refine (if_pos (by (try simp only [Reg.FLT_CNT_CLR, Reg.FLT_FORCE]); omega)).trans ?_
  rw [e0]

theorem findReg_BEL_CNT_CLR : (findReg Reg.BEL_CNT_CLR).isSome = true := by decide

theorem exec_inval (m : Master) (v : BitVec 32) (s : State) (h : Reaches s m (Reg.BEL_CNT_CLR)) :
    exec (.inval m v) s = done s (belCntClear s v.toNat) := by
  change done s (busWrite s m (Reg.BEL_CNT_CLR) v.toNat 15) = _
  have hr := findReg_BEL_CNT_CLR
  generalize ha : Reg.BEL_CNT_CLR = a at *
  simp only [Reg.BEL_CNT_CLR] at ha
  rw [busWrite_reaches h (by omega) (inTarget_low (by omega)) hr (by omega) (by omega)]
  refine congrArg (done s) ?_
  unfold regWrite
  try dsimp only
  repeat first
    | with_reducible refine (if_neg (by (try simp only [Reg.HIF_HALT]); omega)).trans ?_
    | with_reducible refine (if_pos (by (try simp only [Reg.HIF_HALT]); omega)).trans ?_
  unfold belWrite
  try dsimp only
  repeat first
    | with_reducible refine (if_neg (by (try simp only [Reg.BEL_CNT_CLR, Reg.BEL_KICK, Reg.BEL_SPACING]); omega)).trans ?_
    | with_reducible refine (if_pos (by (try simp only [Reg.BEL_CNT_CLR, Reg.BEL_KICK, Reg.BEL_SPACING]); omega)).trans ?_
  try rfl

theorem exec_refuse (m : Master) (v : BitVec 32) (s : State) (h : Reaches s m (Reg.BEL_CNT_CLR)) :
    exec (.refuse m v) s = done s (belCntClear s v.toNat) := by
  change done s (busWrite s m (Reg.BEL_CNT_CLR) v.toNat 15) = _
  have hr := findReg_BEL_CNT_CLR
  generalize ha : Reg.BEL_CNT_CLR = a at *
  simp only [Reg.BEL_CNT_CLR] at ha
  rw [busWrite_reaches h (by omega) (inTarget_low (by omega)) hr (by omega) (by omega)]
  refine congrArg (done s) ?_
  unfold regWrite
  try dsimp only
  repeat first
    | with_reducible refine (if_neg (by (try simp only [Reg.HIF_HALT]); omega)).trans ?_
    | with_reducible refine (if_pos (by (try simp only [Reg.HIF_HALT]); omega)).trans ?_
  unfold belWrite
  try dsimp only
  repeat first
    | with_reducible refine (if_neg (by (try simp only [Reg.BEL_CNT_CLR, Reg.BEL_KICK, Reg.BEL_SPACING]); omega)).trans ?_
    | with_reducible refine (if_pos (by (try simp only [Reg.BEL_CNT_CLR, Reg.BEL_KICK, Reg.BEL_SPACING]); omega)).trans ?_
  try rfl

theorem exec_outcome (m : Master) (v : BitVec 32) (s : State) (h : Reaches s m (Reg.BEL_CNT_CLR)) :
    exec (.outcome m v) s = done s (belCntClear s v.toNat) := by
  change done s (busWrite s m (Reg.BEL_CNT_CLR) v.toNat 15) = _
  have hr := findReg_BEL_CNT_CLR
  generalize ha : Reg.BEL_CNT_CLR = a at *
  simp only [Reg.BEL_CNT_CLR] at ha
  rw [busWrite_reaches h (by omega) (inTarget_low (by omega)) hr (by omega) (by omega)]
  refine congrArg (done s) ?_
  unfold regWrite
  try dsimp only
  repeat first
    | with_reducible refine (if_neg (by (try simp only [Reg.HIF_HALT]); omega)).trans ?_
    | with_reducible refine (if_pos (by (try simp only [Reg.HIF_HALT]); omega)).trans ?_
  unfold belWrite
  try dsimp only
  repeat first
    | with_reducible refine (if_neg (by (try simp only [Reg.BEL_CNT_CLR, Reg.BEL_KICK, Reg.BEL_SPACING]); omega)).trans ?_
    | with_reducible refine (if_pos (by (try simp only [Reg.BEL_CNT_CLR, Reg.BEL_KICK, Reg.BEL_SPACING]); omega)).trans ?_
  try rfl

theorem findReg_RTS_CNT_CLR : (findReg Reg.RTS_CNT_CLR).isSome = true := by decide

theorem exec_rtsCntClr (m : Master) (v : BitVec 32) (s : State) (h : Reaches s m (Reg.RTS_CNT_CLR)) :
    exec (.rtsCntClr m v) s = done s (cntClear s (Reg.RTS_CNT 0) 10 v.toNat) := by
  change done s (busWrite s m (Reg.RTS_CNT_CLR) v.toNat 15) = _
  have hr := findReg_RTS_CNT_CLR
  generalize ha : Reg.RTS_CNT_CLR = a at *
  simp only [Reg.RTS_CNT_CLR] at ha
  rw [busWrite_reaches h (by omega) (inTarget_low (by omega)) hr (by omega) (by omega)]
  refine congrArg (done s) ?_
  unfold regWrite
  try dsimp only
  repeat first
    | with_reducible refine (if_neg (by (try simp only [Reg.HIF_HALT]); omega)).trans ?_
    | with_reducible refine (if_pos (by (try simp only [Reg.HIF_HALT]); omega)).trans ?_
  unfold rtsWrite
  try dsimp only
  repeat first
    | with_reducible refine (if_neg (by (try simp only [Reg.RTS_CNT_CLR]); omega)).trans ?_
    | with_reducible refine (if_pos (by (try simp only [Reg.RTS_CNT_CLR]); omega)).trans ?_
  try rfl

theorem findReg_DRV_CNT_CLR (t : Fin 96) : (findReg (Reg.DRV_CNT_CLR t)).isSome = true := by
  have e : ∃ row ∈ regRowsDrv, row.base = 0x1000B0 ∧ row.dims = [(0x1000, 96)] := by decide
  obtain ⟨row, hm, hb, hd⟩ := e
  refine findReg_of row (blockRows_drv (by simp only [Reg.DRV_CNT_CLR]; omega) (by simp only [Reg.DRV_CNT_CLR]; omega)) hm ?_
  simp only [rowHas, hb, hd, inDims, Reg.DRV_CNT_CLR, Bool.and_eq_true, decide_eq_true_eq]
  omega

theorem exec_drvCntClr (m : Master) (t : Fin 96) (v : BitVec 32) (s : State) (h : Reaches s m (Reg.DRV_CNT_CLR t)) :
    exec (.drvCntClr m t v) s = done s (cntClear s (Reg.DRV_CNT t 0) 10 v.toNat) := by
  change done s (busWrite s m (Reg.DRV_CNT_CLR t) v.toNat 15) = _
  have hr := findReg_DRV_CNT_CLR t
  generalize ha : Reg.DRV_CNT_CLR t = a at *
  simp only [Reg.DRV_CNT_CLR] at ha
  have e0 : (a - 0x100000) / 0x1000 = t := by omega
  rw [busWrite_reaches h (by omega) (inTarget_drv (by omega) (by omega)) hr (by omega) (by omega)]
  refine congrArg (done s) ?_
  unfold regWrite
  try dsimp only
  repeat first
    | with_reducible refine (if_neg (by (try simp only [Reg.HIF_HALT]); omega)).trans ?_
    | with_reducible refine (if_pos (by (try simp only [Reg.HIF_HALT]); omega)).trans ?_
  unfold drvWrite
  try dsimp only
  repeat first
    | with_reducible refine (if_neg (by omega)).trans ?_
    | with_reducible refine (if_pos (by omega)).trans ?_
  rw [e0]

theorem findReg_MON_CNT_CLR (t : Fin 96) : (findReg (Reg.MON_CNT_CLR t)).isSome = true := by
  have e : ∃ row ∈ regRowsMon, row.base = 0x2000A0 ∧ row.dims = [(0x1000, 96)] := by decide
  obtain ⟨row, hm, hb, hd⟩ := e
  refine findReg_of row (blockRows_mon (by simp only [Reg.MON_CNT_CLR]; omega) (by simp only [Reg.MON_CNT_CLR]; omega)) hm ?_
  simp only [rowHas, hb, hd, inDims, Reg.MON_CNT_CLR, Bool.and_eq_true, decide_eq_true_eq]
  omega

theorem exec_monCntClr (m : Master) (t : Fin 96) (v : BitVec 32) (s : State) (h : Reaches s m (Reg.MON_CNT_CLR t)) :
    exec (.monCntClr m t v) s = done s (cntClear s (Reg.MON_CNT t 0) 8 v.toNat) := by
  change done s (busWrite s m (Reg.MON_CNT_CLR t) v.toNat 15) = _
  have hr := findReg_MON_CNT_CLR t
  generalize ha : Reg.MON_CNT_CLR t = a at *
  simp only [Reg.MON_CNT_CLR] at ha
  have e0 : (a - 0x200000) / 0x1000 = t := by omega
  rw [busWrite_reaches h (by omega) (inTarget_mon (by omega) (by omega)) hr (by omega) (by omega)]
  refine congrArg (done s) ?_
  unfold regWrite
  try dsimp only
  repeat first
    | with_reducible refine (if_neg (by (try simp only [Reg.HIF_HALT]); omega)).trans ?_
    | with_reducible refine (if_pos (by (try simp only [Reg.HIF_HALT]); omega)).trans ?_
  unfold monWrite
  try dsimp only
  repeat first
    | with_reducible refine (if_neg (by omega)).trans ?_
    | with_reducible refine (if_pos (by omega)).trans ?_
  rw [e0]

theorem findReg_TRK_CNT_CLR (k : Fin 100) : (findReg (Reg.TRK_CNT_CLR k)).isSome = true := by
  have e : ∃ row ∈ regRowsTrk, row.base = 0x300060 ∧ row.dims = [(0x4000, 100)] := by decide
  obtain ⟨row, hm, hb, hd⟩ := e
  refine findReg_of row (blockRows_trk (by simp only [Reg.TRK_CNT_CLR]; omega) (by simp only [Reg.TRK_CNT_CLR]; omega)) hm ?_
  simp only [rowHas, hb, hd, inDims, Reg.TRK_CNT_CLR, Bool.and_eq_true, decide_eq_true_eq]
  omega

theorem exec_trkCntClr (m : Master) (k : Fin 100) (v : BitVec 32) (s : State) (h : Reaches s m (Reg.TRK_CNT_CLR k)) :
    exec (.trkCntClr m k v) s = done s (cntClear s (Reg.TRK_CNT k 0) 8 v.toNat) := by
  change done s (busWrite s m (Reg.TRK_CNT_CLR k) v.toNat 15) = _
  have hr := findReg_TRK_CNT_CLR k
  generalize ha : Reg.TRK_CNT_CLR k = a at *
  simp only [Reg.TRK_CNT_CLR] at ha
  have e0 : (a - 0x300000) / 0x4000 = k := by omega
  rw [busWrite_reaches h (by omega) (inTarget_trk (by omega) (by omega)) hr (by omega) (by omega)]
  refine congrArg (done s) ?_
  unfold regWrite
  try dsimp only
  repeat first
    | with_reducible refine (if_neg (by (try simp only [Reg.HIF_HALT]); omega)).trans ?_
    | with_reducible refine (if_pos (by (try simp only [Reg.HIF_HALT]); omega)).trans ?_
  unfold trkWrite
  try dsimp only
  repeat first
    | with_reducible refine (if_neg (by omega)).trans ?_
    | with_reducible refine (if_pos (by omega)).trans ?_
  rw [e0]

theorem findReg_CAL_CNT_CLR : (findReg Reg.CAL_CNT_CLR).isSome = true := by decide

theorem exec_calCntClr (m : Master) (v : BitVec 32) (s : State) (h : Reaches s m (Reg.CAL_CNT_CLR)) :
    exec (.calCntClr m v) s = done s (cntClear s (Reg.CAL_CNT 0) 8 v.toNat) := by
  change done s (busWrite s m (Reg.CAL_CNT_CLR) v.toNat 15) = _
  have hr := findReg_CAL_CNT_CLR
  generalize ha : Reg.CAL_CNT_CLR = a at *
  simp only [Reg.CAL_CNT_CLR] at ha
  rw [busWrite_reaches h (by omega) (inTarget_low (by omega)) hr (by omega) (by omega)]
  refine congrArg (done s) ?_
  unfold regWrite
  try dsimp only
  repeat first
    | with_reducible refine (if_neg (by (try simp only [Reg.HIF_HALT]); omega)).trans ?_
    | with_reducible refine (if_pos (by (try simp only [Reg.HIF_HALT]); omega)).trans ?_
  unfold calWrite
  try dsimp only
  repeat first
    | with_reducible refine (if_neg (by (try simp only [Reg.CAL_ADC_CMD, Reg.CAL_CNT_CLR]); omega)).trans ?_
    | with_reducible refine (if_pos (by (try simp only [Reg.CAL_ADC_CMD, Reg.CAL_CNT_CLR]); omega)).trans ?_
  try rfl

theorem findReg_PWR_CNT_CLR : (findReg Reg.PWR_CNT_CLR).isSome = true := by decide

theorem exec_pwrCntClr (m : Master) (v : BitVec 32) (s : State) (h : Reaches s m (Reg.PWR_CNT_CLR)) :
    exec (.pwrCntClr m v) s = done s (cntClear s (Reg.PWR_CNT 0) 8 v.toNat) := by
  change done s (busWrite s m (Reg.PWR_CNT_CLR) v.toNat 15) = _
  have hr := findReg_PWR_CNT_CLR
  generalize ha : Reg.PWR_CNT_CLR = a at *
  simp only [Reg.PWR_CNT_CLR] at ha
  rw [busWrite_reaches h (by omega) (inTarget_low (by omega)) hr (by omega) (by omega)]
  refine congrArg (done s) ?_
  unfold regWrite
  try dsimp only
  repeat first
    | with_reducible refine (if_neg (by (try simp only [Reg.HIF_HALT]); omega)).trans ?_
    | with_reducible refine (if_pos (by (try simp only [Reg.HIF_HALT]); omega)).trans ?_
  unfold pwrWrite
  try dsimp only
  repeat first
    | with_reducible refine (if_neg (by (try simp only [Reg.PWR_CNT_CLR, Reg.PWR_ENERGY, Reg.PWR_HP, Reg.PWR_KICK, Reg.PWR_KICK2, Reg.PWR_POOL, Reg.PWR_STAND]); omega)).trans ?_
    | with_reducible refine (if_pos (by (try simp only [Reg.PWR_CNT_CLR, Reg.PWR_ENERGY, Reg.PWR_HP, Reg.PWR_KICK, Reg.PWR_KICK2, Reg.PWR_POOL, Reg.PWR_STAND]); omega)).trans ?_
  try rfl

theorem findReg_TMU_CNT_CLR : (findReg Reg.TMU_CNT_CLR).isSome = true := by decide

theorem exec_tmuCntClr (m : Master) (v : BitVec 32) (s : State) (h : Reaches s m (Reg.TMU_CNT_CLR)) :
    exec (.tmuCntClr m v) s = done s (cntClear s (Reg.TMU_CNT 0) 8 v.toNat) := by
  change done s (busWrite s m (Reg.TMU_CNT_CLR) v.toNat 15) = _
  have hr := findReg_TMU_CNT_CLR
  generalize ha : Reg.TMU_CNT_CLR = a at *
  simp only [Reg.TMU_CNT_CLR] at ha
  rw [busWrite_reaches h (by omega) (inTarget_low (by omega)) hr (by omega) (by omega)]
  refine congrArg (done s) ?_
  unfold regWrite
  try dsimp only
  repeat first
    | with_reducible refine (if_neg (by (try simp only [Reg.HIF_HALT]); omega)).trans ?_
    | with_reducible refine (if_pos (by (try simp only [Reg.HIF_HALT]); omega)).trans ?_
  unfold tmuWrite
  try dsimp only
  repeat first
    | with_reducible refine (if_neg (by (try simp only [Reg.TMU_CMD, Reg.TMU_CNT_CLR, Reg.TMU_CTRL, Reg.TMU_PPS_CFG, Reg.TMU_PPS_SEC, Reg.TMU_SRC_PRIO, Reg.TMU_SYNCE]); omega)).trans ?_
    | with_reducible refine (if_pos (by (try simp only [Reg.TMU_CMD, Reg.TMU_CNT_CLR, Reg.TMU_CTRL, Reg.TMU_PPS_CFG, Reg.TMU_PPS_SEC, Reg.TMU_SRC_PRIO, Reg.TMU_SYNCE]); omega)).trans ?_
  try rfl

theorem findReg_ETH_CNT_CLR : ∀ (e : Fin 4), (findReg (Reg.ETH_CNT_CLR e)).isSome = true := by decide

theorem exec_ethCntClr (m : Master) (e : Fin 4) (v : BitVec 32) (s : State) (h : Reaches s m (Reg.ETH_CNT_CLR e)) :
    exec (.ethCntClr m e v) s = done s (cntClear s (Reg.ETH_CNT e 0) 12 v.toNat) := by
  change done s (busWrite s m (Reg.ETH_CNT_CLR e) v.toNat 15) = _
  have hr := findReg_ETH_CNT_CLR e
  generalize ha : Reg.ETH_CNT_CLR e = a at *
  simp only [Reg.ETH_CNT_CLR] at ha
  have e0 : (a - 0x040000) / 0x1000 = e := by omega
  rw [busWrite_reaches h (by omega) (inTarget_low (by omega)) hr (by omega) (by omega)]
  refine congrArg (done s) ?_
  unfold regWrite
  try dsimp only
  repeat first
    | with_reducible refine (if_neg (by (try simp only [Reg.HIF_HALT]); omega)).trans ?_
    | with_reducible refine (if_pos (by (try simp only [Reg.HIF_HALT]); omega)).trans ?_
  unfold ethWrite
  try dsimp only
  repeat first
    | with_reducible refine (if_neg (by (try simp only [Reg.ETH_PTP_GLB]); omega)).trans ?_
    | with_reducible refine (if_pos (by (try simp only [Reg.ETH_PTP_GLB]); omega)).trans ?_
  rw [e0]

theorem findReg_FLT_CNT_CLR : (findReg Reg.FLT_CNT_CLR).isSome = true := by decide

theorem exec_fltCntClr (m : Master) (v : BitVec 32) (s : State) (h : Reaches s m (Reg.FLT_CNT_CLR)) :
    exec (.fltCntClr m v) s = done s (cntClear s (Reg.FLT_CNT 0) 8 v.toNat) := by
  change done s (busWrite s m (Reg.FLT_CNT_CLR) v.toNat 15) = _
  have hr := findReg_FLT_CNT_CLR
  generalize ha : Reg.FLT_CNT_CLR = a at *
  simp only [Reg.FLT_CNT_CLR] at ha
  rw [busWrite_reaches h (by omega) (inTarget_low (by omega)) hr (by omega) (by omega)]
  refine congrArg (done s) ?_
  unfold regWrite
  try dsimp only
  repeat first
    | with_reducible refine (if_neg (by (try simp only [Reg.HIF_HALT]); omega)).trans ?_
    | with_reducible refine (if_pos (by (try simp only [Reg.HIF_HALT]); omega)).trans ?_
  unfold fltWrite
  try dsimp only
  repeat first
    | with_reducible refine (if_neg (by (try simp only [Reg.FLT_CNT_CLR, Reg.FLT_FORCE]); omega)).trans ?_
    | with_reducible refine (if_pos (by (try simp only [Reg.FLT_CNT_CLR, Reg.FLT_FORCE]); omega)).trans ?_
  try rfl

theorem findReg_THM_CNT_CLR : (findReg Reg.THM_CNT_CLR).isSome = true := by decide

theorem exec_thmCntClr (m : Master) (v : BitVec 32) (s : State) (h : Reaches s m (Reg.THM_CNT_CLR)) :
    exec (.thmCntClr m v) s = done s (cntClear s (Reg.THM_CNT 0) 6 v.toNat) := by
  change done s (busWrite s m (Reg.THM_CNT_CLR) v.toNat 15) = _
  have hr := findReg_THM_CNT_CLR
  generalize ha : Reg.THM_CNT_CLR = a at *
  simp only [Reg.THM_CNT_CLR] at ha
  rw [busWrite_reaches h (by omega) (inTarget_low (by omega)) hr (by omega) (by omega)]
  refine congrArg (done s) ?_
  unfold regWrite
  try dsimp only
  repeat first
    | with_reducible refine (if_neg (by (try simp only [Reg.HIF_HALT]); omega)).trans ?_
    | with_reducible refine (if_pos (by (try simp only [Reg.HIF_HALT]); omega)).trans ?_
  unfold thmWrite
  try dsimp only
  repeat first
    | with_reducible refine (if_neg (by (try simp only [Reg.THM_CNT_CLR, Reg.THM_DIE_THR, Reg.THM_PIC_THR, Reg.THM_SPACE]); omega)).trans ?_
    | with_reducible refine (if_pos (by (try simp only [Reg.THM_CNT_CLR, Reg.THM_DIE_THR, Reg.THM_PIC_THR, Reg.THM_SPACE]); omega)).trans ?_
  try rfl

theorem findReg_XBR_CNT_CLR : (findReg Reg.XBR_CNT_CLR).isSome = true := by decide

theorem exec_xbrCntClr (m : Master) (v : BitVec 32) (s : State) (h : Reaches s m (Reg.XBR_CNT_CLR)) :
    exec (.xbrCntClr m v) s = done s (cntClear s (Reg.XBR_CNT 0) 4 v.toNat) := by
  change done s (busWrite s m (Reg.XBR_CNT_CLR) v.toNat 15) = _
  have hr := findReg_XBR_CNT_CLR
  generalize ha : Reg.XBR_CNT_CLR = a at *
  simp only [Reg.XBR_CNT_CLR] at ha
  rw [busWrite_reaches h (by omega) (inTarget_low (by omega)) hr (by omega) (by omega)]
  refine congrArg (done s) ?_
  unfold regWrite
  try dsimp only
  repeat first
    | with_reducible refine (if_neg (by (try simp only [Reg.HIF_HALT]); omega)).trans ?_
    | with_reducible refine (if_pos (by (try simp only [Reg.HIF_HALT]); omega)).trans ?_
  unfold xbrWrite
  try dsimp only
  repeat first
    | with_reducible refine (if_neg (by (try simp only [Reg.XBR_CNT_CLR]); omega)).trans ?_
    | with_reducible refine (if_pos (by (try simp only [Reg.XBR_CNT_CLR]); omega)).trans ?_
  try rfl

theorem findReg_XBR_CTRL : (findReg Reg.XBR_CTRL).isSome = true := by decide

theorem exec_remap (m : Master) (v : BitVec 32) (s : State) (h : Reaches s m (Reg.XBR_CTRL)) :
    exec (.remap m v) s = done s (plainWrite s Reg.XBR_CTRL v.toNat) := by
  change done s (busWrite s m (Reg.XBR_CTRL) v.toNat 15) = _
  have hr := findReg_XBR_CTRL
  generalize ha : Reg.XBR_CTRL = a at *
  simp only [Reg.XBR_CTRL] at ha
  rw [busWrite_reaches h (by omega) (inTarget_low (by omega)) hr (by omega) (by omega)]
  refine congrArg (done s) ?_
  unfold regWrite
  try dsimp only
  repeat first
    | with_reducible refine (if_neg (by (try simp only [Reg.HIF_HALT]); omega)).trans ?_
    | with_reducible refine (if_pos (by (try simp only [Reg.HIF_HALT]); omega)).trans ?_
  unfold xbrWrite
  try dsimp only
  repeat first
    | with_reducible refine (if_neg (by (try simp only [Reg.XBR_CNT_CLR]); omega)).trans ?_
    | with_reducible refine (if_pos (by (try simp only [Reg.XBR_CNT_CLR]); omega)).trans ?_
  try rfl

theorem findReg_XBR_SLICE : ∀ (i : Fin 13), (findReg (Reg.XBR_SLICE i)).isSome = true := by decide

theorem exec_xbrSliceWrite (m : Master) (i : Fin 13) (v : BitVec 32) (s : State) (h : Reaches s m (Reg.XBR_SLICE i)) :
    exec (.xbrSliceWrite m i v) s = done s (plainWrite s (Reg.XBR_SLICE i) v.toNat) := by
  change done s (busWrite s m (Reg.XBR_SLICE i) v.toNat 15) = _
  have hr := findReg_XBR_SLICE i
  generalize ha : Reg.XBR_SLICE i = a at *
  simp only [Reg.XBR_SLICE] at ha
  rw [busWrite_reaches h (by omega) (inTarget_low (by omega)) hr (by omega) (by omega)]
  refine congrArg (done s) ?_
  unfold regWrite
  try dsimp only
  repeat first
    | with_reducible refine (if_neg (by (try simp only [Reg.HIF_HALT]); omega)).trans ?_
    | with_reducible refine (if_pos (by (try simp only [Reg.HIF_HALT]); omega)).trans ?_
  unfold xbrWrite
  try dsimp only
  repeat first
    | with_reducible refine (if_neg (by (try simp only [Reg.XBR_CNT_CLR]); omega)).trans ?_
    | with_reducible refine (if_pos (by (try simp only [Reg.XBR_CNT_CLR]); omega)).trans ?_
  try rfl

theorem findReg_XBR_PARK : ∀ (k : Fin 2), (findReg (Reg.XBR_PARK k)).isSome = true := by decide

theorem exec_xbrParkWrite (m : Master) (k : Fin 2) (v : BitVec 32) (s : State) (h : Reaches s m (Reg.XBR_PARK k)) :
    exec (.xbrParkWrite m k v) s = done s (plainWrite s (Reg.XBR_PARK k) v.toNat) := by
  change done s (busWrite s m (Reg.XBR_PARK k) v.toNat 15) = _
  have hr := findReg_XBR_PARK k
  generalize ha : Reg.XBR_PARK k = a at *
  simp only [Reg.XBR_PARK] at ha
  rw [busWrite_reaches h (by omega) (inTarget_low (by omega)) hr (by omega) (by omega)]
  refine congrArg (done s) ?_
  unfold regWrite
  try dsimp only
  repeat first
    | with_reducible refine (if_neg (by (try simp only [Reg.HIF_HALT]); omega)).trans ?_
    | with_reducible refine (if_pos (by (try simp only [Reg.HIF_HALT]); omega)).trans ?_
  unfold xbrWrite
  try dsimp only
  repeat first
    | with_reducible refine (if_neg (by (try simp only [Reg.XBR_CNT_CLR]); omega)).trans ?_
    | with_reducible refine (if_pos (by (try simp only [Reg.XBR_CNT_CLR]); omega)).trans ?_
  try rfl

theorem findReg_GLB_RESET : (findReg Reg.GLB_RESET).isSome = true := by decide

theorem exec_glbReset (m : Master) (v : BitVec 32) (s : State) (h : Reaches s m (Reg.GLB_RESET)) :
    exec (.glbReset m v) s = done s (Sys2Proof.Machine.glbReset s m v.toNat) := by
  change done s (busWrite s m (Reg.GLB_RESET) v.toNat 15) = _
  have hr := findReg_GLB_RESET
  generalize ha : Reg.GLB_RESET = a at *
  simp only [Reg.GLB_RESET] at ha
  rw [busWrite_reaches h (by omega) (inTarget_low (by omega)) hr (by omega) (by omega)]
  refine congrArg (done s) ?_
  unfold regWrite
  try dsimp only
  repeat first
    | with_reducible refine (if_neg (by (try simp only [Reg.HIF_HALT]); omega)).trans ?_
    | with_reducible refine (if_pos (by (try simp only [Reg.HIF_HALT]); omega)).trans ?_
  unfold glbWrite
  try dsimp only
  repeat first
    | with_reducible refine (if_neg (by (try simp only [Reg.GLB_PSTATE, Reg.GLB_RESET, Reg.GLB_WDOG, Reg.GLB_WDOG_KICK]); omega)).trans ?_
    | with_reducible refine (if_pos (by (try simp only [Reg.GLB_PSTATE, Reg.GLB_RESET, Reg.GLB_WDOG, Reg.GLB_WDOG_KICK]); omega)).trans ?_
  try rfl

theorem findReg_GLB_WDOG_KICK : (findReg Reg.GLB_WDOG_KICK).isSome = true := by decide

theorem exec_glbWdogKick (m : Master) (v : BitVec 32) (s : State) (h : Reaches s m (Reg.GLB_WDOG_KICK)) :
    exec (.glbWdogKick m v) s = done s (dogKick s v.toNat) := by
  change done s (busWrite s m (Reg.GLB_WDOG_KICK) v.toNat 15) = _
  have hr := findReg_GLB_WDOG_KICK
  generalize ha : Reg.GLB_WDOG_KICK = a at *
  simp only [Reg.GLB_WDOG_KICK] at ha
  rw [busWrite_reaches h (by omega) (inTarget_low (by omega)) hr (by omega) (by omega)]
  refine congrArg (done s) ?_
  unfold regWrite
  try dsimp only
  repeat first
    | with_reducible refine (if_neg (by (try simp only [Reg.HIF_HALT]); omega)).trans ?_
    | with_reducible refine (if_pos (by (try simp only [Reg.HIF_HALT]); omega)).trans ?_
  unfold glbWrite
  try dsimp only
  repeat first
    | with_reducible refine (if_neg (by (try simp only [Reg.GLB_PSTATE, Reg.GLB_RESET, Reg.GLB_WDOG, Reg.GLB_WDOG_KICK]); omega)).trans ?_
    | with_reducible refine (if_pos (by (try simp only [Reg.GLB_PSTATE, Reg.GLB_RESET, Reg.GLB_WDOG, Reg.GLB_WDOG_KICK]); omega)).trans ?_
  try rfl

theorem findReg_GLB_PSTATE : (findReg Reg.GLB_PSTATE).isSome = true := by decide

theorem exec_doze (m : Master) (v : BitVec 32) (s : State) (h : Reaches s m (Reg.GLB_PSTATE)) :
    exec (.doze m v) s = done s (pstateWrite s v.toNat) := by
  change done s (busWrite s m (Reg.GLB_PSTATE) v.toNat 15) = _
  have hr := findReg_GLB_PSTATE
  generalize ha : Reg.GLB_PSTATE = a at *
  simp only [Reg.GLB_PSTATE] at ha
  rw [busWrite_reaches h (by omega) (inTarget_low (by omega)) hr (by omega) (by omega)]
  refine congrArg (done s) ?_
  unfold regWrite
  try dsimp only
  repeat first
    | with_reducible refine (if_neg (by (try simp only [Reg.HIF_HALT]); omega)).trans ?_
    | with_reducible refine (if_pos (by (try simp only [Reg.HIF_HALT]); omega)).trans ?_
  unfold glbWrite
  try dsimp only
  repeat first
    | with_reducible refine (if_neg (by (try simp only [Reg.GLB_PSTATE, Reg.GLB_RESET, Reg.GLB_WDOG, Reg.GLB_WDOG_KICK]); omega)).trans ?_
    | with_reducible refine (if_pos (by (try simp only [Reg.GLB_PSTATE, Reg.GLB_RESET, Reg.GLB_WDOG, Reg.GLB_WDOG_KICK]); omega)).trans ?_
  try rfl

theorem exec_nap (m : Master) (v : BitVec 32) (s : State) (h : Reaches s m (Reg.GLB_PSTATE)) :
    exec (.nap m v) s = done s (pstateWrite s v.toNat) := by
  change done s (busWrite s m (Reg.GLB_PSTATE) v.toNat 15) = _
  have hr := findReg_GLB_PSTATE
  generalize ha : Reg.GLB_PSTATE = a at *
  simp only [Reg.GLB_PSTATE] at ha
  rw [busWrite_reaches h (by omega) (inTarget_low (by omega)) hr (by omega) (by omega)]
  refine congrArg (done s) ?_
  unfold regWrite
  try dsimp only
  repeat first
    | with_reducible refine (if_neg (by (try simp only [Reg.HIF_HALT]); omega)).trans ?_
    | with_reducible refine (if_pos (by (try simp only [Reg.HIF_HALT]); omega)).trans ?_
  unfold glbWrite
  try dsimp only
  repeat first
    | with_reducible refine (if_neg (by (try simp only [Reg.GLB_PSTATE, Reg.GLB_RESET, Reg.GLB_WDOG, Reg.GLB_WDOG_KICK]); omega)).trans ?_
    | with_reducible refine (if_pos (by (try simp only [Reg.GLB_PSTATE, Reg.GLB_RESET, Reg.GLB_WDOG, Reg.GLB_WDOG_KICK]); omega)).trans ?_
  try rfl

theorem exec_run (m : Master) (v : BitVec 32) (s : State) (h : Reaches s m (Reg.GLB_PSTATE)) :
    exec (.run m v) s = done s (pstateWrite s v.toNat) := by
  change done s (busWrite s m (Reg.GLB_PSTATE) v.toNat 15) = _
  have hr := findReg_GLB_PSTATE
  generalize ha : Reg.GLB_PSTATE = a at *
  simp only [Reg.GLB_PSTATE] at ha
  rw [busWrite_reaches h (by omega) (inTarget_low (by omega)) hr (by omega) (by omega)]
  refine congrArg (done s) ?_
  unfold regWrite
  try dsimp only
  repeat first
    | with_reducible refine (if_neg (by (try simp only [Reg.HIF_HALT]); omega)).trans ?_
    | with_reducible refine (if_pos (by (try simp only [Reg.HIF_HALT]); omega)).trans ?_
  unfold glbWrite
  try dsimp only
  repeat first
    | with_reducible refine (if_neg (by (try simp only [Reg.GLB_PSTATE, Reg.GLB_RESET, Reg.GLB_WDOG, Reg.GLB_WDOG_KICK]); omega)).trans ?_
    | with_reducible refine (if_pos (by (try simp only [Reg.GLB_PSTATE, Reg.GLB_RESET, Reg.GLB_WDOG, Reg.GLB_WDOG_KICK]); omega)).trans ?_
  try rfl

theorem findReg_BOOT_CMD : (findReg Reg.BOOT_CMD).isSome = true := by decide

theorem exec_confirm (m : Master) (v : BitVec 32) (s : State) (h : Reaches s m (Reg.BOOT_CMD)) :
    exec (.confirm m v) s = done s (bootCmd s v.toNat) := by
  change done s (busWrite s m (Reg.BOOT_CMD) v.toNat 15) = _
  have hr := findReg_BOOT_CMD
  generalize ha : Reg.BOOT_CMD = a at *
  simp only [Reg.BOOT_CMD] at ha
  rw [busWrite_reaches h (by omega) (inTarget_low (by omega)) hr (by omega) (by omega)]
  refine congrArg (done s) ?_
  unfold regWrite
  try dsimp only
  repeat first
    | with_reducible refine (if_neg (by (try simp only [Reg.HIF_HALT]); omega)).trans ?_
    | with_reducible refine (if_pos (by (try simp only [Reg.HIF_HALT]); omega)).trans ?_
  unfold bootWrite
  try dsimp only
  repeat first
    | with_reducible refine (if_neg (by (try simp only [Reg.BOOT_CMD, Reg.BOOT_PROG]); omega)).trans ?_
    | with_reducible refine (if_pos (by (try simp only [Reg.BOOT_CMD, Reg.BOOT_PROG]); omega)).trans ?_
  try rfl

theorem exec_bootCmdStage (m : Master) (v : BitVec 32) (s : State) (h : Reaches s m (Reg.BOOT_CMD)) :
    exec (.bootCmdStage m v) s = done s (bootCmd s v.toNat) := by
  change done s (busWrite s m (Reg.BOOT_CMD) v.toNat 15) = _
  have hr := findReg_BOOT_CMD
  generalize ha : Reg.BOOT_CMD = a at *
  simp only [Reg.BOOT_CMD] at ha
  rw [busWrite_reaches h (by omega) (inTarget_low (by omega)) hr (by omega) (by omega)]
  refine congrArg (done s) ?_
  unfold regWrite
  try dsimp only
  repeat first
    | with_reducible refine (if_neg (by (try simp only [Reg.HIF_HALT]); omega)).trans ?_
    | with_reducible refine (if_pos (by (try simp only [Reg.HIF_HALT]); omega)).trans ?_
  unfold bootWrite
  try dsimp only
  repeat first
    | with_reducible refine (if_neg (by (try simp only [Reg.BOOT_CMD, Reg.BOOT_PROG]); omega)).trans ?_
    | with_reducible refine (if_pos (by (try simp only [Reg.BOOT_CMD, Reg.BOOT_PROG]); omega)).trans ?_
  try rfl

theorem exec_jwrite (m : Master) (v : BitVec 32) (s : State) (h : Reaches s m (Reg.BOOT_CMD)) :
    exec (.jwrite m v) s = done s (bootCmd s v.toNat) := by
  change done s (busWrite s m (Reg.BOOT_CMD) v.toNat 15) = _
  have hr := findReg_BOOT_CMD
  generalize ha : Reg.BOOT_CMD = a at *
  simp only [Reg.BOOT_CMD] at ha
  rw [busWrite_reaches h (by omega) (inTarget_low (by omega)) hr (by omega) (by omega)]
  refine congrArg (done s) ?_
  unfold regWrite
  try dsimp only
  repeat first
    | with_reducible refine (if_neg (by (try simp only [Reg.HIF_HALT]); omega)).trans ?_
    | with_reducible refine (if_pos (by (try simp only [Reg.HIF_HALT]); omega)).trans ?_
  unfold bootWrite
  try dsimp only
  repeat first
    | with_reducible refine (if_neg (by (try simp only [Reg.BOOT_CMD, Reg.BOOT_PROG]); omega)).trans ?_
    | with_reducible refine (if_pos (by (try simp only [Reg.BOOT_CMD, Reg.BOOT_PROG]); omega)).trans ?_
  try rfl

theorem findReg_BOOT_PROG : (findReg Reg.BOOT_PROG).isSome = true := by decide

theorem exec_readPage (m : Master) (v : BitVec 32) (s : State) (h : Reaches s m (Reg.BOOT_PROG)) :
    exec (.readPage m v) s = done s (progWrite s v.toNat) := by
  change done s (busWrite s m (Reg.BOOT_PROG) v.toNat 15) = _
  have hr := findReg_BOOT_PROG
  generalize ha : Reg.BOOT_PROG = a at *
  simp only [Reg.BOOT_PROG] at ha
  rw [busWrite_reaches h (by omega) (inTarget_low (by omega)) hr (by omega) (by omega)]
  refine congrArg (done s) ?_
  unfold regWrite
  try dsimp only
  repeat first
    | with_reducible refine (if_neg (by (try simp only [Reg.HIF_HALT]); omega)).trans ?_
    | with_reducible refine (if_pos (by (try simp only [Reg.HIF_HALT]); omega)).trans ?_
  unfold bootWrite
  try dsimp only
  repeat first
    | with_reducible refine (if_neg (by (try simp only [Reg.BOOT_CMD, Reg.BOOT_PROG]); omega)).trans ?_
    | with_reducible refine (if_pos (by (try simp only [Reg.BOOT_CMD, Reg.BOOT_PROG]); omega)).trans ?_
  try rfl

theorem exec_programPage (m : Master) (v : BitVec 32) (s : State) (h : Reaches s m (Reg.BOOT_PROG)) :
    exec (.programPage m v) s = done s (progWrite s v.toNat) := by
  change done s (busWrite s m (Reg.BOOT_PROG) v.toNat 15) = _
  have hr := findReg_BOOT_PROG
  generalize ha : Reg.BOOT_PROG = a at *
  simp only [Reg.BOOT_PROG] at ha
  rw [busWrite_reaches h (by omega) (inTarget_low (by omega)) hr (by omega) (by omega)]
  refine congrArg (done s) ?_
  unfold regWrite
  try dsimp only
  repeat first
    | with_reducible refine (if_neg (by (try simp only [Reg.HIF_HALT]); omega)).trans ?_
    | with_reducible refine (if_pos (by (try simp only [Reg.HIF_HALT]); omega)).trans ?_
  unfold bootWrite
  try dsimp only
  repeat first
    | with_reducible refine (if_neg (by (try simp only [Reg.BOOT_CMD, Reg.BOOT_PROG]); omega)).trans ?_
    | with_reducible refine (if_pos (by (try simp only [Reg.BOOT_CMD, Reg.BOOT_PROG]); omega)).trans ?_
  try rfl

theorem exec_eraseBlock (m : Master) (v : BitVec 32) (s : State) (h : Reaches s m (Reg.BOOT_PROG)) :
    exec (.eraseBlock m v) s = done s (progWrite s v.toNat) := by
  change done s (busWrite s m (Reg.BOOT_PROG) v.toNat 15) = _
  have hr := findReg_BOOT_PROG
  generalize ha : Reg.BOOT_PROG = a at *
  simp only [Reg.BOOT_PROG] at ha
  rw [busWrite_reaches h (by omega) (inTarget_low (by omega)) hr (by omega) (by omega)]
  refine congrArg (done s) ?_
  unfold regWrite
  try dsimp only
  repeat first
    | with_reducible refine (if_neg (by (try simp only [Reg.HIF_HALT]); omega)).trans ?_
    | with_reducible refine (if_pos (by (try simp only [Reg.HIF_HALT]); omega)).trans ?_
  unfold bootWrite
  try dsimp only
  repeat first
    | with_reducible refine (if_neg (by (try simp only [Reg.BOOT_CMD, Reg.BOOT_PROG]); omega)).trans ?_
    | with_reducible refine (if_pos (by (try simp only [Reg.BOOT_CMD, Reg.BOOT_PROG]); omega)).trans ?_
  try rfl

end Sys2Proof.Machine
end

