-- ==== Sys2Proof/Laws/Exec.lean ====
section
/-! SUPPORT. What every command has in common: it ends with `done`, so it answers a next state, leaves the queue to the
step and settles the level outputs. -/

namespace Sys2Proof.Machine

/-- Every command ends with `done`. -/
theorem exec_done (c : Instr) (s : State) : ∃ t, exec c s = done s t := by
  cases c <;> exact ⟨_, rfl⟩

/-- The alert condition reads registers only. -/
theorem alertNow_congr {s t : State} (h : s.regs = t.regs) : alertNow s = alertNow t := by
  have e : ∀ u : State, alertNow u = alertNow { State.reset with regs := u.regs } := fun _ => rfl
  rw [e s, e t, h]

theorem outsOk_settleOuts (s t : State) : outsOk (settleOuts s t) = true := by
  have h : alertNow (settleOuts s t) = alertNow t := alertNow_congr rfl
  simp only [outsOk, h]
  simp [settleOuts]

/-- What every command answers: a next state with the queue as it was and the level outputs settled. -/
theorem exec_next (c : Instr) (s : State) :
    ∃ t, exec c s = .next t ∧ t.pending = s.pending ∧ outsOk t = true := by
  obtain ⟨t, h⟩ := exec_done c s
  exact ⟨_, h, rfl, outsOk_settleOuts s t⟩

end Sys2Proof.Machine
end

