-- ==== Sys2Proof/Laws/Memory.lean ====
section
/-! SUPPORT. Laws of byte memories: a read after a write, and that every memory operation keeps the canonical form. -/

namespace Sys2Proof.Machine

/-! ## Reading after writing -/

theorem rb_tset (m : Tab Byte) (d : Byte) (i j : Nat) (x : Byte) : rb (tset m d i x) j d = if j = i then x.toNat else rb m j d := by
  unfold rb; rw [tget_tset]; split <;> rfl

/-- A byte outside the written range is unchanged. -/
theorem rb_wr_out (d : Byte) (j n : Nat) : ∀ (m : Tab Byte) (a v : Nat), (j < a ∨ a + n ≤ j) → rb (wr m a n v d) j d = rb m j d := by
  induction n with
  | zero => intros; rfl
  | succ n ih =>
    intro m a v h
    rw [wr, ih _ _ _ (by omega), rb_tset, if_neg (by omega)]

/-- A byte of the written range holds its part of the number. -/
theorem rb_wr_in (d : Byte) (j n : Nat) : ∀ (m : Tab Byte) (a v : Nat), a ≤ j → j < a + n →
    rb (wr m a n v d) j d = v / 256 ^ (j - a) % 256 := by
  induction n with
  | zero => intros; omega
  | succ n ih =>
    intro m a v h1 h2
    rw [wr]
    by_cases h : j = a
    · subst h
      rw [rb_wr_out _ _ _ _ _ _ (by omega), rb_tset, if_pos rfl]
      simp
    · rw [ih _ _ _ (by omega) (by omega)]
      have : j - a = (j - (a + 1)) + 1 := by omega
      rw [this, Nat.pow_succ, Nat.mul_comm, Nat.div_div_eq_div_mul]

/-- A number outside the written range is unchanged. -/
theorem rd_wr_out (d : Byte) (k n : Nat) (a v : Nat) (m : Tab Byte) : ∀ b, (b + k ≤ a ∨ a + n ≤ b) →
    rd (wr m a n v d) b k d = rd m b k d := by
  induction k with
  | zero => intros; rfl
  | succ k ih =>
    intro b h
    rw [rd, rd, rb_wr_out _ _ _ _ _ _ (by omega), ih _ (by omega)]

/-- A number read back from where it was written. -/
theorem rd_wr (d : Byte) (n : Nat) : ∀ (m : Tab Byte) (a v : Nat), rd (wr m a n v d) a n d = v % 256 ^ n := by
  induction n with
  | zero => intro m a v; simp [rd, Nat.mod_one]
  | succ n ih =>
    intro m a v
    rw [rd, rb_wr_in _ _ _ _ _ _ (by omega) (by omega)]
    rw [wr, ih]
    simp only [Nat.sub_self, Nat.pow_zero, Nat.div_one]
    rw [Nat.pow_succ, Nat.mul_comm (256 ^ n) 256, Nat.mod_mul]

/-! ## The canonical form -/

theorem wf_tset {m : Tab Byte} {d : Byte} (i : Nat) (x : Byte) (h : Memory.wf m d = true) : Memory.wf (tset m d i x) d = true :=
  twf_tset (d := fun _ => d) i x h

theorem wf_wr {d : Byte} (n : Nat) : ∀ {m : Tab Byte} (a v : Nat), Memory.wf m d = true → Memory.wf (wr m a n v d) d = true := by
  induction n with
  | zero => intro m a v h; exact h
  | succ n ih => intro m a v h; exact ih _ _ (wf_tset _ _ h)

theorem wf_wbytes {d : Byte} (l : List Nat) : ∀ {m : Tab Byte} (a : Nat), Memory.wf m d = true → Memory.wf (wbytes m a l d) d = true := by
  induction l with
  | nil => intro m a h; exact h
  | cons b r ih => intro m a h; exact ih _ (wf_tset _ _ h)

theorem wf_cut {m : Tab Byte} {d : Byte} (a n : Nat) (h : Memory.wf m d = true) : Memory.wf (cut m a n) d = true := twf_filter _ h

theorem wf_slice {m : Tab Byte} {d : Byte} (a n : Nat) (h : Memory.wf m d = true) : Memory.wf (slice m a n) d = true := twf_filter _ h

theorem wf_copyRange {src dst : Tab Byte} (a n b : Nat) (h : Memory.wf dst 0 = true) : Memory.wf (copyRange src a n dst b) 0 = true := by
  unfold copyRange
  generalize slice src a n = l
  have hc := wf_cut b n h
  generalize cut dst b n = m at hc
  induction l generalizing m with
  | nil => exact hc
  | cons e r ih => exact ih _ (wf_tset _ _ hc)

/-- Every write of the device's windows keeps their canonical form. -/
theorem wf_mset {s : State} (a n v : Nat) (h : Memory.wf s.mem 0 = true) : Memory.wf (mset s a n v).mem 0 = true := wf_wr _ _ _ h

/-- The memories of reset have it. -/
theorem wf_reset : Memory.wf State.reset.mem 0 = true ∧ Memory.wf State.reset.slotMem 0 = true ∧ Memory.wf State.reset.boot.flash 0xFF = true ∧
    Memory.wf State.reset.trk.dmem 0 = true ∧ Memory.wf State.reset.trk.imem 0 = true ∧ Memory.wf State.reset.trk.ctx 0 = true ∧
    Memory.wf State.reset.hold.param 0 = true := by decide

end Sys2Proof.Machine
end

