-- ==== Sys2Proof/WellFormed.lean ====
section
/-! DEFINITION. Which commands the outside world can form: what the types of their operands do not say. -/

namespace Sys2Proof

/-- No key twice. -/
def keysOnce (l : List Nat) : Bool := decide (l.eraseDups.length = l.length)

/-- R293: a received message's timestamp and correctionField are within their fields. -/
def PtpMsg.wf (m : PtpMsg) : Bool := decide (m.ns.toNat < 1000000000) && decide (-(2 ^ 63) ≤ m.corr ∧ m.corr < 2 ^ 63)

/-- A command that the outside world can form. -/
def Instr.wf (i : Instr) : Bool :=
  match i with
  -- R322: a fetch brings one to eight descriptors
  | .descriptorFetchComplete _ _ data => decide (1 ≤ data.length ∧ data.length ≤ 8)
  -- R77: a comparator is named once
  | .landingCheck cs => keysOnce (cs.map (fun c => c.1.val))
  -- R163: an ADC is named once
  | .selfCalibrationComplete res => keysOnce (res.map (fun r => r.1.val)) && res.all (fun r => decide (r.2.2.2.length = 6))
  -- R158: a pair is named once
  | .fire seen => keysOnce (seen.map (fun c => c.1.val))
  -- R156: a burst has two to seven samples
  | .watchBurstEnd _ samples => decide (2 ≤ samples.length ∧ samples.length ≤ 7)
  -- R232: a dwell ends with at least one pair of samples
  | .dwell _ _ pairs => decide (pairs ≠ [])
  -- R370: 64 die sensors and 96 PIC tiles
  | .sensorPublication raw => decide (raw.length = 160)
  -- R381: the initialisation list writes words
  | .powerOnReset env => env.init.all (fun w => decide (w.1.toNat % 4 = 0))
  -- R305, R402: configuration and crossbar accesses are of words
  | .configurationRequest _ _ reg _ _ => decide (reg.toNat % 4 = 0)
  | .registerWrite _ a _ _ => decide (a.toNat % 4 = 0)
  | .sync _ m | .followUp _ m | .delayReq _ m | .delayResp _ m | .pdelayReq _ m | .pdelayResp _ m | .pdelayRespFollowUp _ m => m.wf
  | .sqTail .. | .cqHead .. | .descriptorFetchIssue | .dmaReadFailure .. | .bell | .now | .amend | .cancel | .chart
  | .chartImageFetchComplete .. | .acquire | .renew | .release | .armLease | .seize | .round | .sweepRequest | .abort
  | .markStale | .routeCheck | .bellState | .unRetire | .promoteOtherHost | .telem | .echo | .heartbeat
  | .pairHoldExpiry | .leaseExpiry | .overlapEnd | .firewatchChallenge | .reportCardGrade | .modeWrite .. | .promote ..
  | .cardClr .. | .hifHalt .. | .ringEnSet .. | .ringEnClear .. | .hifPcntClr .. | .hifPcntClrRing .. | .iscMtrRate ..
  | .completionInterrupt .. | .statusBlockWrite .. | .perst .. | .functionLevelReset .. | .d3hotEntry ..
  | .d3hotExit .. | .pcieLinkDown .. | .pcieLinkUp .. | .streamPeriod .. | .telemetryRecord .. | .telemetryFrame ..
  | .bellNotice .. | .readId | .readStatus | .submit .. | .readCpl .. | .loadChart .. | .readReg .. | .writeReg ..
  | .resetPort .. | .addr .. | .read | .readInc | .write .. | .writeInc .. | .status | .defaultTargetAccess ..
  | .tmuNowCapture .. | .drvSlotData .. | .solveStart | .solveComplete .. | .xcheckDuplicate | .xcheckComplete ..
  | .routeCheckStart | .routeCheckComplete _ | .routeCheckTimeout | .planRequest | .kickPreRaise | .kickReturn | .arm
  | .wave2Start | .playbackEnd .. | .retryArm | .retryStrobe | .verifyComplete | .passRelease | .bellSkip
  | .retirement | .spanStart | .spanEnd | .drvEnable .. | .drvRelease .. | .manual .. | .parked ..
  | .pendingRegisterWrite .. | .drvLoad .. | .slewStep .. | .housekeepingMeasurement .. | .thresholdRecompute ..
  | .headroomStepUp .. | .channelFault .. | .drvTest .. | .selftestComplete .. | .monEnable .. | .gainChange ..
  | .windowWrite .. | .windowHoldEnd .. | .exit .. | .scanConversion .. | .watchBurstStart .. | .monDiag ..
  | .diagConversion .. | .adcCalibrationAll .. | .adcCalibrationSingle .. | .eventEntry .. | .timerMatch ..
  | .coreWatchdogExpiry .. | .coreFault .. | .migration | .migrationComplete | .neighbourMessage | .stageComplete ..
  | .hookEn .. | .add .. | .sub .. | .adds .. | .subs .. | .and .. | .or .. | .xor .. | .shl .. | .shr .. | .asr ..
  | .min .. | .max .. | .abs .. | .neg .. | .cmp .. | .norm .. | .addi .. | .andi .. | .cmpi .. | .shli .. | .shri ..
  | .asri .. | .ldi .. | .mul .. | .mac .. | .msu .. | .mac2 .. | .cmac .. | .cmsu .. | .mova .. | .clr .. | .cmpa ..
  | .ldA .. | .stA .. | .ldB .. | .ldBu .. | .ldH .. | .ldHu .. | .ldW .. | .stB .. | .stH .. | .stW .. | .ld2 ..
  | .mov .. | .lea .. | .b .. | .bcc .. | .call .. | .ret .. | .rep .. | .nop .. | .sleep .. | .wait .. | .rete ..
  | .reth .. | .movc .. | .inp .. | .out .. | .load .. | .watch .. | .msg .. | .retire .. | .stage .. | .post ..
  | .holdWake .. | .settle .. | .signchk .. | .probeWait .. | .recover .. | .arriving .. | .arriveMax .. | .rampStep ..
  | .temp .. | .wrapStep .. | .neighbour .. | .commit .. | .holdSummaryRefresh .. | .passiveMeasurement .. | .sweep ..
  | .passRequestRetry .. | .roundMax .. | .calibrationSwap | .railEn .. | .restart .. | .railInRegulation ..
  | .railOutOfRegulation .. | .railFail .. | .railTargetWrite .. | .referenceFallStart .. | .shutdownRampEnd
  | .periodBoundary .. | .trip .. | .perWrite .. | .cmpWrite .. | .pwrPwmCommit .. | .brokerLimitWrite .. | .set ..
  | .step .. | .timeStep | .rcArm .. | .rcNow .. | .rcStop .. | .rollCall | .rollCallHeader | .offsetSample ..
  | .waitToRestore | .ppsEdge .. | .ppsWindowExpiry .. | .ppsOut | .bellPulse .. | .ethLinkUp .. | .ethLinkDown ..
  | .announce .. | .signaling .. | .management .. | .syncInterval .. | .delayReqInterval .. | .announceInterval ..
  | .announceReceiptTimeout .. | .arp .. | .neighbourSolicitation .. | .esmc .. | .esmcTimeout | .releaseDwell
  | .graceExpiry | .recordWrite | .force .. | .faultInterrupt .. | .inval .. | .refuse .. | .outcome .. | .rtsCntClr ..
  | .drvCntClr .. | .monCntClr .. | .trkCntClr .. | .calCntClr .. | .pwrCntClr .. | .tmuCntClr .. | .ethCntClr ..
  | .iscCntClr .. | .fltCntClr .. | .thmCntClr .. | .xbrCntClr .. | .remap .. | .xbrSliceWrite .. | .xbrParkWrite ..
  | .bootReady | .supplyLoss | .rstN | .watchdogExpiry | .glbReset .. | .glbWdogKick .. | .warmRestart ..
  | .laneSelfTest .. | .pipelineResume | .doze .. | .nap .. | .run .. | .powerStateEntry | .powerStateRefusal
  | .confirm .. | .bootCmdStage .. | .jwrite .. | .journalWriteBack | .journalWriteComplete .. | .readPage ..
  | .programPage .. | .eraseBlock .. | .flashOperationComplete | .extest | .samplePreload | .bypass | .idcode
  | .syncReceiptTimeout .. | .synceFrequencyLimit .. | .adcConversionTimeout .. | .tripInputRelease .. | .rstNRelease
  | .vddAuxValid | .pllUnlock .. | .pllLock .. | .ecc2 .. | .droppedFrame .. | .discardedPtpMessage .. | .tapReset
  | .functionLevelResetComplete .. | .esmcTransmission .. => true

end Sys2Proof
end

