-- ==== Sys2Proof/Tests/Slice0.lean ====
section
/-! SUPPORT. Tests: ill-formed commands refused by WellFormed, single commands on small states, and witnesses of the
statements' hypotheses: `wit_<statement>` gives, clause by clause, a state and operands that meet them. -/

namespace Sys2Proof.Machine.Test
open Sys2Proof Sys2Proof.Machine

-- one theorem after another: side by side, the evaluations take more memory than the check allows
set_option Elab.async false

/-! ## Small states -/

/-- Fields of registers set one after another. -/
def regs (l : List (Nat × Fld × Nat)) (s : State := State.reset) : State := l.foldl (fun s x => fset s x.1 x.2.1 x.2.2) s

/-- Bytes of the SRAM windows written. -/
def bytes (l : List (Nat × Nat × Nat)) (s : State := State.reset) : State := l.foldl (fun s x => mset s x.1 x.2.1 x.2.2) s

/-- A fabric map in its window in which cell 0 exists on tile 0. -/
def mapped (s : State := State.reset) : State := bytes [(0xE00000, 1, 1), (0xE00034, 1, 1)] s

/-- A device that has been powered on. -/
def powered (s : State := State.reset) : State := { s with boot := { s.boot with powered := true } }

/-- A format 2 descriptor: its header and body as a number, with its digest. -/
def dsc (b : Nat) : BitVec 512 :=
  let d := BitVec.ofNat 512 (b + 2 * 2 ^ 8)
  BitVec.ofNat 512 (d.toNat + 2 ^ 32 * digestOf d)

/-- An entry in admission, from URGENT ring 0 of a port. -/
def ent (port : Nat) (raw : BitVec 512) (fmt1 : Bool := false) (img : Option (BitVec 8192) := none) : Entry :=
  ⟨raw, fmt1, 16 * port, port, 0, 0, 0, 0, if fmt1 then 2 ^ 63 else dB raw 8 8, img, false, false, 3, none, some 0, 1, 2, [], 0⟩

/-- The state in which admission takes an entry. -/
def taking (e : Entry) (s : State := State.reset) : State := { s with hif := { s.hif with fetched := [e] } }

/-- A ring pair replaced. -/
def ring (i : Nat) (g : Ring) (s : State := State.reset) : State := setRing s i g

theorem none_all {α : Type} {o : Option α} {P : α → Prop} (h : o = none) : ∀ x, o = some x → P x := by
  rintro x rfl; cases h

theorem nil_all {α : Type} {l : List α} {P : α → List α → Prop} (h : l = []) : ∀ x r, l = x :: r → P x r := by
  rintro x r rfl; cases h

theorem ne_of_none {α : Type} {o : Option α} {x : α} (h : o = none) : o ≠ some x := by
  rintro rfl; cases h

/-! ## Ill-formed commands -/

theorem test_wf_fetch_empty : (Instr.descriptorFetchComplete 0 0 []).wf = false := by decide
theorem test_wf_fetch_nine : (Instr.descriptorFetchComplete 0 0 (List.replicate 9 0)).wf = false := by decide
theorem test_wf_landing_twice : (Instr.landingCheck [(5, 0), (5, 1)]).wf = false := by decide
theorem test_wf_calibration_twice :
    (Instr.selfCalibrationComplete [(5, 0, 0, List.replicate 6 0), (5, 1, 1, List.replicate 6 0)]).wf = false := by decide
theorem test_wf_calibration_five : (Instr.selfCalibrationComplete [(5, 0, 0, List.replicate 5 0)]).wf = false := by decide
theorem test_wf_fire_twice : (Instr.fire [(5, []), (5, [(0, true)])]).wf = false := by decide
theorem test_wf_burst_one : (Instr.watchBurstEnd 0 [(0, false)]).wf = false := by decide
theorem test_wf_burst_eight : (Instr.watchBurstEnd 0 (List.replicate 8 (0, false))).wf = false := by decide
theorem test_wf_dwell_empty : (Instr.dwell 0 0 []).wf = false := by decide
theorem test_wf_publication_short : (Instr.sensorPublication (List.replicate 159 0)).wf = false := by decide +kernel
theorem test_wf_init_unaligned : (Instr.powerOnReset ⟨0, 25, false, true, [(0x050002, 0)], 0, 0⟩).wf = false := by decide
theorem test_wf_configuration_unaligned : (Instr.configurationRequest 0 true 1 0 15).wf = false := by decide
theorem test_wf_register_unaligned : (Instr.registerWrite .hostA 0x050001 0 15).wf = false := by decide
theorem test_wf_message_second : (Instr.sync 0 ⟨0, 0, false, 0, 1000000000, 0, true⟩).wf = false := by decide
theorem test_wf_message_correction : (Instr.delayReq 0 ⟨0, 0, false, 0, 0, 2 ^ 63, true⟩).wf = false := by decide

/-! ## The specification's worked examples -/

/-- R4: 1.25 ns after TAI second 1,800,000,000. -/
theorem test_time_parts : secOf (1800000000 * 1000000000 * q40 + 5 * q40 / 4) = 0x6B49D200 ∧
    nsOf (1800000000 * 1000000000 * q40 + 5 * q40 / 4) = 1 ∧
    fracOf (1800000000 * 1000000000 * q40 + 5 * q40 / 4) = 0x4000 := by decide +kernel

/-- R121: the thresholds of the example's arm, 400.0 Ω in LO at the default margins. -/
theorem test_rail_thresholds : topCode 2000 100 0 4000 = 22195 ∧ topCode 2000 250 0 4000 = 20177 ∧
    topCode 4000 100 0 4000 = 49098 ∧ topCode 4000 250 0 4000 = 47080 := by decide +kernel

/-- R122: the limit of the same arm at 8,000 mV. -/
theorem test_voltage_limit : vmaxCode (bytes [(0xE0002C, 2, 8000)]) 0 4000 = 0xFFFF ∧
    vmaxCode (bytes [(0xE0002C, 2, 8000)]) 1 4000 = 54613 := by decide +kernel

/-- R152: cell 13 of tile 36. -/
theorem test_scan_place : adcOf (2 * (64 * 36 + 13)) = 293 ∧ pairOf (2 * (64 * 36 + 13)) = 146 := by decide

/-- Core 0 with A1, O1 and L1, and B1 at 0xC000. -/
def circle (p o l : Nat) : State :=
  rfSet (rfSet (rfSet (rfSet State.reset 0 (ixA 1) p) 0 (ixB 1) 0xC000) 0 (ixL 1) l) 0 (ixO 1) o

/-- R210: the example's circle, forwards, backwards and shortened. -/
theorem test_circle_wraps : rf (postMod (circle 0xC07C 4 128) 0 1) 0 (ixA 1) = 0xC000 := by decide +kernel
theorem test_circle_backwards : rf (postMod (circle 0xC000 0xFFFC 128) 0 1) 0 (ixA 1) = 0xC07C := by decide +kernel
theorem test_circle_outside : rf (postMod (circle 0xC060 4 64) 0 1) 0 (ixA 1) = 0xC064 ∧
    (coreOf (postMod (circle 0xC060 4 64) 0 1) 0).modout = true := by decide +kernel

/-! ## Reset -/

theorem test_reset_pending : State.reset.pending = [] := rfl
theorem test_reset_unpowered : State.reset.boot.powered = false ∧ State.reset.pins.clamp = true := by decide

/-! ## Witnesses: the queue and the host ports -/

theorem wit_AnEmptyQueueLetsOneClockPass :
    (∃ s : State, s.pending = [] ∧ s.tmu.setDue = none) ∧
    (∃ (s : State) (e v : Nat), s.pending = [] ∧ s.tmu.setDue = some (e, v) ∧ e ≤ ((s.now : Int) + 2 * q40 + 2 * s.rho).toNat) :=
  ⟨⟨State.reset, by decide +kernel⟩,
    ⟨{ State.reset with tmu := { State.reset.tmu with setDue := some (2 * q40, 7) } }, 2 * q40, 7, by decide +kernel⟩⟩

theorem wit_EveryStepSettlesTheLevelOutputs : ∃ s t : State, step s = .next t := ⟨State.reset, _, rfl⟩

theorem wit_QueuesRunToTheirEnd : ∃ (s : State) (c : Instr) (r : List Instr), s.pending = c :: r :=
  ⟨{ State.reset with pending := [.readId] }, .readId, [], rfl⟩

theorem wit_DoorbellsMoveRingPointers :
    (∃ (ofs : BitVec 12) (be : BitVec 4), (be ≠ 15#4 ∨ (ofs ≠ 0#12 ∧ ofs ≠ 4#12))) ∧
    (∃ (p : Fin 2) (g : Fin 16) (v : BitVec 32) (s : State), sqSize s (16 * p + g) ≤ v.toNat % 4096) ∧
    (∃ (p : Fin 2) (g : Fin 16) (v : BitVec 32) (s : State), v.toNat % 4096 < sqSize s (16 * p + g)) :=
  ⟨⟨8, 15, by decide +kernel⟩,
    ⟨1, 15, 256, regs [(Reg.HIF_RING_CFG 1 15, Reg.HIF_RING_CFG_SQ_SIZE, 8)], by decide +kernel⟩,
    ⟨1, 15, 255, regs [(Reg.HIF_RING_CFG 1 15, Reg.HIF_RING_CFG_SQ_SIZE, 8)], by decide +kernel⟩⟩

/-- A ring with its link up, its pair enabled, room for records and `n` descriptors waiting. -/
def live (p r n : Nat) (s : State := State.reset) : State :=
  ring (16 * p + r) { Ring.init with tail := n } (regs [(Reg.HIF_PSTATUS p, Reg.HIF_PSTATUS_LINK, 1),
    (Reg.HIF_RING_CFG p r, Reg.HIF_RING_CFG_EN, 1), (Reg.HIF_RING_CFG p r, Reg.HIF_RING_CFG_CQ_SIZE, 6)] s)

theorem wit_FetchIssueRequestsTheChosenRing :
    (∃ s : State, choose (countRed s) 99 0 = none) ∧
    (∃ s : State, ready s 0 0 = true ∧ ready s 16 0 = false) ∧
    (∃ s : State, ready s 0 0 = true ∧ ready s 16 0 = true) ∧
    (∃ (s : State) (i : Nat), choose (countRed s) 99 0 = some i ∧ i < 32) ∧
    (∃ s : State, choose (countRed s) 99 0 = some 32) :=
  ⟨⟨State.reset, by decide +kernel⟩, ⟨live 0 0 1, by decide +kernel⟩, ⟨live 1 0 1 (live 0 0 1), by decide +kernel⟩,
    ⟨live 1 15 1, 31, by decide +kernel⟩,
    ⟨{ State.reset with spi := { State.reset.spi with queue := [ent 0 0 true] } }, by decide +kernel⟩⟩

/-- A CHART at the head of its ring whose image is being fetched. -/
def imaged (src : Nat) : State := { taking { ent 0 0 with imgWait := true, tIn := none, src := src } with draws := 0 }

theorem wit_FetchAnswersReachTheRing :
    (∃ (p : Fin 2) (r : Fin 16) (s : State) (n t0 : Nat), (ringOf s (16 * p + r)).flight = some (n, t0)) ∧
    (∃ (p : Fin 2) (r : Fin 16) (s : State), (ringOf s (16 * p + r)).flight = none) ∧
    (∃ (p : Fin 2) (r : Fin 16) (s : State), (ringOf s (16 * p + r)).flight.isSome = true) ∧
    (∃ (p : Fin 2) (r : Fin 16) (image : Bool) (s : State), (if image then imageEntry s (16 * p + r) = none else (ringOf s (16 * p +
      r)).flight = none)) ∧
    (∃ (p : Fin 2) (r : Fin 16) (s : State) (e : Entry), imageEntry s (16 * p + r) = some e) ∧
    (∃ (p : Fin 2) (r : Fin 16) (s : State), imageEntry s (16 * p + r) = none) :=
  ⟨⟨1, 15, ring 31 { Ring.init with flight := some (8, 0) }, 8, 0, by decide +kernel⟩,
    ⟨1, 15, State.reset, by decide +kernel⟩,
    ⟨0, 0, ring 0 { Ring.init with flight := some (1, 0) }, by decide +kernel⟩,
    ⟨1, 15, true, State.reset, by decide +kernel⟩,
    ⟨1, 15, imaged 31, _, rfl⟩,
    ⟨1, 15, State.reset, by decide +kernel⟩⟩

theorem wit_PcieEventsResetTheHostDomain :
    (∃ (s : State), s.boot.powered = true) ∧
    (∃ (s : State), s.boot.powered = false) ∧
    (∃ (p : Fin 2) (s : State), fget s (Reg.HIF_PSTATUS p) Reg.HIF_PSTATUS_D3 = 1) :=
  ⟨⟨powered, by decide +kernel⟩,
    ⟨State.reset, by decide +kernel⟩,
    ⟨1, regs [(Reg.HIF_PSTATUS 1, Reg.HIF_PSTATUS_D3, 1)], by decide +kernel⟩⟩

/-- Port 1 with MSI-X enabled and one record of its ring 15 to tell. -/
def toTell (mask : Bool) : State :=
  setPort (ring 31 { Ring.init with irqN := 1 } (regs [(Reg.HIF_PSTATUS 1, Reg.HIF_PSTATUS_LINK, 1),
    (Reg.HIF_MSIX_CTRL 1 0, Reg.HIF_MSIX_CTRL_MASK, 0)])) 1 { Port.init with msixEn := true, msixMask := mask }

theorem wit_PortMessagesAndConfiguration :
    (∃ (p : Fin 2) (r : Fin 16) (s : State), irqDue s (16 * p + r) = true ∧ (portOf s p).msixEn = true ∧ (portOf s p).msixMask = false ∧
      portUp s p = true ∧ fget s (Reg.HIF_MSIX_CTRL p (fget s (Reg.HIF_RING_CFG p r) Reg.HIF_RING_CFG_VEC)) Reg.HIF_MSIX_CTRL_MASK = 0) ∧
    (∃ (p : Fin 2) (r : Fin 16) (s : State), irqDue s (16 * p + r) = true ∧ (portOf s p).msixEn = true ∧ ((portOf s p).msixMask = true ∨
      portUp s p = false ∨ fget s (Reg.HIF_MSIX_CTRL p (fget s (Reg.HIF_RING_CFG p r) Reg.HIF_RING_CFG_VEC)) Reg.HIF_MSIX_CTRL_MASK = 1)) ∧
    (∃ (p : Fin 2) (r : Fin 16) (s : State), irqDue s (16 * p + r) = false) ∧
    (∃ (p : Fin 2) (s : State), (portOf s p).sblkDirty.isSome = true ∧ fget s (Reg.HIF_SBLK_LO p) Reg.HIF_SBLK_LO_EN = 1 ∧ portUp s p =
      true) ∧
    (∃ (p : Fin 2) (s : State), ((portOf s p).sblkDirty = none ∨ fget s (Reg.HIF_SBLK_LO p) Reg.HIF_SBLK_LO_EN = 0 ∨ portUp s p = false)) ∧
    (∃ (s : State), s.boot.powered = false) ∧
    (∃ (s : State), s.boot.powered = true) :=
  ⟨⟨1, 15, toTell false, by decide +kernel⟩,
    ⟨1, 15, toTell true, by decide +kernel⟩,
    ⟨1, 15, State.reset, by decide +kernel⟩,
    ⟨1, setPort (regs [(Reg.HIF_PSTATUS 1, Reg.HIF_PSTATUS_LINK, 1), (Reg.HIF_SBLK_LO 1, Reg.HIF_SBLK_LO_EN, 1)]) 1 { Port.init with
      sblkDirty := some 0 }, by decide +kernel⟩,
    ⟨1, State.reset, by decide +kernel⟩,
    ⟨State.reset, by decide +kernel⟩,
    ⟨powered, by decide +kernel⟩⟩

theorem crc16Bit_lt (c : Nat) : crc16Bit c < 2 ^ 16 := by
  unfold crc16Bit
  split
  · exact Nat.xor_lt_two_pow (Nat.mod_lt _ (by decide)) (by decide)
  · exact Nat.mod_lt _ (by decide)

theorem crc16_lt (l : List Nat) : crc16 l < 2 ^ 16 := by
  unfold crc16
  have h : ∀ c, c < 2 ^ 16 → l.foldl (fun c b => crc16Bit (crc16Bit (crc16Bit (crc16Bit (crc16Bit (crc16Bit (crc16Bit
      (crc16Bit (c ^^^ (b * 256)))))))))) c < 2 ^ 16 := by
    induction l with
    | nil => exact fun _ h => h
    | cons b r ih => exact fun c _ => ih _ (crc16Bit_lt _)
  exact h _ (by decide)

theorem crc16_fits (l : List Nat) : crc16 l = (BitVec.ofNat 16 (crc16 l)).toNat := by
  rw [BitVec.toNat_ofNat]; exact (Nat.mod_eq_of_lt (crc16_lt l)).symm

/-- The forerunner port enabled. -/
def spiOn (x : Spi := State.reset.spi) : State := { regs [(Reg.LEG_CTRL, Reg.LEG_CTRL_EN, 1)] with spi := x }

theorem wit_SpiFramesQueueAndAnswer :
    (∃ (d : BitVec 256) (crc : BitVec 16) (s : State), fget s Reg.LEG_CTRL Reg.LEG_CTRL_EN = 1 ∧
      crc16 (0x02 :: leBytes d.toNat 32) = crc.toNat ∧ spiRoom s = true) ∧
    (∃ (slot : BitVec 16) (tag : BitVec 32) (img : BitVec 8192) (crc : BitVec 16) (s : State), fget s Reg.LEG_CTRL Reg.LEG_CTRL_EN = 1 ∧
      crc16 (0x20 :: (beBytes slot.toNat 2 ++ beBytes tag.toNat 4 ++ leBytes img.toNat 1024)) = crc.toNat ∧ spiRoom s = true) ∧
    (∃ (d : BitVec 256) (crc : BitVec 16), crc16 (0x02 :: leBytes d.toNat 32) ≠ crc.toNat) ∧
    (∃ (d : BitVec 256) (crc : BitVec 16) (s : State), fget s Reg.LEG_CTRL Reg.LEG_CTRL_EN = 1 ∧
      crc16 (0x02 :: leBytes d.toNat 32) = crc.toNat ∧ spiRoom s = false) ∧
    (∃ s : State, fget s Reg.LEG_CTRL Reg.LEG_CTRL_EN = 0) ∧
    (∃ (c : BitVec 256) (rest : List (BitVec 256)) (s : State), fget s Reg.LEG_CTRL Reg.LEG_CTRL_EN = 1 ∧ s.spi.cpls = c :: rest) ∧
    (∃ (gap : Nat) (s : State), fget s Reg.LEG_CTRL Reg.LEG_CTRL_EN = 1 ∧ gap ≤ 1000000) :=
  ⟨⟨1, BitVec.ofNat 16 (crc16 (0x02 :: leBytes 1 32)), spiOn, by decide +kernel⟩,
    ⟨1023, 7, 0, _, spiOn, by decide +kernel, crc16_fits _, by decide +kernel⟩,
    ⟨1, BitVec.ofNat 16 (crc16 (0x02 :: leBytes 1 32) + 1), by decide +kernel⟩,
    ⟨1, BitVec.ofNat 16 (crc16 (0x02 :: leBytes 1 32)), spiOn ⟨[], 16, [], false⟩, by decide +kernel⟩,
    ⟨State.reset, by decide +kernel⟩, ⟨5, [], spiOn ⟨[5], 0, [], false⟩, by decide +kernel⟩, ⟨1000000, spiOn, by decide +kernel⟩⟩

theorem wit_NarrowPortsReachTheAddressSpace :
    (∃ s : State, fget s Reg.LEG_CTRL Reg.LEG_CTRL_EN = 1) ∧
    (∃ (a : BitVec 24) (v : BitVec 32) (crc : BitVec 16), crc16 (0x12 :: (beBytes a.toNat 3 ++ beBytes v.toNat 4)) = crc.toNat) ∧
    (∃ s : State, s.mnt.addr < 2 ^ 24) :=
  ⟨⟨spiOn, by decide +kernel⟩,
    ⟨0xFFFFFC, 1, BitVec.ofNat 16 (crc16 (0x12 :: (beBytes 0xFFFFFC 3 ++ beBytes 1 4))), by decide +kernel⟩,
    ⟨{ State.reset with mnt := { State.reset.mnt with addr := 2 ^ 24 - 1 } }, by decide +kernel⟩⟩

/-- Port 0 with its link up and stream 15 on, one record queued. -/
def streaming (x : Stream) (s : State := State.reset) : State :=
  setPort (regs [(Reg.HIF_PSTATUS 0, Reg.HIF_PSTATUS_LINK, 1)] s) 0 { Port.init with streams := [(15, x)] }

theorem wit_TelemetryRecordsAreQueuedAndSent :
    (∃ (p : Fin 2) (i : Fin 16) (s : State), (streamOf s p i).on = true ∧ 2 ≤ (streamOf s p i).content ∧ (streamOf s p i).next ≤ s.up ∧
      s.boot.powered = true ∧ s.restart.inWindow = false ∧ halted s = false) ∧
    (∃ (p : Fin 2) (i : Fin 16) (s : State), s.up < (streamOf s p i).next) ∧
    (∃ (p : Fin 2) (i : Fin 16) (body : List Nat) (rest : List (List Nat)) (s : State), halted s = false ∧ s.restart.inWindow = false ∧
      portUp s p = true ∧ (streamOf s p i).on = true ∧ (streamOf s p i).kind = 1 ∧ (streamOf s p i).queue = body :: rest ∧ (∀ j : Fin 16, j
      ≠ i → (streamOf s p j).on = false ∨ (streamOf s p j).kind ≠ 1 ∨ (streamOf s p j).queue = []) ∧ recordLen body ≤ (streamOf s p i).len
      ∧ 1000 * recordLen body ≤ bucketNow s p) ∧
    (∃ (e : Fin 4) (p : Fin 2) (i : Fin 16) (body : List Nat) (rest : List (List Nat)) (s : State), halted s = false ∧ s.restart.inWindow =
      false ∧ ethUp s e = true ∧ fget s (Reg.ETH_CTRL e) Reg.ETH_CTRL_TEL_EN = 1 ∧ ethReady s e = [(p.val, i.val)] ∧ (streamOf s p i).queue
      = body :: rest ∧ body.length ≤ chunkLen s e (streamOf s p i) ∧ 8000 * frameLen s e (streamOf s p i) (16 + body.length) ≤ tokensNow s
      e) ∧
    (∃ (e : Fin 4) (p : Fin 2) (i : Fin 16) (body : List Nat) (rest : List (List Nat)) (s : State), halted s = false ∧ s.restart.inWindow =
      false ∧ ethUp s e = true ∧ fget s (Reg.ETH_CTRL e) Reg.ETH_CTRL_TEL_EN = 1 ∧ ethReady s e = [(p.val, i.val)] ∧ (streamOf s p i).queue
      = body :: rest ∧ body.length ≤ chunkLen s e (streamOf s p i) ∧ tokensNow s e < 8000 * frameLen s e (streamOf s p i) (16 +
      body.length)) ∧
    (∃ (e : Fin 4) (body : List Nat) (rest : List (List Nat)) (x : Stream) (s : State), s.restart.inWindow = false ∧ ethUp s e = true ∧
      fget s (Reg.ETH_CTRL e) Reg.ETH_CTRL_TEL_EN = 1 ∧ tget s.hif.notices [] e = body :: rest ∧ noticeStreams s e = [x]) := by
  let eth (s : State) : State := regs [(Reg.ETH_CTRL 0, Reg.ETH_CTRL_EN, 1), (Reg.ETH_CTRL 0, Reg.ETH_CTRL_TEL_EN, 1),
    (Reg.ETH_STATUS 0, Reg.ETH_STATUS_LINK, 1)] { s with up := 1000000 }
  let x : Stream := { Stream.init with on := true, kind := 2, content := 2, queue := [[1, 2, 3]] }
  let x0 : Stream := { Stream.init with on := true, kind := 2 }
  let x1 : Stream := { Stream.init with on := true, kind := 1, queue := [[1, 2, 3]], len := 4096 }
  exact ⟨⟨0, 15, powered (streaming { Stream.init with on := true, content := 2 }), by decide +kernel⟩,
    ⟨0, 15, streaming { Stream.init with next := 1 }, by decide +kernel⟩,
    ⟨0, 15, [1, 2, 3], [], streaming x1, by decide +kernel⟩,
    ⟨0, 0, 15, [1, 2, 3], [], eth (streaming x), by decide +kernel⟩,
    ⟨0, 0, 15, [1, 2, 3], [], { eth (streaming x) with eth := [(0, { EPort.init with tok := 0, tokAt := 1000000 })] }, by decide +kernel⟩,
    ⟨0, [1], [], x0, { eth (streaming x0) with hif := { (eth (streaming x0)).hif with notices := [(0, [[1]])] } }, by decide +kernel⟩⟩
/-! ## Witnesses: descriptors -/

/-- Chart slot 0 loaded. -/
def charted (s : State := State.reset) : State := regs [(Reg.RTS_LOADED 0, ⟨0, 0⟩, 1)] s

/-- The header of a format 2 descriptor of order 5. -/
def hd (typ : Nat) : Nat := typ + 5 * 2 ^ 64

/-- A bell in the timetable at entry 0, with order 9. -/
def aBell (t : Nat) : Bell :=
  ⟨0, 9, t, 0, 1, 1, false, false, 0, [], false, 0, 0, 0, 0, none, none, [], Verify.init, [], false, [], false, 600, 150, none⟩

/-- Bells in the timetable. -/
def belled (l : List Bell) (s : State := State.reset) : State := { s with bel := { s.bel with bells := l } }

/-- A bell where a NOW would fire, and no window to look further. -/
def crowded : State := belled [aBell 20000] (regs [(Reg.BEL_NOW, Reg.BEL_NOW_WINDOW, 20)] charted)

theorem wit_AcceptedBellsEnterTheTimetable :
    (∃ (s : State) (e : Entry), nextEntry s = some e ∧ eType e = tyBell ∧ SharedOk (Taken s e) e ∧ loaded (Taken s e) (eSlot e) = true ∧
      pendingBells (Taken s e) < 4096 ∧ eInstant (Taken s e) e * q40 ≤ eIn (Taken s e) e + 3600000000000 * q40 ∧ leadOk (eIn (Taken s e) e)
      (eInstant (Taken s e) e) = true ∧ spacingOk (Taken s e) (timetable (Taken s e)) (eInstant (Taken s e) e) = true ∧ solverOk (Taken s
      e) (timetable (Taken s e)) e (eInstant (Taken s e) e) = true ∧ (hallPass (takeIdx (Taken s e)).1 (takeIdx (Taken s e)).2 (eInstant
      (Taken s e) e)).2.1 = 0) ∧
    (∃ (s : State) (e : Entry) (w : Nat), nextEntry s = some e ∧ eType e = tyNow ∧ SharedOk (Taken s e) e ∧ loaded (Taken s e) (eSlot e) =
      true ∧ pendingBells (Taken s e) < 4096 ∧ nowWalk (Taken s e) e (max 20 (fget (Taken s e) Reg.BEL_NOW Reg.BEL_NOW_WINDOW)) 9000
      (gridAfter (eIn (Taken s e) e + 20000 * q40)) = (w, 0) ∧ (hallPass (takeIdx (Taken s e)).1 (takeIdx (Taken s e)).2 w).2.1 = 0) ∧
    (∃ (s : State) (e : Entry) (k : Nat), nextEntry s = some e ∧ eType e = tyBell ∧ SharedOk (Taken s e) e ∧ loaded (Taken s e) (eSlot e) =
      true ∧ pendingBells (Taken s e) < 4096 ∧ eInstant (Taken s e) e * q40 ≤ eIn (Taken s e) e + 3600000000000 * q40 ∧ (if leadOk (eIn
      (Taken s e) e) (eInstant (Taken s e) e) = false then k = 0 else if spacingOk (Taken s e) (timetable (Taken s e)) (eInstant (Taken s
      e) e) = false then k = 1 else solverOk (Taken s e) (timetable (Taken s e)) e (eInstant (Taken s e) e) = false ∧ k = 2)) ∧
    (∃ (s : State) (e : Entry) (w st : Nat), nextEntry s = some e ∧ eType e = tyNow ∧ SharedOk (Taken s e) e ∧ loaded (Taken s e) (eSlot e)
      = true ∧ pendingBells (Taken s e) < 4096 ∧ st ≠ 0 ∧ nowWalk (Taken s e) e (max 20 (fget (Taken s e) Reg.BEL_NOW Reg.BEL_NOW_WINDOW))
      9000 (gridAfter (eIn (Taken s e) e + 20000 * q40)) = (w, st)) :=
  ⟨⟨taking (ent 0 (dsc (hd 1 + 20000 * 2 ^ 192))) charted, ent 0 (dsc (hd 1 + 20000 * 2 ^ 192)), by unfold SharedOk; decide +kernel⟩,
    ⟨taking (ent 0 (dsc (hd 2))) charted, ent 0 (dsc (hd 2)), 20000, by unfold SharedOk; decide +kernel⟩,
    ⟨taking (ent 0 (dsc (hd 1 + 19980 * 2 ^ 192))) charted, ent 0 (dsc (hd 1 + 19980 * 2 ^ 192)), 0, by unfold SharedOk; decide +kernel⟩,
    ⟨taking (ent 0 (dsc (hd 2))) crowded, ent 0 (dsc (hd 2)), 20000, 0x102, by unfold SharedOk; decide +kernel⟩⟩

/-- The state of the AMEND and CANCEL witnesses: a descriptor, and bell 9 in the timetable. -/
def change (b t : Nat) : State := belled [aBell t] (taking (ent 0 (dsc b)) charted)

theorem wit_AmendAndCancelChangeTheirBell :
    (∃ (s : State) (e : Entry) (b : Bell), nextEntry s = some e ∧ eType e = tyAmend ∧ SharedOk (Taken s e) e ∧ loaded (Taken s e) (eSlot e)
      = true ∧ targetOf (Taken s e) e = some b ∧ eInstant (Taken s e) e * q40 ≤ eIn (Taken s e) e + 3600000000000 * q40 ∧ leadOk (eIn
      (Taken s e) e) (min b.t (eInstant (Taken s e) e)) = true ∧ spacingOk (Taken s e) ((timetable (Taken s e)).filter (fun x => !decide
      (x.idx = b.idx))) (eInstant (Taken s e) e) = true ∧ solverOk (Taken s e) ((timetable (Taken s e)).filter (fun x => !decide (x.idx =
      b.idx))) e (eInstant (Taken s e) e) = true ∧ (hallPass (passRelease (Taken s e) b.idx) b.idx (eInstant (Taken s e) e)).2.1 = 0) ∧
    (∃ (s : State) (e : Entry) (b : Bell), nextEntry s = some e ∧ eType e = tyAmend ∧ SharedOk (Taken s e) e ∧ loaded (Taken s e) (eSlot e)
      = true ∧ targetOf (Taken s e) e = some b ∧ eInstant (Taken s e) e * q40 ≤ eIn (Taken s e) e + 3600000000000 * q40 ∧ leadOk (eIn
      (Taken s e) e) (min b.t (eInstant (Taken s e) e)) = false) ∧
    (∃ (s : State) (e : Entry) (b : Bell), nextEntry s = some e ∧ eType e = tyCancel ∧ SharedOk (Taken s e) e ∧ targetOf (Taken s e) e =
      some b ∧ leadOk (eIn (Taken s e) e) b.t = true) ∧
    (∃ (s : State) (e : Entry) (b : Bell), nextEntry s = some e ∧ eType e = tyCancel ∧ SharedOk (Taken s e) e ∧ targetOf (Taken s e) e =
      some b ∧ leadOk (eIn (Taken s e) e) b.t = false) :=
  ⟨⟨change (hd 4 + 20000 * 2 ^ 192 + 9 * 2 ^ 416) 20000, ent 0 (dsc (hd 4 + 20000 * 2 ^ 192 + 9 * 2 ^ 416)), aBell 20000,
      by unfold SharedOk; decide +kernel⟩,
    ⟨change (hd 4 + 20000 * 2 ^ 192 + 9 * 2 ^ 416) 19980, ent 0 (dsc (hd 4 + 20000 * 2 ^ 192 + 9 * 2 ^ 416)), aBell 19980,
      by unfold SharedOk; decide +kernel⟩,
    ⟨change (hd 5 + 9 * 2 ^ 416) 20000, ent 0 (dsc (hd 5 + 9 * 2 ^ 416)), aBell 20000, by unfold SharedOk; decide +kernel⟩,
    ⟨change (hd 5 + 9 * 2 ^ 416) 19980, ent 0 (dsc (hd 5 + 9 * 2 ^ 416)), aBell 19980, by unfold SharedOk; decide +kernel⟩⟩

theorem wit_ChartsLoadTheirSlot :
    (∃ (s : State) (e : Entry) (im : BitVec 8192), nextEntry s = some e ∧ eType e = tyChart ∧ SharedOk (Taken s e) e ∧ eSlot e < 1024 ∧
      locked (Taken s e) (eSlot e) = false ∧ eClear e = false ∧ e.img = some im ∧ chartBad (fm (Taken s e)) im = none) ∧
    (∃ (s : State) (e : Entry) (im : BitVec 8192), nextEntry s = some e ∧ eType e = tyChart ∧ SharedOk (Taken s e) e ∧ eSlot e < 1024 ∧
      locked (Taken s e) (eSlot e) = false ∧ eClear e = false ∧ e.img = some im ∧ (chartBad (fm (Taken s e)) im).isSome = true) ∧
    (∃ (s : State) (e : Entry), nextEntry s = some e ∧ eType e = tyChart ∧ SharedOk (Taken s e) e ∧ eSlot e < 1024 ∧ locked (Taken s e)
      (eSlot e) = true) ∧
    (∃ (s : State) (e : Entry), nextEntry s = some e ∧ eType e = tyChart ∧ SharedOk (Taken s e) e ∧ eSlot e < 1024 ∧ locked (Taken s e)
      (eSlot e) = false ∧ eClear e = true) :=
  ⟨⟨taking (ent 0 (dsc (hd 3 + 1023 * 2 ^ 128)) false (some 0)), ent 0 (dsc (hd 3 + 1023 * 2 ^ 128)) false (some 0), 0,
      by unfold SharedOk; decide +kernel⟩,
    ⟨taking (ent 0 (dsc (hd 3)) false (some 0x200)), ent 0 (dsc (hd 3)) false (some 0x200), 0x200, by unfold SharedOk; decide +kernel⟩,
    ⟨change (hd 3 + 2 ^ 144) 20000, ent 0 (dsc (hd 3 + 2 ^ 144)), by unfold SharedOk; decide +kernel⟩,
    ⟨taking (ent 0 (dsc (hd 3 + 2 ^ 144))), ent 0 (dsc (hd 3 + 2 ^ 144)), by unfold SharedOk; decide +kernel⟩⟩

/-- Active-standby, with a lease. -/
def leased (h : Option Nat) (exp : Nat := 1) (arm : Option (Nat × Nat) := none) (s : State := State.reset) : State :=
  regs [(Reg.HIF_DUAL_CTRL, Reg.HIF_DUAL_CTRL_MODE, 2)] { s with dual := { s.dual with holder := h, expiry := exp, arm := arm } }

/-- A FENCE of a kind with the least TERM, by port 1. -/
def fence (kind : Nat) : Entry := ent 1 (dsc (hd 6 + kind * 2 ^ 128 + 100 * 2 ^ 160))

theorem wit_LeasesAreGrantedAndEnded :
    (∃ (s : State) (e : Entry), nextEntry s = some e ∧ eType e = tyFence ∧ fenceKind s e = 0 ∧ FenceOk (Taken s e) e ∧ epochOk (Taken s e)
      e = true ∧ unfit (Taken s e) e.port = false ∧ (Taken s e).dual.holder = none) ∧
    (∃ (s : State) (e : Entry) (h : Nat), nextEntry s = some e ∧ eType e = tyFence ∧ fenceKind s e = 0 ∧ FenceOk (Taken s e) e ∧ (Taken s
      e).dual.holder = some h) ∧
    (∃ (s : State) (e : Entry), nextEntry s = some e ∧ eType e = tyFence ∧ fenceKind s e = 1 ∧ FenceOk (Taken s e) e ∧ (Taken s
      e).dual.holder = some e.port ∧ epochOk (Taken s e) e = true) ∧
    (∃ (s : State) (e : Entry), nextEntry s = some e ∧ eType e = tyFence ∧ fenceKind s e = 2 ∧ FenceOk (Taken s e) e ∧ (Taken s
      e).dual.holder = some e.port ∧ (Taken s e).dual.arm = none) ∧
    (∃ (s : State) (e : Entry) (q term : Nat), nextEntry s = some e ∧ eType e = tyFence ∧ fenceKind s e = 2 ∧ FenceOk (Taken s e) e ∧
      (Taken s e).dual.holder = some e.port ∧ (Taken s e).dual.arm = some (q, term)) ∧
    (∃ (s : State) (e : Entry) (h : Nat), nextEntry s = some e ∧ eType e = tyFence ∧ fenceKind s e = 3 ∧ FenceOk (Taken s e) e ∧ epochOk
      (Taken s e) e = true ∧ unfit (Taken s e) e.port = false ∧ (Taken s e).dual.holder = some h ∧ h ≠ e.port) ∧
    (∃ (s : State) (e : Entry) (h : Nat), nextEntry s = some e ∧ eType e = tyFence ∧ fenceKind s e = 4 ∧ FenceOk (Taken s e) e ∧ epochOk
      (Taken s e) e = true ∧ unfit (Taken s e) e.port = false ∧ (Taken s e).dual.holder = some h ∧ fget (Taken s e) (Reg.HIF_PSTATUS h)
      Reg.HIF_PSTATUS_LINK = 0) ∧
    (∃ (s : State) (h : Nat), s.dual.holder = some h ∧ s.dual.expiry ≤ s.now ∧ s.restart.inWindow = false ∧ s.dual.arm = none) ∧
    (∃ (s : State) (h q term : Nat), s.dual.holder = some h ∧ s.dual.expiry ≤ s.now ∧ s.restart.inWindow = false ∧ s.dual.arm = some (q,
      term)) ∧
    (∃ (s : State), s.now < s.dual.expiry) ∧
    (∃ (s : State), s.dual.overlapOpen = true ∧ s.dual.oldEnd + 40000 * q40 ≤ s.now) :=
  ⟨⟨taking (fence 0) (leased none), fence 0, by unfold FenceOk; decide +kernel⟩,
    ⟨taking (fence 0) (leased (some 0)), fence 0, 0, by unfold FenceOk; decide +kernel⟩,
    ⟨taking (fence 1) (leased (some 1)), fence 1, by unfold FenceOk; decide +kernel⟩,
    ⟨taking (fence 2) (leased (some 1)), fence 2, by unfold FenceOk; decide +kernel⟩,
    ⟨taking (fence 2) (leased (some 1) 1 (some (0, 100))), fence 2, 0, 100, by unfold FenceOk; decide +kernel⟩,
    ⟨taking (fence 3) (leased (some 0)), fence 3, 0, by unfold FenceOk; decide +kernel⟩,
    ⟨taking (fence 4) (leased (some 0)), fence 4, 0, by unfold FenceOk; decide +kernel⟩,
    ⟨leased (some 0) 0, 0, by decide +kernel⟩,
    ⟨leased (some 0) 0 (some (1, 100)), 0, 1, 100, by decide +kernel⟩,
    ⟨leased (some 0), by decide +kernel⟩,
    ⟨{ State.reset with now := 40000 * q40, dual := { State.reset.dual with overlapOpen := true } }, by decide +kernel⟩⟩

/-- A CAL of a kind with one cell, cell 0; or with tile 0 listed. -/
def calDsc (kind n : Nat) : Entry := ent 0 (dsc (hd 7 + kind * 2 ^ 128 + n * 2 ^ 136 + (if kind = 0 then 2 ^ 160 else 0)))

theorem wit_MaintenanceDescriptorsAct :
    (∃ (s : State) (e : Entry), nextEntry s = some e ∧ eType e = tyCal ∧ eKind e = 0 ∧ SharedOk (Taken s e) e ∧ calArgs (Taken s e) e =
      true ∧ calOn s = true) ∧
    (∃ (s : State) (e : Entry), nextEntry s = some e ∧ eType e = tyCal ∧ eKind e = 1 ∧ SharedOk (Taken s e) e ∧ calArgs (Taken s e) e =
      true) ∧
    (∃ (s : State) (e : Entry), nextEntry s = some e ∧ eType e = tyCal ∧ eKind e = 2 ∧ SharedOk (Taken s e) e ∧ calArgs (Taken s e) e =
      true ∧ eCells e = []) ∧
    (∃ (s : State) (e : Entry), nextEntry s = some e ∧ eType e = tyCal ∧ eKind e = 2 ∧ SharedOk (Taken s e) e ∧ calArgs (Taken s e) e =
      true ∧ eCells e ≠ []) ∧
    (∃ (s : State) (e : Entry), nextEntry s = some e ∧ eType e = tyCal ∧ eKind e = 3 ∧ SharedOk (Taken s e) e ∧ calArgs (Taken s e) e =
      true) ∧
    (∃ (s : State) (e : Entry), nextEntry s = some e ∧ eType e = tyMaint ∧ eKind e = 0 ∧ SharedOk (Taken s e) e ∧ cellPresent (fm s)
      (eMaintCell e) = true ∧ isRetired s (eMaintCell e) = true ∧ eMaintCell e < 6144) ∧
    (∃ (s : State) (e : Entry), nextEntry s = some e ∧ eType e = tyMaint ∧ eKind e = 1 ∧ malformed (Taken s e) e = 0 ∧ dualMode s = 1 ∧
      e.port = precedence s) ∧
    (∃ (s : State) (e : Entry), nextEntry s = some e ∧ eType e = tyTelem ∧ HostOk (Taken s e) e ∧ ((telemStream e.raw).kind = 2 → fget s
      (Reg.ETH_CTRL ((telemStream e.raw).dest % 4)) Reg.ETH_CTRL_EN = 1)) :=
  ⟨⟨taking (calDsc 0 0) (mapped (regs [(Reg.CAL_CTRL, Reg.CAL_CTRL_EN, 1)])), calDsc 0 0, by unfold SharedOk; decide +kernel⟩,
    ⟨taking (calDsc 1 1) mapped, calDsc 1 1, by unfold SharedOk; decide +kernel⟩,
    ⟨taking (calDsc 2 0) mapped, calDsc 2 0, by unfold SharedOk; decide +kernel⟩,
    ⟨taking (calDsc 2 1) mapped, calDsc 2 1, by unfold SharedOk; decide +kernel⟩,
    ⟨taking (calDsc 3 22) mapped, calDsc 3 22, by unfold SharedOk; decide +kernel⟩,
    ⟨taking (ent 0 (dsc (hd 9))) (bytes [(0x934800, 1, 1)] mapped), ent 0 (dsc (hd 9)), by unfold SharedOk; decide +kernel⟩,
    ⟨taking (ent 0 (dsc (hd 9 + 2 ^ 128))) (regs [(Reg.HIF_DUAL_CTRL, Reg.HIF_DUAL_CTRL_MODE, 1)]), ent 0 (dsc (hd 9 + 2 ^ 128)),
      by decide +kernel⟩,
    ⟨taking (ent 0 (dsc (hd 10 + 15 * 2 ^ 128))), ent 0 (dsc (hd 10 + 15 * 2 ^ 128)), by unfold HostOk; decide +kernel⟩⟩

/-- A ring 0 entry held for its pair until now. -/
def held2 : Entry := { ent 1 (dsc (hd 1 + 20000 * 2 ^ 192)) with tIn := none, hold := 2, holdEnd := some 0 }

/-- A challenge outstanding on port 0. -/
def challenged (e : Entry) : State :=
  let s := leased none 0 none (taking e)
  { s with dual := { s.dual with chalA := some (77, 0) } }

theorem wit_QueriesAndFirewatchAnswer :
    (∃ (s : State) (e : Entry), nextEntry s = some e ∧ eType e = tyQuery ∧ eKind e ≠ 1 ∧ HostOk (Taken s e) e ∧ loaded (Taken s e) (eSlot
      e) = true) ∧
    (∃ (s : State) (e : Entry), nextEntry s = some e ∧ eType e = tyQuery ∧ eKind e = 1 ∧ HostOk (Taken s e) e ∧ e.src < 32 ∧ portUp (Taken
      s e) (e.src / 16) = true ∧ s.hif.waiting = []) ∧
    (∃ (s : State) (e : Entry) (T : Nat), s.hif.fetched.find? (fun x => decide (x.src = e.src) && x.tIn.isNone) = some e ∧
      (s.hif.fetched.map (·.seq)).Nodup ∧ e.src < 33 ∧ dualMode s = 1 ∧ illFormed s e = 0 ∧ e.hold = 2 ∧ e.holdEnd = some T ∧ T ≤ s.now ∧
      eType e ≠ tyChart ∧ e.imgWait = false) ∧
    (∃ (s : State) (p : Fin 2), dualMode s = 2 ∧ s.dual.nextChal ≤ s.up ∧ s.restart.inWindow = false ∧ s.dual.holder ≠ some p.val ∧ fget s
      (Reg.HIF_PSTATUS p) Reg.HIF_PSTATUS_LINK = 1 ∧ chalOf s p = none ∧ fget s Reg.LEG_CTRL Reg.LEG_CTRL_EN = 0 ∧ fget s (Reg.HIF_RING_CFG
      p 0) Reg.HIF_RING_CFG_EN = 1 ∧ owed s (16 * p) < cqFreeAll s (16 * p)) ∧
    (∃ (s : State) (e : Entry) (v at_ : Nat), nextEntry s = some e ∧ eType e = tyEcho ∧ e.fmt1 = false ∧ FenceOk (Taken s e) e ∧ e.port < 2
      ∧ chalOf s e.port = some (v, at_) ∧ eChallenge e = v) ∧
    (∃ (s : State) (e : Entry) (v at_ : Nat), nextEntry s = some e ∧ eType e = tyEcho ∧ e.fmt1 = false ∧ FenceOk (Taken s e) e ∧ chalOf s
      e.port = some (v, at_) ∧ eChallenge e ≠ v) ∧
    (∃ (s : State) (e : Entry) (v at_ : Nat), nextEntry s = some e ∧ eType e = tyEcho ∧ e.fmt1 = true ∧ FenceOk (Taken s e) e ∧ e.port < 2
      ∧ chalOf s e.port = some (v, at_)) ∧
    (∃ (s : State) (p : Fin 2), fget s (Reg.HIF_PSTATUS p) Reg.HIF_PSTATUS_LINK = 0) ∧
    (∃ (s : State) (p : Fin 2), fget s (Reg.HIF_PSTATUS p) Reg.HIF_PSTATUS_LINK = 1 ∧ fget s (Reg.HIF_RCARD p 0) Reg.HIF_RCARD_UNFIT = 0 ∧
      role s p ≠ 2 ∧ ringErr s p = false ∧ fget s (Reg.HIF_RCARD p 0) Reg.HIF_RCARD_FW_RUN = 0 ∧ fget s (Reg.HIF_RCARD p 1)
      Reg.HIF_RCARD_DIV = 0 ∧ holdSums s = (0, 0) ∧ (rget s (Reg.HIF_PCNT p 4)).toNat ≤ (if p = 0 then s.dual.npBaseA else s.dual.npBaseB)
      ∧ 1000 ≤ fget s (Reg.HIF_RCARD p 4) Reg.HIF_RCARD_LMARGIN) :=
  ⟨⟨taking (ent 0 (dsc (hd 8))) charted, ent 0 (dsc (hd 8)), by unfold HostOk; decide +kernel⟩,
    ⟨belled [aBell 5] (live 0 0 0 (taking (ent 0 (dsc (hd 8 + 2 ^ 128 + 9 * 2 ^ 416))))), ent 0 (dsc (hd 8 + 2 ^ 128 + 9 * 2 ^ 416)),
      by unfold HostOk; decide +kernel⟩,
    ⟨taking held2 (regs [(Reg.HIF_DUAL_CTRL, Reg.HIF_DUAL_CTRL_MODE, 1)]), held2, 0, by decide +kernel⟩,
    ⟨live 1 0 0 (leased none), 1, by decide +kernel⟩,
    ⟨challenged (ent 0 (dsc (hd 11 + 77 * 2 ^ 128))), ent 0 (dsc (hd 11 + 77 * 2 ^ 128)), 77, 0, by unfold FenceOk; decide +kernel⟩,
    ⟨challenged (ent 0 (dsc (hd 11 + 78 * 2 ^ 128))), ent 0 (dsc (hd 11 + 78 * 2 ^ 128)), 77, 0, by unfold FenceOk; decide +kernel⟩,
    ⟨challenged (ent 0 7 true), ent 0 7 true, 77, 0, by unfold FenceOk; decide +kernel⟩,
    ⟨State.reset, 1, by decide +kernel⟩,
    ⟨regs [(Reg.HIF_PSTATUS 1, Reg.HIF_PSTATUS_LINK, 1), (Reg.HIF_RCARD 1 4, Reg.HIF_RCARD_LMARGIN, 1000)], 1, by decide +kernel⟩⟩
/-! ## Witnesses: register writes, the address space, the solver -/

theorem wit_HostControlWritesAct :
    (∃ (m : Master) (s : State), Reaches s m Reg.HIF_DUAL_CTRL) ∧
    (∃ (m : Master) (v : BitVec 32) (p : Fin 2) (s : State), Reaches s m Reg.HIF_DUAL_CMD ∧ bit v.toNat p = true) ∧
    (∃ (m : Master) (v : BitVec 32) (p : Fin 2) (s : State), Reaches s m Reg.HIF_DUAL_CMD ∧ bit v.toNat (p + 2) = true) ∧
    (∃ (m : Master) (v : BitVec 32) (s : State), Reaches s m Reg.HIF_HALT ∧ bit v.toNat 0 = true) ∧
    (∃ (m : Master) (v : BitVec 32) (s : State), Reaches s m Reg.HIF_HALT ∧ bit v.toNat 0 = false) ∧
    (∃ (m : Master) (p : Fin 2) (r : Fin 16) (v : BitVec 32) (s : State), Reaches s m (Reg.HIF_RING_CFG p r) ∧ bit v.toNat 0 = true ∧ fget
      s (Reg.HIF_RING_CFG p r) Reg.HIF_RING_CFG_EN = 0) ∧
    (∃ (m : Master) (p : Fin 2) (r : Fin 16) (v : BitVec 32) (s : State), Reaches s m (Reg.HIF_RING_CFG p r) ∧ bit v.toNat 0 = false) ∧
    (∃ (m : Master) (p : Fin 2) (s : State), Reaches s m (Reg.HIF_PCNT_CLR p)) ∧
    (∃ (m : Master) (i : Fin 33) (s : State), Reaches s m (Reg.ISC_MTR_RATE i)) :=
  ⟨⟨.hostA, State.reset, by unfold Reaches; decide +kernel⟩,
    ⟨.hostA, 2, 1, State.reset, by unfold Reaches; decide +kernel⟩,
    ⟨.mnt, 8, 1, State.reset, by unfold Reaches; decide +kernel⟩,
    ⟨.hostB, 1, State.reset, by unfold Reaches; decide +kernel⟩,
    ⟨.leg, 0, regs [(Reg.LEG_CTRL, Reg.LEG_CTRL_WR_EN, 1)], by unfold Reaches; decide +kernel⟩,
    ⟨.hostB, 1, 15, 1, State.reset, by unfold Reaches; decide +kernel⟩,
    ⟨.hostB, 1, 15, 0, State.reset, by unfold Reaches; decide +kernel⟩,
    ⟨.hostB, 1, State.reset, by unfold Reaches; decide +kernel⟩,
    ⟨.hostA, 32, State.reset, by unfold Reaches; decide +kernel⟩⟩

theorem wit_AddressSpaceAccessesActByTheirTarget :
    (∃ (m : Master) (n : Fin 352) (s : State), Reaches s m (Reg.FLT_ACT n)) ∧
    (∃ (m : Master) (a : BitVec 24) (be : BitVec 4) (s : State), (m = .leg → fget s Reg.LEG_CTRL Reg.LEG_CTRL_WR_EN = 1) ∧ a.toNat % 4 = 0
      ∧ inTarget a.toNat = true ∧ be ≠ 15 ∧ tfind s.flt.slots (owner a.toNat) = none) ∧
    (∃ (m : Master) (a : BitVec 24) (s : State), (m = .leg → fget s Reg.LEG_CTRL Reg.LEG_CTRL_WR_EN = 1) ∧ a.toNat % 4 = 0 ∧ inTarget
      a.toNat = true ∧ 0x800000 ≤ a.toNat ∧ tfind s.flt.slots (owner a.toNat) = none) ∧
    (∃ (a : BitVec 24) (s : State), a.toNat % 4 = 0 ∧ inTarget a.toNat = false ∧ fget s Reg.XBR_ERR Reg.XBR_ERR_VALID = 0) ∧
    (∃ (a : BitVec 24) (s : State), a.toNat % 4 = 0 ∧ inTarget a.toNat = false ∧ fget s Reg.XBR_ERR Reg.XBR_ERR_VALID = 1) ∧
    (∃ (a : BitVec 24), inTarget (a.toNat / 4 * 4) = true) ∧
    (∃ (m : Master) (s : State), romBlocks s m (Reg.TMU_NOW 0) = false) ∧
    (∃ (m : Master) (k : Fin 96) (s : State), romBlocks s m (Reg.DRV_SLOT_DATA k) = false ∧ fget s (Reg.DRV_SLOT_ADDR k)
      Reg.DRV_SLOT_ADDR_SLOT ≤ 8 ∧ fget s (Reg.DRV_SLOT_ADDR k) Reg.DRV_SLOT_ADDR_WORD < 2192) ∧
    (∃ (m : Master) (s : State), Reaches s m Reg.XBR_CTRL) ∧
    (∃ (m : Master) (i : Fin 13) (s : State), Reaches s m (Reg.XBR_SLICE i)) ∧
    (∃ (m : Master) (k : Fin 2) (s : State), Reaches s m (Reg.XBR_PARK k)) :=
  ⟨⟨.hostA, 351, State.reset, by unfold Reaches; decide +kernel⟩,
    ⟨.hostA, 0xEFFFFC, 14, State.reset, by decide +kernel⟩,
    ⟨.mnt, 0x800000, State.reset, by decide +kernel⟩,
    ⟨0xF00000, State.reset, by decide +kernel⟩,
    ⟨0xFFFFFC, regs [(Reg.XBR_ERR, Reg.XBR_ERR_VALID, 1)], by decide +kernel⟩,
    ⟨0xDFFFF, by decide +kernel⟩,
    ⟨.hostA, State.reset, by decide +kernel⟩,
    ⟨.sup, 95, regs [(Reg.DRV_SLOT_ADDR 95, Reg.DRV_SLOT_ADDR_SLOT, 8), (Reg.DRV_SLOT_ADDR 95, Reg.DRV_SLOT_ADDR_WORD, 2191)],
      by decide +kernel⟩,
    ⟨.sup, State.reset, by unfold Reaches; decide +kernel⟩,
    ⟨.hostA, 12, State.reset, by unfold Reaches; decide +kernel⟩,
    ⟨.hostA, 1, State.reset, by unfold Reaches; decide +kernel⟩⟩

theorem wit_CounterClearsClearTheirCounters :
    (∃ (m : Master) (s : State), Reaches s m Reg.BEL_CNT_CLR) ∧
    (∃ (m : Master) (v : BitVec 32) (s : State), Reaches s m Reg.RTS_CNT_CLR ∧ bit v.toNat 0 = true) ∧
    (∃ (m : Master) (i : Fin 96) (v : BitVec 32) (s : State), Reaches s m (Reg.DRV_CNT_CLR i) ∧ bit v.toNat 0 = true) ∧
    (∃ (m : Master) (i : Fin 96) (v : BitVec 32) (s : State), Reaches s m (Reg.MON_CNT_CLR i) ∧ bit v.toNat 0 = true) ∧
    (∃ (m : Master) (i : Fin 100) (v : BitVec 32) (s : State), Reaches s m (Reg.TRK_CNT_CLR i) ∧ bit v.toNat 0 = true) ∧
    (∃ (m : Master) (v : BitVec 32) (s : State), Reaches s m Reg.CAL_CNT_CLR ∧ bit v.toNat 0 = true) ∧
    (∃ (m : Master) (v : BitVec 32) (s : State), Reaches s m Reg.PWR_CNT_CLR ∧ bit v.toNat 0 = true) ∧
    (∃ (m : Master) (v : BitVec 32) (s : State), Reaches s m Reg.TMU_CNT_CLR ∧ bit v.toNat 0 = true) ∧
    (∃ (m : Master) (i : Fin 4) (v : BitVec 32) (s : State), Reaches s m (Reg.ETH_CNT_CLR i) ∧ bit v.toNat 0 = true) ∧
    (∃ (m : Master) (v : BitVec 32) (s : State), Reaches s m Reg.FLT_CNT_CLR ∧ bit v.toNat 0 = true) ∧
    (∃ (m : Master) (v : BitVec 32) (s : State), Reaches s m Reg.THM_CNT_CLR ∧ bit v.toNat 0 = true) ∧
    (∃ (m : Master) (v : BitVec 32) (s : State), Reaches s m Reg.XBR_CNT_CLR ∧ bit v.toNat 0 = true) ∧
    (∃ (m : Master) (v : BitVec 32) (s : State), Reaches s m Reg.ISC_CNT_CLR ∧ bit v.toNat 0 = true) :=
  ⟨⟨.hostA, State.reset, by unfold Reaches; decide +kernel⟩,
    ⟨.hostB, 1, State.reset, by unfold Reaches; decide +kernel⟩,
    ⟨.hostB, 95, 1, State.reset, by unfold Reaches; decide +kernel⟩,
    ⟨.hostB, 95, 1, State.reset, by unfold Reaches; decide +kernel⟩,
    ⟨.hostB, 99, 1, State.reset, by unfold Reaches; decide +kernel⟩,
    ⟨.hostB, 1, State.reset, by unfold Reaches; decide +kernel⟩,
    ⟨.hostB, 1, State.reset, by unfold Reaches; decide +kernel⟩,
    ⟨.hostB, 1, State.reset, by unfold Reaches; decide +kernel⟩,
    ⟨.hostB, 3, 1, State.reset, by unfold Reaches; decide +kernel⟩,
    ⟨.hostB, 1, State.reset, by unfold Reaches; decide +kernel⟩,
    ⟨.hostB, 1, State.reset, by unfold Reaches; decide +kernel⟩,
    ⟨.hostB, 1, State.reset, by unfold Reaches; decide +kernel⟩,
    ⟨.hostB, 1, State.reset, by unfold Reaches; decide +kernel⟩⟩

/-- A device whose pipeline runs, at up time `t` and the same device time. -/
def at_ (t : Nat) (s : State := State.reset) : State := { s with up := t, now := t * q40 }

/-- A lane that has solved for its whole time. -/
def aLane (kind : Nat) : Lane := ⟨kind, 0, 0, 0, 0, 0⟩

/-- A route check of slot 0. -/
def aCheck : Check := ⟨0, 5, 0, 0, 0, 8, 0⟩

theorem wit_SolvesRunOnTheLanes :
    (∃ (s : State) (b : Bell) (rest : List Bell), waitingSolves s = b :: rest ∧ pipeRuns s = true ∧ laneIdle s 0 = true) ∧
    (∃ (s : State) (b : Bell) (rest : List Bell), waitingSolves s = b :: rest ∧ pipeRuns s = true ∧ laneKind s 0 = some 0 ∧ laneIdle s 1 =
      true) ∧
    (∃ (l : Fin 2) (s : State) (x : Lane) (b : Bell), laneDue s l 0 = some x ∧ bellAt s x.bell = some b) ∧
    (∃ (l : Fin 2) (s : State) (x : Lane), laneDue s l 0 = some x ∧ laneOk s l = true) ∧
    (∃ (l : Fin 2) (s : State) (x : Lane), s.bel.xcheckDue = true ∧ waitingSolves s = [] ∧ s.bel.checks = [] ∧ laneOf s l = some x ∧ x.kind
      = 0 ∧ x.at_ = s.up ∧ laneIdle s (1 - l.val) = true) ∧
    (∃ (l : Fin 2) (s : State) (x : Lane), (l = 1 → laneDue s 0 2 = none) ∧ laneDue s l 2 = some x) ∧
    (∃ (l : Fin 2) (s : State) (x : Lane) (f : Fin 2), (l = 1 → laneDue s 0 2 = none) ∧ laneDue s l 2 = some x ∧ laneOk s f = true) ∧
    (∃ (s : State) (c : Check) (rest : List Check), s.bel.checks = c :: rest ∧ pipeRuns s = true ∧ waitingSolves s = [] ∧ laneKind s 0 ≠
      some 1 ∧ laneIdle s 1 = true ∧ loaded s c.slot = true ∧ fget s Reg.THM_STATUS Reg.THM_STATUS_LEVEL < 2) ∧
    (∃ (s : State) (c : Check) (rest : List Check), s.bel.checks = c :: rest ∧ pipeRuns s = true ∧ waitingSolves s = [] ∧ laneKind s 1 =
      some 0 ∧ laneIdle s 0 = true ∧ loaded s c.slot = true ∧ fget s Reg.THM_STATUS Reg.THM_STATUS_LEVEL < 2) ∧
    (∃ (l : Fin 2) (s : State) (c : Check) (rest : List Check) (x : Lane), s.bel.checks = c :: rest ∧ pipeRuns s = true ∧ (l = 1 → laneDue
      s 0 1 = none) ∧ laneDue s l 1 = some x) ∧
    (∃ (l : Fin 2) (s : State) (c : Check) (rest : List Check) (x : Lane), s.bel.checks = c :: rest ∧ pipeRuns s = true ∧ (l = 1 → laneDue
      s 0 1 = none) ∧ laneDue s l 1 = some x ∧ laneOk s l = true) ∧
    (∃ (s : State) (c : Check), s.bel.checks.find? (fun c => decide (c.deadline ≤ s.now)) = some c ∧ s.restart.inWindow = false) := by
  let b : Bell := aBell 100000
  let with_ (a b : Option Lane) (cs : List Check) (x : Bool) (s : State) : State :=
    { s with bel := { s.bel with laneA := a, laneB := b, checks := cs, xcheckDue := x } }
  exact ⟨⟨powered (belled [b]), b, [], by decide +kernel⟩,
    ⟨with_ (some { aLane 0 with bell := 7 }) none [] false (powered (belled [b])), b, [], by decide +kernel⟩,
    ⟨1, with_ none (some (aLane 0)) [] false (belled [b] (at_ 5100)), aLane 0, b, by decide +kernel⟩,
    ⟨1, with_ none (some (aLane 0)) [] false (at_ 5100), aLane 0, by decide +kernel⟩,
    ⟨0, with_ (some (aLane 0)) none [] true State.reset, aLane 0, by decide +kernel⟩,
    ⟨1, with_ none (some (aLane 2)) [] false (at_ 5100), aLane 2, by decide +kernel⟩,
    ⟨0, with_ (some (aLane 2)) none [] false (at_ 5100), aLane 2, 1, by decide +kernel⟩,
    ⟨with_ none none [aCheck] false (powered charted), aCheck, [], by decide +kernel⟩,
    ⟨with_ none (some (aLane 0)) [aCheck] false (powered charted), aCheck, [], by decide +kernel⟩,
    ⟨0, with_ (some (aLane 1)) none [aCheck] false (powered (at_ 5100)), aCheck, [], aLane 1, by decide +kernel⟩,
    ⟨1, with_ none (some (aLane 1)) [aCheck] false (powered (at_ 5100)), aCheck, [], aLane 1, by decide +kernel⟩,
    ⟨with_ none none [aCheck] false State.reset, aCheck, by decide +kernel⟩⟩
/-! ## Witnesses: bells on their way, the drive array -/

/-- Tile `t` served by core `t`, which sleeps, for every tile. -/
def manned (s : State := State.reset) : State :=
  regs ((List.range 96).map (fun k => (Reg.TRK_STATUS k, Reg.TRK_STATUS_STATE, 1)))
    (regs ((List.range 24).map (fun j => (Reg.FLT_TMAP j, ⟨31, 0⟩, 4 * j + (4 * j + 1) * 2 ^ 8 + (4 * j + 2) * 2 ^ 16 + (4 * j + 3) * 2 ^ 24))) s)

/-- A device in service. -/
def inServ (s : State := State.reset) : State := regs [(Reg.BEL_STATUS, Reg.BEL_STATUS_IN_SERVICE, 1)] (powered s)

/-- A solution without circuits, and a plan without cells that selects KICK. -/
def aSol : Solution := ⟨0, [], 0⟩
def aPlan : Plan := ⟨1, 0, 0, [], [], false, true, [], []⟩

/-- Bell 9 at an instant in a state, planned and solved, verify at a stage. -/
def bellAt_ (t st stage : Nat) : Bell :=
  { aBell t with st := st, sol := some aSol, plan := some aPlan, ver := { Verify.init with stage := stage } }

/-- A profile that plays on the first channel of a cell. -/
def aPlay (begun : Bool) : Play := ⟨2, 0, 70000, [], 6, 100, false, false, begun⟩

/-- A channel replaced. -/
def chan (h : Nat) (c : Chan) (s : State := State.reset) : State := setChan s h c

theorem wit_BellsArePlannedArmedAndFired :
    (∃ (s : State) (b : Bell) (x : Solution), (aheadBells s).find? (fun b => decide (b.st < 4)) = some b ∧ pipeRuns s = true ∧ b.st = 2 ∧
      b.sol = some x ∧ (∀ k, (k < 96 ∨ ∃ p, b.plan = some p ∧ k ∈ p.tiles) → canPlan s k = true)) ∧
    (∃ (s : State) (b : Bell) (rest : List Bell), fireOrder s = b :: rest ∧ inService s = true ∧ b.t ≤ nowNs s + 5000 ∧ (∀ w ∈ s.pwr.wins,
      w ≠ (b.idx, b.t + 1700)) ∧ (b.st < 3 ∨ b.plan = none ∨ ∃ p, b.plan = some p ∧ p.kick = true)) ∧
    (∃ (s : State), s.pwr.wins ≠ [] ∧ (s.pwr.wins.map (·.2)).foldl max 0 + fget s Reg.PWR_KICK2 Reg.PWR_KICK2_HOLDOFF * 1000 ≤ nowNs s) ∧
    (∃ (s : State) (b : Bell) (rest : List Bell) (p : Plan) (sol : Solution), liveOrder s = b :: rest ∧ pipeRuns s = true ∧ inService s =
      true ∧ b.st = 4 ∧ b.t ≤ nowNs s + 500 ∧ b.plan = some p ∧ b.sol = some sol) ∧
    (∃ (s : State) (b : Bell) (rest : List Bell) (p : Plan) (sol : Solution), liveOrder s = b :: rest ∧ pipeRuns s = true ∧ inService s =
      true ∧ b.st = 5 ∧ b.t ≤ nowNs s ∧ b.plan = some p ∧ b.sol = some sol) ∧
    (∃ (s : State) (h : Nat) (p : Play), h < 12288 ∧ (chanOf s h).play = some p ∧ p.begun = false ∧ p.t0 + 20 * p.o ≤ nowNs s) ∧
    (∃ (k : Fin 96) (c : Fin 128) (s : State) (p : Play), (chanOf s (128 * k + c)).play = some p ∧ p.begun = true ∧ p.t0 + 20 * (p.o + 32)
      ≤ nowNs s) := by
  let b2 : Bell := { aBell 100000 with st := 2, sol := some aSol }
  let s2 : State := powered (manned (belled [b2]))
  have hp : ∀ k < 96, canPlan s2 k = true := by decide +kernel
  exact ⟨⟨s2, b2, aSol, by decide +kernel, by decide +kernel, rfl, rfl, fun k h => h.elim (hp k) (fun ⟨_, e, _⟩ => nomatch e)⟩,
    ⟨inServ (belled [aBell 5000]), aBell 5000, [], by decide +kernel, by decide +kernel, by decide +kernel, by decide +kernel, Or.inl
      (by decide)⟩,
    ⟨at_ (1700 + 65535000) { State.reset with pwr := { State.reset.pwr with wins := [(0, 1700)] } }, by decide +kernel⟩,
    ⟨inServ (belled [bellAt_ 500 4 0]), bellAt_ 500 4 0, [], aPlan, aSol, by decide +kernel⟩,
    ⟨inServ (at_ 500 (belled [bellAt_ 500 5 0])), bellAt_ 500 5 0, [], aPlan, aSol, by decide +kernel⟩,
    ⟨at_ 220 (chan 12287 { Chan.init with play := some (aPlay false) }), 12287, aPlay false, by decide +kernel⟩,
    ⟨95, 127, at_ 860 (chan 12287 { Chan.init with play := some (aPlay true) }), aPlay true, by decide +kernel⟩⟩

/-- A pass of entry 5 whose interval has ended. -/
def aPass : GPass := ⟨5, 1, 0, 1, 0xFF, 0, 0, 0, 1700, false, false⟩

/-- A span of group 7 at T + 20 ns. -/
def aSpan : Span := ⟨7, 0, 20, 1000, false, false⟩

theorem wit_FiredBellsAreVerifiedAndCompleted :
    (∃ (s : State) (w : Nat) (b : Bell) (p : Plan) (sol : Solution), verifying s (fun st => decide (st = 0 ∨ st = 1 ∨ st = 4)) = some b ∧
      bellAt s b.idx = some b ∧ b.plan = some p ∧ b.sol = some sol ∧ ((w = 0 ∧ b.ver.stage = 0 ∧ b.t + 680 ≤ nowNs s) ∨ (w = 1 ∧
      b.ver.stage = 1 ∧ b.t + 800 ≤ nowNs s))) ∧
    (∃ (s : State) (b : Bell) (p : Plan) (sol : Solution), verifying s (fun st => decide (st = 0 ∨ st = 1 ∨ st = 4)) = some b ∧ bellAt s
      b.idx = some b ∧ b.plan = some p ∧ b.sol = some sol ∧ b.ver.stage = 4 ∧ b.t + 1680 ≤ nowNs s) ∧
    (∃ (s : State) (b : Bell) (p : Plan), verifying s (fun st => decide (st = 2)) = some b ∧ b.plan = some p ∧ pipeRuns s = true ∧ b.t +
      960 ≤ nowNs s) ∧
    (∃ (s : State) (b : Bell), verifying s (fun st => decide (st = 3)) = some b ∧ pipeRuns s = true ∧ b.t + 1000 ≤ nowNs s) ∧
    (∃ (s : State) (b : Bell) (p : Plan) (sol : Solution), (sortBy (fun b => (b.t : Int)) s.bel.bells).find? (fun b => decide (b.st = 6)) =
      some b ∧ b.plan = some p ∧ b.sol = some sol ∧ pipeRuns s = true ∧ (s.bel.cutOff.contains b.idx = true ∨ (s.bel.cutOff.contains b.idx
      = false ∧ (∀ x ∈ fireOrder s, windowed s x = false) ∧ b.ver.stage = 5 ∧ (∀ c ∈ p.cells, c.1 ∈ b.ver.landed ∨ isRetired s c.1 = true ∨
      c.1 ∈ b.ver.passOn) ∧ (seedsOpen s p.tiles = false ∨ b.t + 2000 ≤ nowNs s)))) ∧
    (∃ (s : State) (b : Bell) (rest : List Bell), fireOrder s = b :: rest ∧ pipeRuns s = true ∧ s.bel.cutOff = [] ∧ b.t ≤ nowNs s ∧
      (windowed s b = true ∨ inService s = false)) ∧
    (∃ (s : State) (p : GPass), p ∈ s.pwr.passes ∧ p.kind = 0 ∧ p.start + 1700 ≤ nowNs s ∧ (∀ b ∈ s.bel.bells, b.idx = p.entry → 6 ≤ b.st)) ∧
    (∃ (s : State) (x : Nat × Span) (rest : List (Nat × Span)), s.bel.openSpans = x :: rest ∧ x.2.begun = false ∧ x.1 + x.2.ofs ≤ nowNs s ∧
      spanOpen s x = true) ∧
    (∃ (s : State) (x : Nat × Span) (rest : List (Nat × Span)), s.bel.openSpans = x :: rest ∧ spanOpen s x = false) :=
  ⟨⟨at_ 680 (belled [bellAt_ 0 6 0]), 0, bellAt_ 0 6 0, aPlan, aSol, by decide +kernel⟩,
    ⟨at_ 1680 (belled [bellAt_ 0 6 4]), bellAt_ 0 6 4, aPlan, aSol, by decide +kernel⟩,
    ⟨powered (at_ 960 (belled [bellAt_ 0 6 2])), bellAt_ 0 6 2, aPlan, by decide +kernel⟩,
    ⟨powered (at_ 1000 (belled [bellAt_ 0 6 3])), bellAt_ 0 6 3, by decide +kernel⟩,
    ⟨powered (belled [bellAt_ 0 6 5]), bellAt_ 0 6 5, aPlan, aSol, by decide +kernel⟩,
    ⟨powered (at_ 20 (belled [bellAt_ 20 4 0])), bellAt_ 20 4 0, [], by decide +kernel⟩,
    ⟨at_ 1700 { State.reset with pwr := { State.reset.pwr with passes := [aPass] } }, aPass, by decide +kernel⟩,
    ⟨at_ 20 { State.reset with bel := { State.reset.bel with openSpans := [(0, aSpan)] } }, (0, aSpan), [], by decide +kernel⟩,
    ⟨at_ 1020 { State.reset with bel := { State.reset.bel with openSpans := [(0, aSpan)] } }, (0, aSpan), [], by decide +kernel⟩⟩

/-- The last channel's self-test after `n` of its codes. -/
def testing (n : Nat) : State :=
  { (regs [(Reg.DRV_TEST 95, Reg.DRV_TEST_BUSY, 1)]) with drv := { State.reset.drv with tests := [(95, some ⟨12287, n, 0, 0⟩)] } }

/-- Tile 95's converter at its last channel, which stands on KICK at a code, its measurement due at a time. -/
def housed (due code : Nat) : State :=
  { (regs [(Reg.DRV_CH_STAT 95 127, Reg.DRV_CH_STAT_RAIL, 4), (Reg.DRV_CH_STAT 95 127, Reg.DRV_CH_STAT_ACTIVE, code)]) with
    up := 127, drv := { State.reset.drv with house := [(95, (127, due))] } }

theorem wit_DriveCommandsAct :
    (∃ (m : Master) (k : Fin 96) (v : BitVec 32) (s : State), Reaches s m (Reg.DRV_CTRL k) ∧ bit v.toNat 0 = true ∧ fget s (Reg.DRV_CTRL k)
      Reg.DRV_CTRL_ENABLE = 0) ∧
    (∃ (m : Master) (k : Fin 96) (v : BitVec 32) (s : State), Reaches s m (Reg.DRV_CTRL k) ∧ bit v.toNat 1 = true ∧ fget s (Reg.DRV_CTRL k)
      Reg.DRV_CTRL_ENABLE = 1 ∧ fget s (Reg.DRV_CTRL k) Reg.DRV_CTRL_RELEASE = 0) ∧
    (∃ (m : Master) (k : Fin 96) (v : BitVec 32) (s : State), Reaches s m (Reg.DRV_CTRL k) ∧ (bit v.toNat 0 = false ∨ fget s (Reg.DRV_CTRL
      k) Reg.DRV_CTRL_ENABLE = 1) ∧ (bit v.toNat 1 = false ∨ fget s (Reg.DRV_CTRL k) Reg.DRV_CTRL_RELEASE = 1)) ∧
    (∃ (k : Fin 96) (s : State), drvState s k = 2 ∧ (∀ c < 128, slewing s (128 * k + c) = false)) ∧
    (∃ (m : Master) (k : Fin 96) (c : Fin 128) (s : State), Reaches s m (Reg.DRV_CH_CODE k c) ∧ drvManual s k = true ∧ owned s (128 * k +
      c) = false) ∧
    (∃ (m : Master) (k : Fin 96) (c : Fin 128) (s : State), Reaches s m (Reg.DRV_CH_CODE k c) ∧ drvManual s k = true ∧ owned s (128 * k +
      c) = true) ∧
    (∃ (m : Master) (k : Fin 96) (c : Fin 128) (s : State), Reaches s m (Reg.DRV_CH_CODE k c) ∧ drvManual s k = false) ∧
    (∃ (m : Master) (k : Fin 96) (v : BitVec 32) (s : State), Reaches s m (Reg.DRV_LOAD k) ∧ v.toNat % 2 = 1 ∧ drvManual s k = true ∧
      drvState s k = 3) ∧
    (∃ (m : Master) (k : Fin 96) (v : BitVec 32) (s : State), Reaches s m (Reg.DRV_LOAD k) ∧ (v.toNat % 2 = 0 ∨ drvManual s k = false ∨
      drvState s k ≠ 3)) ∧
    (∃ (m : Master) (k : Fin 96) (s : State), Reaches s m (Reg.DRV_TEST k)) ∧
    (∃ (k : Fin 96) (s : State) (y : SelfTest), fget s (Reg.DRV_TEST k) Reg.DRV_TEST_BUSY = 1 ∧ testOf s k = some y ∧ 126 ≤ y.step) ∧
    (∃ (k : Fin 96) (s : State), (fget s (Reg.DRV_TEST k) Reg.DRV_TEST_BUSY = 0 ∨ testOver s k = false)) :=
  ⟨⟨.hostA, 0, 1, rput mapped Reg.PWR_STATUS 0 true, by unfold Reaches; decide +kernel⟩,
    ⟨.hostA, 95, 3, regs [(Reg.DRV_CTRL 95, Reg.DRV_CTRL_ENABLE, 1)], by unfold Reaches; decide +kernel⟩,
    ⟨.hostA, 95, 4, State.reset, by unfold Reaches; decide +kernel⟩,
    ⟨95, regs [(Reg.DRV_STATUS 95, Reg.DRV_STATUS_STATE, 2)], by decide +kernel⟩,
    ⟨.hostA, 95, 127, regs [(Reg.DRV_CTRL 95, Reg.DRV_CTRL_MANUAL, 1)], by unfold Reaches; decide +kernel⟩,
    ⟨.hostA, 95, 127, regs [(Reg.DRV_CTRL 95, Reg.DRV_CTRL_MANUAL, 1), (Reg.DRV_CH_STAT 95 127, Reg.DRV_CH_STAT_OWNED, 1)],
      by unfold Reaches; decide +kernel⟩,
    ⟨.hostA, 95, 127, State.reset, by unfold Reaches; decide +kernel⟩,
    ⟨.hostA, 95, 1, regs [(Reg.DRV_CTRL 95, Reg.DRV_CTRL_MANUAL, 1), (Reg.DRV_STATUS 95, Reg.DRV_STATUS_STATE, 3)],
      by unfold Reaches; decide +kernel⟩,
    ⟨.hostA, 95, 1, regs [(Reg.DRV_CTRL 95, Reg.DRV_CTRL_MANUAL, 1), (Reg.DRV_STATUS 95, Reg.DRV_STATUS_STATE, 2)],
      by unfold Reaches; decide +kernel⟩,
    ⟨.hostA, 95, State.reset, by unfold Reaches; decide +kernel⟩,
    ⟨95, testing 126, ⟨12287, 126, 0, 0⟩, by decide +kernel⟩,
    ⟨95, testing 125, by decide +kernel⟩⟩

theorem wit_DriveEventsAct :
    (∃ (k : Fin 96) (c : Fin 128) (s : State), slewing s (128 * k + c) = true ∧ (chanOf s (128 * k + c)).play = none ∧ (chanOf s (128 * k +
      c)).stepAt ≤ nowNs s ∧ (chanOf s (128 * k + c)).target < 65536) ∧
    (∃ (k : Fin 96) (c : Fin 128) (s : State) (x : SelfTest), testOf s k = some x ∧ x.ch = 128 * k.val + c.val ∧ slewing s (128 * k + c) =
      false ∧ x.step < 126) ∧
    (∃ (k : Fin 96) (nA : Nat) (s : State), houseDue s k ≤ s.up ∧ chRail s (houseChan s k) ≠ 7 ∧ 1000000 ≤ nA ∧ mismatch s (houseChan s k)
      nA = false) ∧
    (∃ (k : Fin 96) (s : State), s.up < houseDue s k) ∧
    (∃ (k : Fin 96) (c : Fin 128) (s : State), chRail s (128 * k + c) < 4) ∧
    (∃ (k : Fin 96) (c : Fin 128) (s : State), 4 ≤ chRail s (128 * k + c)) ∧
    (∃ (k : Fin 96) (c : Fin 128) (x : Fin 6) (s : State), faultOpen s (128 * k + c) x = true ∧ chRail s (128 * k + c) ≠ 7) ∧
    (∃ (k : Fin 96) (c : Fin 128) (x : Fin 6) (s : State), (faultOpen s (128 * k + c) x = false ∨ chRail s (128 * k + c) = 7)) :=
  ⟨⟨95, 127, chan 12287 { Chan.init with target := 65535 } (regs [(Reg.DRV_CH_STAT 95 127, Reg.DRV_CH_STAT_SLEW, 1)]), by decide +kernel⟩,
    ⟨95, 127, testing 125, ⟨12287, 125, 0, 0⟩, by decide +kernel⟩,
    ⟨95, 1000000, housed 127 5461, by decide +kernel⟩,
    ⟨95, housed 128 0, by decide +kernel⟩,
    ⟨95, 127, regs [(Reg.DRV_CH_STAT 95 127, Reg.DRV_CH_STAT_RAIL, 3)], by decide +kernel⟩,
    ⟨95, 127, State.reset, by decide +kernel⟩,
    ⟨0, 1, 4, regs [(Reg.DRV_CH_STAT 0 1, Reg.DRV_CH_STAT_RAIL, 4)] (rput mapped Reg.PWR_STATUS 4 true), by decide +kernel⟩,
    ⟨0, 1, 0, State.reset, by decide +kernel⟩⟩
/-! ## Witnesses: the monitor array and the cores -/

theorem wit_MonitorCommandsAct :
    (∃ (m : Master) (k : Fin 96) (v : BitVec 32) (s : State), Reaches s m (Reg.MON_CTRL k) ∧ v.toNat % 2 = 1 ∧ monOn s k = false) ∧
    (∃ (m : Master) (k : Fin 96) (v : BitVec 32) (s : State), Reaches s m (Reg.MON_CTRL k) ∧ (v.toNat % 2 = 0 ∨ monOn s k = true)) ∧
    (∃ (m : Master) (k : Fin 96) (j : Fin 128) (s : State), Reaches s m (Reg.MON_IN_CFG k j)) ∧
    (∃ (m : Master) (k : Fin 96) (j : Fin 128) (s : State), Reaches s m (Reg.MON_IN_WIN k j)) ∧
    (∃ (m : Master) (k : Fin 96) (s : State), Reaches s m (Reg.MON_DIAG k)) ∧
    (∃ (m : Master) (v : BitVec 32) (s : State), Reaches s m Reg.CAL_ADC_CMD ∧ bit v.toNat 11 = true ∧ bit v.toNat 10 = true) ∧
    (∃ (m : Master) (v : BitVec 32) (s : State), Reaches s m Reg.CAL_ADC_CMD ∧ bit v.toNat 11 = true ∧ bit v.toNat 10 = false) ∧
    (∃ (m : Master) (v : BitVec 32) (s : State), Reaches s m Reg.CAL_ADC_CMD ∧ bit v.toNat 11 = false) ∧
    (∃ (s : State), s.mon.calRun ≠ none) ∧
    (∃ (s : State), s.mon.calRun = none) :=
  ⟨⟨.hostA, 0, 1, regs ((List.range 8).map (fun j => (Reg.MON_ADC_CAL 0 j, Reg.MON_ADC_CAL_VALID, 1))) mapped,
      by unfold Reaches; decide +kernel⟩,
    ⟨.hostA, 95, 0, State.reset, by unfold Reaches; decide +kernel⟩,
    ⟨.hostA, 95, 127, State.reset, by unfold Reaches; decide +kernel⟩,
    ⟨.hostA, 95, 127, State.reset, by unfold Reaches; decide +kernel⟩,
    ⟨.hostA, 95, State.reset, by unfold Reaches; decide +kernel⟩,
    ⟨.hostA, 0xC00, State.reset, by unfold Reaches; decide +kernel⟩,
    ⟨.hostA, 0x800 + 767, State.reset, by unfold Reaches; decide +kernel⟩,
    ⟨.hostA, 0x400, State.reset, by unfold Reaches; decide +kernel⟩,
    ⟨{ State.reset with mon := { State.reset.mon with calRun := some none } }, by decide +kernel⟩,
    ⟨State.reset, by decide +kernel⟩⟩

/-- Cell 0's inputs compared, its tile's scan on. -/
def comparing (s : State := State.reset) : State :=
  regs [(Reg.MON_IN_CFG 0 1, Reg.MON_IN_CFG_CMP_EN, 1), (Reg.MON_IN_CFG 0 1, Reg.MON_IN_CFG_WAKE_EN, 1),
    (Reg.MON_STATUS 0, Reg.MON_STATUS_ENABLED, 1)] (mapped s)

theorem wit_MonitorEventsAct :
    (∃ (k : Fin 96) (j : Fin 128) (cur : Nat) (ns : Fin 64) (s : State) (c : Instr), (c = .exit k j cur ns ∨ (c = .windowHoldEnd k j cur ns
      ∧ (inpOf s (128 * k.val + j.val)).holdEnd.isSome = true)) ∧ cmpOn s (128 * k.val + j.val) = true ∧ (inpOf s (128 * k.val +
      j.val)).blankEnd ≤ s.up ∧ (∀ e, (inpOf s (128 * k.val + j.val)).holdEnd = some e → e ≤ s.up)) ∧
    (∃ (k : Fin 96) (j : Fin 128) (s : State), (cmpOn s (128 * k + j) = false ∨ s.up < (inpOf s (128 * k + j)).blankEnd ∨ (∃ e, (inpOf s
      (128 * k + j)).holdEnd = some e ∧ s.up < e))) ∧
    (∃ (k : Fin 96) (j : Fin 128) (s : State), ((∀ e, (inpOf s (128 * k + j)).holdEnd = some e → s.up < e) ∨ (cmpOn s (128 * k + j) = true
      ∧ s.up < (inpOf s (128 * k + j)).blankEnd))) ∧
    (∃ (a : Fin 768) (s : State), monOn s (a / 8) = true ∧ adcRuns s a = true ∧ scanStopped s = false ∧ fget s (Reg.MON_STATUS (a / 8))
      Reg.MON_STATUS_SUSPENDED = 0 ∧ (pairGet s (a / 2)).burst = none ∧ scanList s a ≠ []) ∧
    (∃ (a : Fin 768) (s : State), (monOn s (a / 8) = false ∨ adcRuns s a = false ∨ scanStopped s = true ∨ fget s (Reg.MON_STATUS (a / 8))
      Reg.MON_STATUS_SUSPENDED = 1 ∨ (pairGet s (a / 2)).burst.isSome = true ∨ scanList s a = [])) ∧
    (∃ (p : Fin 384) (s : State) (q : Req) (rest : List Req), (pairGet s p).queue = q :: rest ∧ (pairGet s p).burst = none ∧ scanStopped s
      = false ∧ (q.bell = true ∨ fget s (Reg.MON_STATUS (p / 4)) Reg.MON_STATUS_SUSPENDED = 0) ∧ (q.bell = true ∨ inPassInterval s = true ∨
      1000 ≤ tokens s) ∧ (adcRuns s (2 * p) = true ∨ adcRuns s (2 * p + 1) = true)) ∧
    (∃ (p : Fin 384) (s : State) (q : Req) (t0 n : Nat), (pairGet s p).burst = some (q, t0, n) ∧ t0 + burstNs s p n ≤ s.up) ∧
    (∃ (p : Fin 384) (s : State), (∀ q t0 n, (pairGet s p).burst = some (q, t0, n) → s.up < t0 + burstNs s p n)) := by
  let q : Req := ⟨127, 15, 255, true, false⟩
  let pair (x : Pair) : State := { State.reset with mon := { State.reset.mon with pairs := [(383, x)] } }
  exact ⟨⟨0, 1, 0, 0, comparing, .exit 0 1 0 0, Or.inl rfl, by decide +kernel, by decide +kernel, none_all (by decide +kernel)⟩,
    ⟨95, 127, State.reset, Or.inl (by decide +kernel)⟩,
    ⟨95, 127, State.reset, Or.inl (none_all (by decide +kernel))⟩,
    ⟨0, comparing, by decide +kernel⟩,
    ⟨767, State.reset, by decide +kernel⟩,
    ⟨383, pair ⟨[q], none⟩, q, [], by decide +kernel⟩,
    ⟨383, at_ (burstNs State.reset 383 7) (pair ⟨[], some (q, 0, 7)⟩), q, 0, 7, by decide +kernel⟩,
    ⟨383, State.reset, fun q t0 n => none_all (P := fun x => State.reset.up < x.2.1 + burstNs State.reset 383 x.2.2) (by decide +kernel)
      (q, t0, n)⟩⟩

/-- Core `k` in RUN at level 1. -/
def running (k : Nat) (f : Core → Core := id) (s : State := State.reset) : State :=
  setCore (regs [(Reg.TRK_STATUS k, Reg.TRK_STATUS_STATE, 2)] s) k (f { Core.init with level := 1 })

theorem wit_AluInstructionsCompute :
    (∃ (k : Fin 100) (b : Fin 16) (s : State), Issues s k ∧ rdD (cycle s k) k b < 24) ∧
    (∃ (k : Fin 100) (a : Fin 16) (s : State), Issues s k ∧ rdD (cycle s k) k a ≠ 2 ^ 23) ∧
    (∃ (imm : BitVec 16), imm.toNat < 24) :=
  ⟨⟨99, 15, running 99 (fun c => { c with rf := [(64 + ixD 15, 23)] }), by unfold Issues; decide +kernel⟩,
    ⟨99, 15, running 99, by unfold Issues; decide +kernel⟩,
    ⟨23, by decide +kernel⟩⟩

theorem wit_AluInstructionsSetFlags :
    ∃ (k : Fin 100) (d a b : Fin 16) (imm : BitVec 16) (fl : Bool) (c : Instr) (s : State), Issues s k ∧
      c ∈ [Instr.norm k d a fl, .shl k d a b fl, .shr k d a b fl, .asr k d a b fl, .shli k d a imm, .shri k d a imm, .asri k d a imm,
        .abs k d a fl, .neg k d a fl] := by
  unfold Issues
  exact ⟨99, 15, 15, 15, 24, true, .neg 99 15 15 true, running 99, by decide +kernel⟩

theorem wit_MultipliesAccumulate :
    (∃ (k : Fin 100) (o : MulOpd) (s u : State) (x y : Nat), Issues s k ∧ mulOpds (cycle s k) k o = some (x, y, u)) ∧
    (∃ (k : Fin 100) (p : Fin 4) (mx my : MemForm) (s u : State) (x y : Nat), Issues s k ∧ p.val < 3 ∧ slotPair (cycle s k) k mx my = some
      (x, y, u)) ∧
    (∃ (k : Fin 100) (s : State), Issues s k ∧ (coreOf s k).pc < 0x6000) ∧
    (∃ (k : Fin 100) (mx my : MemForm) (s u : State) (x y : Nat), Issues s k ∧ slotPair (cycle s k) k mx my = some (x, y, u)) ∧
    (∃ (n : Fin 64), n.val < 48) ∧
    (∃ (m : MemForm), shortForm m = true) := by
  have h : (slotPair (cycle (running 99) 99) 99 (.post 7) (.post 6)).isSome = true := by decide +kernel
  obtain ⟨⟨x, y, u⟩, e⟩ := Option.isSome_iff_exists.mp h
  have hi : Issues (running 99) 99 := by unfold Issues; decide +kernel
  exact ⟨⟨99, .dd 15 14, running 99, _, _, _, hi, rfl⟩,
    ⟨99, 2, .post 7, .post 6, running 99, u, x, y, hi, by decide, e⟩,
    ⟨99, running 99 (fun c => { c with pc := 0x5FFC }), by unfold Issues; decide +kernel⟩,
    ⟨99, .post 7, .post 6, running 99, u, x, y, hi, e⟩,
    ⟨47, by decide +kernel⟩,
    ⟨.ind 7, by decide +kernel⟩⟩

theorem wit_LoadsStoresAndAddresses :
    (∃ (x y : MemForm), shortForm x = true ∧ shortForm y = true) ∧
    (∃ (k : Fin 100) (n : Fin 8) (s : State), rf s k (ixL n) = 0) :=
  ⟨⟨.post 7, .ind 7, by decide +kernel⟩,
    ⟨99, 7, running 99, by decide +kernel⟩⟩

theorem wit_ControlInstructionsTransfer :
    (∃ (k : Fin 100) (s : State), Issues s k ∧ (coreOf s k).ctl = none ∧ (coreOf s k).pc + 4 < 0x8000 ∧ inRep (cycle s k) k = false) ∧
    (∃ (k : Fin 100) (s : State), Issues s k ∧ (coreOf s k).pc < 0x6000 ∧ inRep (cycle s k) k = true) ∧
    (∃ (k : Fin 100) (s : State), Issues s k ∧ (coreOf s k).ctl = none ∧ (coreOf s k).pc + 4 < 0x8000) ∧
    (∃ (k : Fin 100) (a : Nat) (s : State), Issues s k ∧ (coreOf s k).ctl = some (.jump a) ∧ (coreOf s k).pc < 0x6000 ∧ a < 0x6000) ∧
    (∃ (k : Fin 100) (w : WaitCond) (s : State), Issues s k ∧ (coreOf s k).ctl = some (.wait w) ∧ (coreOf s k).pc < 0x6000) ∧
    (∃ (k : Fin 100) (s : State), Issues s k ∧ (coreOf s k).ctl = some .sleep ∧ (coreOf s k).pc < 0x6000 ∧ (coreOf s k).stack = []) ∧
    (∃ (k : Fin 100) (s : State), Issues s k ∧ (coreOf s k).ctl = none ∧ (coreOf s k).pc + 4 < 0x8000 ∧ rf (cycle s k) k ixRepN = 0) ∧
    (∃ (k : Fin 100) (s : State) (p : Nat) (rest : List Nat), Issues s k ∧ (coreOf s k).pc < 0x6000 ∧ (coreOf s k).stack = p :: rest ∧ (∀
      n, nextLevel s k = some n → p ≤ n ∧ p ≠ 0)) ∧
    (∃ (k : Fin 100) (s : State) (n : Nat), Issues s k ∧ (coreOf s k).pc < 0x6000 ∧ nextLevel s k = some n ∧ (∀ p rest, (coreOf s k).stack
      = p :: rest → n < p ∨ p = 0)) ∧
    (∃ (k : Fin 100) (s : State), Issues s k ∧ (coreOf s k).pc < 0x6000 ∧ (coreOf s k).stack = [] ∧ nextLevel s k = none) ∧
    (∃ (k : Fin 100) (s : State), Issues s k) := by
  have hi : Issues (running 99 (fun c => { c with stack := [3] })) 99 := by unfold Issues; decide +kernel
  have hs : (coreOf (running 99 (fun c => { c with pend := 2 ^ 3 })) 99).stack = [] := by decide +kernel
  have hj : Issues (running 99 (fun c => { c with pend := 2 ^ 3 })) 99 := by unfold Issues; decide +kernel
  exact ⟨⟨99, running 99 (fun c => { c with pc := 0x7FF8 }), by unfold Issues; decide +kernel⟩,
    ⟨99, running 99 (fun c => { c with rf := [(64 + ixRepN, 2), (64 + ixRepE, 8)] }), by unfold Issues; decide +kernel⟩,
    ⟨99, running 99 (fun c => { c with pc := 0x7FF8 }), by unfold Issues; decide +kernel⟩,
    ⟨99, 0x5FFC, running 99 (fun c => { c with pc := 0x5FFC, ctl := some (.jump 0x5FFC) }), by unfold Issues; decide +kernel⟩,
    ⟨99, .timer 3, running 99 (fun c => { c with ctl := some (.wait (.timer 3)) }), by unfold Issues; decide +kernel⟩,
    ⟨99, running 99 (fun c => { c with ctl := some .sleep }), by unfold Issues; decide +kernel⟩,
    ⟨99, running 99 (fun c => { c with pc := 0x7FF8 }), by unfold Issues; decide +kernel⟩,
    ⟨99, running 99 (fun c => { c with stack := [3] }), 3, [], hi, by decide +kernel, by decide +kernel, none_all (by decide +kernel)⟩,
    ⟨99, running 99 (fun c => { c with pend := 2 ^ 3 }), 3, hj, by decide +kernel, by decide +kernel, nil_all hs⟩,
    ⟨99, running 99, by unfold Issues; decide +kernel⟩,
    ⟨99, running 99, by unfold Issues; decide +kernel⟩⟩
/-! ## Witnesses: tile instructions, events of cores, hold loops, calibration -/

/-- A fabric map of eight ports in which cell 0 stands on stage 0, row 0, west port 0 enters at it, and tile 95 is tile 0's
neighbour; tile 0 is served by core 0, which sleeps. -/
def fabric (s : State := State.reset) : State :=
  regs [(Reg.FLT_TMAP 0, ⟨31, 0⟩, 0), (Reg.TRK_STATUS 0, Reg.TRK_STATUS_STATE, 1), (Reg.TRK_STATUS 0, Reg.TRK_STATUS_TILE, 0)]
    (bytes [(0xE0000A, 2, 8), (0xE0000C, 2, 5), (0xE00014, 4, 0x40), (0xE00020, 4, 0x40000), (0xE00024, 4, 0x41000),
      (0xE00028, 4, 0x42000), (0xE00034, 4, 0x100000), (0xE00040, 1, 1), (0xE40003, 1, 1), (0xE41003, 1, 1), (0xE42001, 2, 0x5F01)] s)

/-- Core 0 in RUN at level 1 on tile 0, with registers of its bank. -/
def onTile (rf : List (Nat × Nat)) : State :=
  running 0 (fun c => { c with rf := rf.map (fun x => (64 + x.1, x.2)) }) fabric

/-- Tile 0 of the drive array in RUN. -/
def inRun (s : State) : State := regs [(Reg.DRV_STATUS 0, Reg.DRV_STATUS_STATE, 4)] s

theorem wit_TileInstructionsAct :
    (∃ (k : Fin 100) (s : State) (T : Nat) (port : BitVec 12) (j : Nat), Issues s k ∧ (coreOf s k).pc < 0x6000 ∧ tfind (coreOf s k).hooks
      (coreOf s k).level = none ∧ coreTile s k = T ∧ T < 96 ∧ j < 128 ∧ port.toNat = 0x180 + j) ∧
    (∃ (k : Fin 100) (s : State) (T : Nat) (port : BitVec 12) (j : Nat), Issues s k ∧ (coreOf s k).pc < 0x6000 ∧ tfind (coreOf s k).hooks
      (coreOf s k).level = none ∧ coreTile s k = T ∧ T < 96 ∧ j < 128 ∧ port.toNat = 0x200 + j) ∧
    (∃ (k : Fin 100) (s : State) (T : Nat) (port : BitVec 12) (j : Nat), Issues s k ∧ (coreOf s k).pc < 0x6000 ∧ tfind (coreOf s k).hooks
      (coreOf s k).level = none ∧ coreTile s k = T ∧ T < 96 ∧ j < 128 ∧ port.toNat = 0x280 + j) ∧
    (∃ (k : Fin 100) (s : State) (T : Nat) (port : BitVec 12) (j : Nat), Issues s k ∧ (coreOf s k).pc < 0x6000 ∧ tfind (coreOf s k).hooks
      (coreOf s k).level = none ∧ coreTile s k = T ∧ T < 96 ∧ j < 4 ∧ port.toNat = 0x300 + j) ∧
    (∃ (k : Fin 100) (s : State) (T : Nat) (port : BitVec 12) (j : Nat), Issues s k ∧ (coreOf s k).pc < 0x6000 ∧ tfind (coreOf s k).hooks
      (coreOf s k).level = none ∧ coreTile s k = T ∧ T < 96 ∧ j < 4 ∧ port.toNat = 0x304 + j) ∧
    (∃ (k : Fin 100) (s : State) (T : Nat) (port : BitVec 12), Issues s k ∧ (coreOf s k).pc < 0x6000 ∧ tfind (coreOf s k).hooks (coreOf s
      k).level = none ∧ coreTile s k = T ∧ T < 96 ∧ port.toNat = 0x310) ∧
    (∃ (k : Fin 100) (s : State) (T : Nat) (port : BitVec 12), Issues s k ∧ (coreOf s k).pc < 0x6000 ∧ tfind (coreOf s k).hooks (coreOf s
      k).level = none ∧ coreTile s k = T ∧ T < 96 ∧ port.toNat = 0x330) ∧
    (∃ (k : Fin 100) (s : State) (T : Nat) (port : BitVec 12) (c : Nat), Issues s k ∧ (coreOf s k).pc < 0x6000 ∧ tfind (coreOf s k).hooks
      (coreOf s k).level = none ∧ coreTile s k = T ∧ T < 96 ∧ port.toNat = c ∧ c < 128 ∧ drvState s T = 4 ∧ drvManual s T = false) ∧
    (∃ (k : Fin 100) (s : State) (T : Nat) (port : BitVec 12) (j : Nat), Issues s k ∧ (coreOf s k).pc < 0x6000 ∧ tfind (coreOf s k).hooks
      (coreOf s k).level = none ∧ coreTile s k = T ∧ T < 96 ∧ port.toNat = 0x100 + j ∧ j < 128) ∧
    (∃ (k : Fin 100) (s : State) (T : Nat) (port : BitVec 12) (j : Nat), Issues s k ∧ (coreOf s k).pc < 0x6000 ∧ tfind (coreOf s k).hooks
      (coreOf s k).level = none ∧ coreTile s k = T ∧ T < 96 ∧ port.toNat = 0x180 + j ∧ j < 128) ∧
    (∃ (k : Fin 100) (s : State) (T : Nat) (d : Fin 16) (port : BitVec 12) (j b v : Nat), Issues s k ∧ (coreOf s k).pc < 0x6000 ∧ tfind
      (coreOf s k).hooks (coreOf s k).level = none ∧ coreTile s k = T ∧ T < 96 ∧ j < 4 ∧ b < 32 ∧ ((port.toNat = 0x300 + j ∧ v = rdD (cycle
      s k) k d % 2 ^ 24) ∨ (port.toNat = 0x304 + j ∧ v = rdD (cycle s k) k d % 256 * 2 ^ 24))) ∧
    (∃ (k : Fin 100) (s : State) (T : Nat), Issues s k ∧ (coreOf s k).pc < 0x6000 ∧ tfind (coreOf s k).hooks (coreOf s k).level = none ∧
      coreTile s k = T ∧ T < 96 ∧ drvState s T = 4 ∧ drvManual s T = false) ∧
    (∃ (k : Fin 100) (s : State) (T : Nat), Issues s k ∧ (coreOf s k).pc < 0x6000 ∧ tfind (coreOf s k).hooks (coreOf s k).level = none ∧
      coreTile s k = T ∧ T < 96) ∧
    (∃ (k : Fin 100) (s : State) (T : Nat) (x : Fin 16), Issues s k ∧ (coreOf s k).pc < 0x6000 ∧ tfind (coreOf s k).hooks (coreOf s
      k).level = none ∧ coreTile s k = T ∧ T < 96 ∧ (tileAdj (fm s) T).contains ((rdD (cycle s k) k x) / 64 % 128) = true) ∧
    (∃ (k : Fin 100) (s : State) (T : Nat) (x : Fin 16), Issues s k ∧ (coreOf s k).pc < 0x6000 ∧ tfind (coreOf s k).hooks (coreOf s
      k).level = none ∧ coreTile s k = T ∧ T < 96 ∧ (tileAdj (fm s) T).contains ((rdD (cycle s k) k x) / 64 % 128) = false) ∧
    (∃ (k : Fin 100) (s : State) (T : Nat) (x : Fin 16), Issues s k ∧ (coreOf s k).pc < 0x6000 ∧ tfind (coreOf s k).hooks (coreOf s
      k).level = none ∧ coreTile s k = T ∧ T < 96 ∧ rdD (cycle s k) k x % 16 < 9) ∧
    (∃ (k : Fin 100) (s : State) (T : Nat) (x : Fin 16), Issues s k ∧ (coreOf s k).pc < 0x6000 ∧ tfind (coreOf s k).hooks (coreOf s
      k).level = none ∧ coreTile s k = T ∧ T < 96 ∧ 9 ≤ rdD (cycle s k) k x % 16) :=
  ⟨⟨0, onTile [], 0, 0x1FF, 127, by unfold Issues; decide +kernel⟩,
    ⟨0, onTile [], 0, 0x27F, 127, by unfold Issues; decide +kernel⟩,
    ⟨0, onTile [], 0, 0x2FF, 127, by unfold Issues; decide +kernel⟩,
    ⟨0, onTile [], 0, 0x303, 3, by unfold Issues; decide +kernel⟩,
    ⟨0, onTile [], 0, 0x307, 3, by unfold Issues; decide +kernel⟩,
    ⟨0, onTile [], 0, 0x310, by unfold Issues; decide +kernel⟩,
    ⟨0, onTile [], 0, 0x330, by unfold Issues; decide +kernel⟩,
    ⟨0, inRun (onTile []), 0, 0x7F, 127, by unfold Issues; decide +kernel⟩,
    ⟨0, onTile [], 0, 0x17F, 127, by unfold Issues; decide +kernel⟩,
    ⟨0, onTile [], 0, 0x1FF, 127, by unfold Issues; decide +kernel⟩,
    ⟨0, onTile [], 0, 15, 0x303, 3, 31, 0, by unfold Issues; decide +kernel⟩,
    ⟨0, inRun (onTile []), 0, by unfold Issues; decide +kernel⟩,
    ⟨0, onTile [], 0, by unfold Issues; decide +kernel⟩,
    ⟨0, onTile [(ixD 15, 64 * 95 + 63)], 0, 15, by unfold Issues; decide +kernel⟩,
    ⟨0, onTile [(ixD 15, 64 * 94 + 63)], 0, 15, by unfold Issues; decide +kernel⟩,
    ⟨0, onTile [(ixD 15, 8)], 0, 15, by unfold Issues; decide +kernel⟩,
    ⟨0, onTile [(ixD 15, 9)], 0, 15, by unfold Issues; decide +kernel⟩⟩

/-- The cores' side of a state changed. -/
def cores (f : Trk → Trk) (s : State := State.reset) : State := { s with trk := f s.trk }

theorem wit_CoreEventsAct :
    (∃ (k : Fin 100) (s : State) (n : Nat), nextLevel s k = some n ∧ tileUp s (coreTile s k) = true ∧ (coreState s k = 1 ∨ (coreState s k =
      2 ∧ (n < (coreOf s k).level ∨ (coreOf s k).level = 0) ∧ (coreOf s k).ctl = none))) ∧
    (∃ (k : Fin 100) (s : State), (nextLevel s k = none ∨ tileUp s (coreTile s k) = false ∨ coreState s k = 3 ∨ (coreState s k = 2 ∧
      (coreOf s k).ctl ≠ none))) ∧
    (∃ (k : Fin 100) (n : Fin 4) (s : State) (v : Nat), tget (coreOf s k).tcmp 0 n = v + 1) ∧
    (∃ (k : Fin 100) (s : State), coreState s k = 2 ∧ dieShut s = false ∧ (coreOf s k).level ≠ 0 ∧ tget (coreOf s k).since 0 (coreOf s
      k).level + 100000 ≤ s.up) ∧
    (∃ (k : Fin 100) (s : State), coreState s k ≠ 3) ∧
    (∃ (k : Fin 100) (x : Fin 6) (s : State), (((x.val = 1 ∨ x.val = 2) ∧ (coreState s k = 1 ∨ coreState s k = 2)) ∨ ((x.val = 3 ∨ x.val =
      4) ∧ coreState s k = 2 ∧ (coreOf s k).cmode = false))) ∧
    (∃ (k : Fin 100) (x : Fin 6) (s : State), (x.val = 3 ∨ x.val = 4) ∧ coreState s k = 2 ∧ (coreOf s k).cmode = true) ∧
    (∃ (s : State) (T c p : Nat) (rest : List (Nat × Nat)), s.trk.migrate = (T, c) :: rest ∧ s.trk.moving = none ∧ T < 96 ∧ spareFor s =
      some p) ∧
    (∃ (s : State) (T c : Nat) (rest : List (Nat × Nat)), s.trk.migrate = (T, c) :: rest ∧ s.trk.moving = none ∧ T < 96 ∧ spareFor s =
      none) ∧
    (∃ (s : State) (T c x : Nat), s.trk.moving = some (T, c, x) ∧ T < 96 ∧ c < 100) ∧
    (∃ (s : State) (m : Msg) (rest : List Msg) (c : Nat), s.trk.msgs = m :: rest ∧ coreFor s m.tile = some c ∧ (coreOf s c).fifo.length <
      16 ∧ (∀ x, s.trk.moving = some x → x.1 ≠ m.tile)) ∧
    (∃ (s : State) (m : Msg) (rest : List Msg), s.trk.msgs = m :: rest ∧ (coreFor s m.tile = none ∨ (∃ c, coreFor s m.tile = some c ∧ 16 ≤
      (coreOf s c).fifo.length) ∨ ∃ x, s.trk.moving = some x ∧ x.1 = m.tile)) ∧
    (∃ (k : Fin 100) (s : State) (v tag x : Nat), (coreOf s k).stage = some (v, tag, x)) ∧
    (∃ (m : Master) (k : Fin 100) (s : State), Reaches s m (Reg.TRK_CTRL k)) := by
  let m : Msg := ⟨0, 95, 0, 63, 7⟩
  exact ⟨⟨99, setCore (regs [(Reg.TRK_STATUS 99, Reg.TRK_STATUS_STATE, 1)]) 99 { Core.init with pend := 2 ^ 8 }, 8, by decide +kernel⟩,
    ⟨99, State.reset, by decide +kernel⟩,
    ⟨99, 3, running 99 (fun c => { c with tcmp := [(3, 1)] }), 0, by decide +kernel⟩,
    ⟨0, at_ 100000 (running 0 id fabric), by decide +kernel⟩,
    ⟨99, running 99, by decide +kernel⟩,
    ⟨0, 2, fabric, by decide +kernel⟩,
    ⟨99, 4, running 99 (fun c => { c with cmode := true }), by decide +kernel⟩,
    ⟨cores (fun t => { t with migrate := [(95, 0)] }) (regs [(Reg.TRK_STATUS 99, Reg.TRK_STATUS_SPARE, 1)]), 95, 0, 99, [],
      by decide +kernel⟩,
    ⟨cores (fun t => { t with migrate := [(95, 0)] }), 95, 0, [], by decide +kernel⟩,
    ⟨cores (fun t => { t with moving := some (95, 99, 0) }), 95, 99, 0, by decide +kernel⟩,
    ⟨cores (fun t => { t with msgs := [m] }) fabric, m, [], 0, by decide +kernel, by decide +kernel, by decide +kernel, none_all
      (by decide +kernel)⟩,
    ⟨cores (fun t => { t with msgs := [{ m with tile := 94 }] }) fabric, { m with tile := 94 }, [], by decide +kernel, Or.inl
      (by decide +kernel)⟩,
    ⟨0, running 0 (fun c => { c with stage := some (9, 5, 0) }) fabric, 9, 5, 0, by decide +kernel⟩,
    ⟨.hostA, 99, State.reset, by unfold Reaches; decide +kernel⟩⟩

/-- Cell 0 as the hold path works on it: bytes of its record and what the kernel keeps for it. -/
def held (rec_ : List (Nat × Nat)) (x : HCell := HCell.init) (s : State := fabric) : State :=
  let s1 := rec_.foldl (fun s b => dput s 0 (0x800 + b.1) 1 b.2) s
  { s1 with hold := { s1.hold with cells := [(0, x)] } }

/-- A byte that the memory does not list reads 0. -/
theorem rb_unlisted {a : Nat} : ∀ {m : Tab Byte}, (∀ e ∈ m, e.1 ≠ a) → rb m a = 0
  | [], _ => rfl
  | (b, x) :: m, h => by
    have := h (b, x) (by simp)
    have ih := rb_unlisted (m := m) (fun e he => h e (by simp [he]))
    unfold rb tget at *
    rw [tfind, if_neg this]
    exact ih

/-- The fabric map of a state lists nothing of a cell but cell 0: what the scans over all the cells then give. -/
def Alone (s : State) : Prop := (∀ e ∈ s.mem, e.1 < 0xE00060 ∨ 0xE40000 ≤ e.1) ∧ g32 (fm s) 0x14 = 0x40

theorem Alone.absent {s : State} (h : Alone s) {i : Nat} (h0 : 0 < i) (hi : i < 6144) : cellPresent (fm s) i = false := by
  have z : ∀ k < 2, fm s (cellAt (fm s) i + k) = 0 := fun k hk => rb_unlisted (fun e he => by
    have := h.1 e he; unfold cellAt; rw [h.2]; omega)
  unfold cellPresent cellFlags g16
  rw [z 1 (by decide), show fm s (cellAt (fm s) i) = 0 from z 0 (by decide)]
  rfl

theorem foldl_first {α : Type} {f : α → Nat → α} {z : α} {n : Nat} (h : ∀ t i, 0 < i → i < n → f t i = t) (n0 : 0 < n) :
    (List.range n).foldl f z = f z 0 := by
  obtain ⟨k, rfl⟩ : ∃ k, n = k + 1 := ⟨n - 1, by omega⟩
  clear n0
  induction k with
  | zero => rfl
  | succ k ih =>
    rw [List.range_succ, List.foldl_append, ih (fun t i a b => h t i a (by omega))]
    exact h _ _ (by omega) (by omega)

theorem flatMap_first {α : Type} {f : Nat → List α} {n : Nat} (h : ∀ i, 0 < i → i < n → f i = []) (n0 : 0 < n) :
    (List.range n).flatMap f = f 0 := by
  obtain ⟨k, rfl⟩ : ∃ k, n = k + 1 := ⟨n - 1, by omega⟩
  rw [List.range_succ_eq_map, List.flatMap_cons, List.flatMap_eq_nil_iff.2, List.append_nil]
  simp only [List.mem_map, List.mem_range]
  rintro _ ⟨i, hi, rfl⟩
  exact h _ (by omega) (by omega)

theorem Alone.victims {s : State} (h : Alone s) (c : Nat) : victimsOf s c = if cellPresent (fm s) 0 then
    ((List.range (cellCplN (fm s) 0)).filter (fun j => decide (cplAggr (fm s) (cellCplFirst (fm s) 0 + j) = c))).map (fun j => (0, j))
    else [] := flatMap_first (fun i h0 hi => by rw [if_neg]; simp [h.absent h0 hi]) (by decide)

theorem ag_cells {n x i y k : Nat} (h : i < n) :
    ag (aset (Array.replicate n x) i y) k = if k = i then y else if k < n then x else 0 := by
  unfold ag aset
  rw [Array.getD_eq_getD_getElem?, Array.getElem?_setIfInBounds, Array.size_replicate, Array.getElem?_replicate]
  by_cases e : k = i
  · subst e; rw [if_pos rfl, if_pos h, if_pos rfl]; rfl
  · rw [if_neg (Ne.symm e), if_neg e]; split <;> rfl

/-- A table filled from the cells present: only cell 0 counts. -/
theorem Alone.fill {α : Type} {s : State} (h : Alone s) (f : α → Nat → α) (z : α) :
    (List.range 6144).foldl (fun t i => if cellPresent (fm s) i = true then f t i else t) z =
      if cellPresent (fm s) 0 = true then f z 0 else z :=
  foldl_first (fun t i h0 hi => by rw [if_neg]; simp [h.absent h0 hi]) (by decide)

theorem ag_blank (n k : Nat) : ag (Array.replicate n 0) k = 0 := by
  unfold ag; rw [Array.getD_eq_getD_getElem?, Array.getElem?_replicate]; split <;> rfl
theorem ag_set_blank {n i k : Nat} (h : i < n) : ag (aset (Array.replicate n 0) i 0) k = 0 := by
  rw [ag_cells h]; split <;> [rfl; split <;> rfl]
theorem Alone.raw {s : State} (h : Alone s) {v : BitVec 12288} (p : posKey (cellStage (fm s) 0) (cellRow (fm s) 0) = 0)
    (e : stateOf v 0 % 2 = 0) (k : Nat) : ag (rawOf (fm s) v) k = 0 := by
  have z : rawOf (fm s) v = if cellPresent (fm s) 0 = true then aset noStates 0 0 else noStates := by
    unfold rawOf; rw [h.fill, p, e]
  rw [z]; split
  · exact ag_set_blank (by decide)
  · exact ag_blank _ _

theorem Alone.pos {s : State} (h : Alone s) (c : cellPresent (fm s) 0 = true) (p : posKey (cellStage (fm s) 0) (cellRow (fm s) 0) = 0)
    (k : Nat) : ag (posTab (fm s)) k = if k = 0 then 0 else if k < 512 * 128 then none16 else 0 := by
  unfold posTab
  rw [h.fill, if_pos c, p, ag_cells (by decide)]

theorem traceBenes_bar (topo n off : Nat) {st : Array Nat} (h : ∀ k, ag st k = 0) :
    ∀ f s x, traceBenes topo n off st f s x = traceBenes topo n off #[] f s x
  | 0, _, _ => rfl
  | f + 1, s, x => by
    have z : ∀ k, ag #[] k = 0 := fun _ => rfl
    simp only [traceBenes, h, z, traceBenes_bar topo n off h f]

/-- The lines of a Beneš fabric in which only the cell at stage 0, row 0 exists, in BAR. -/
theorem Alone.lines {s : State} (h : Alone s) (c : cellPresent (fm s) 0 = true) (t : mapTopo (fm s) = 0)
    (p : posKey (cellStage (fm s) 0) (cellRow (fm s) 0) = 0) {v : BitVec 12288} (e : stateOf v 0 % 2 = 0) :
    linePaths s v = (List.range (mapPorts (fm s))).map (fun x => (x, (traceLine 0 (log2n (mapPorts (fm s))) (mapPorts (fm s)) #[] x).1.map
      (fun q => (if q.1 = 0 then 0 else if q.1 < 512 * 128 then none16 else 0, q.2.1, q.2.2)))) := by
  unfold linePaths traceLine
  simp only [t, if_true, traceBenes_bar _ _ _ (h.raw p e), h.pos c p]

theorem Alone.no_victims {s : State} (h : Alone s) (n : cellCplN (fm s) 0 = 0) (c : Nat) : victimsOf s c = [] := by
  rw [h.victims, n]; split <;> rfl

theorem Alone.fits {s : State} (h : Alone s) (n : cellCplN (fm s) 0 = 0) (i : Nat) (r : Nat → Nat) (a b : Int) :
    stepFits s i r a b = true := by
  have e : stepVictims s i = [] := by simp [stepVictims, h.no_victims n]
  unfold stepFits; rw [e]; rfl

/-- A lit cell 0 in HOLD, with an exit on its weak output. -/
def lit : State := rput (mset (held [(2, 4), (3, 0x20)]) 0x931000 4 100) (Reg.MON_EXIT 0 0) 1 true

/-- The same when its hold wake has seen both outputs. -/
def litSeen : State := seeOuts (countWake (snapParams lit 0) 0) 0 400000 400000

theorem lit_error : measureCell litSeen 0 = { out := 0, ps := 79228162514264337593543950336000000, pw := 0, err := 16384 } := by
  unfold measureCell
  rw [Alone.lines (by unfold Alone; decide +kernel) (by decide +kernel) (by decide +kernel) (by decide +kernel) (by decide +kernel)]
  decide +kernel

theorem lit_unbalanced : balanced litSeen 0 (measureCell litSeen 0) = false := by rw [lit_error]; decide +kernel

theorem lit_beyond : bandOf litSeen 0 < (1 * (measureCell litSeen 0).err - setPoint litSeen 0 : Int).natAbs := by
  rw [lit_error]; decide +kernel

/-- Cell 0 dark with a wrap pending. -/
def wrapping : State := held [(2, 1), (3, 4)]

theorem wrapping_can : wrapCan wrapping 0 = true := by
  unfold wrapCan; rw [Alone.fits (by unfold Alone; decide +kernel) (by decide +kernel)]; decide +kernel

theorem wit_HoldWakesAct :
    (∃ (T : Fin 96) (c : Fin 64) (s : State), exitDue s (64 * T.val + c.val) = true ∧ kernelBusy s T 2 = false ∧ modeOf s (64 * T.val +
      c.val) = 1) ∧
    (∃ (T : Fin 96) (c : Fin 64) (c0 c1 : Nat) (s : State) (w : Instr), ((w = .holdWake T c c0 c1 ∧ exitDue s (64 * T.val + c.val) = true ∧
      kernelBusy s T 2 = false ∧ 3 ≤ modeOf s (64 * T.val + c.val) ∧ modeOf s (64 * T.val + c.val) ≤ 5) ∨ (w = .settle T c c0 c1 ∧ holdable
      s (64 * T.val + c.val) = true ∧ dueAt s (hcell s (64 * T.val + c.val)).settleAt = true ∧ kernelBusy s T 3 = false)) ∧ lightNow
      (seeOuts (countWake (snapParams s T) (64 * T.val + c.val)) (64 * T.val + c.val) c0 c1) (64 * T.val + c.val) < absentPA (seeOuts
      (countWake (snapParams s T) (64 * T.val + c.val)) (64 * T.val + c.val) c0 c1) T * one) ∧
    (∃ (T : Fin 96) (c : Fin 64) (c0 c1 : Nat) (s : State) (w : Instr) (sg : Int) (k : Nat), ((w = .holdWake T c c0 c1 ∧ exitDue s (64 *
      T.val + c.val) = true ∧ kernelBusy s T 2 = false ∧ 3 ≤ modeOf s (64 * T.val + c.val) ∧ modeOf s (64 * T.val + c.val) ≤ 5) ∨ (w =
      .settle T c c0 c1 ∧ holdable s (64 * T.val + c.val) = true ∧ dueAt s (hcell s (64 * T.val + c.val)).settleAt = true ∧ kernelBusy s T
      3 = false)) ∧ absentPA (seeOuts (countWake (snapParams s T) (64 * T.val + c.val)) (64 * T.val + c.val) c0 c1) T * one ≤ lightNow
      (seeOuts (countWake (snapParams s T) (64 * T.val + c.val)) (64 * T.val + c.val) c0 c1) (64 * T.val + c.val) ∧ balanced (seeOuts
      (countWake (snapParams s T) (64 * T.val + c.val)) (64 * T.val + c.val) c0 c1) T (measureCell (seeOuts (countWake (snapParams s T) (64
      * T.val + c.val)) (64 * T.val + c.val) c0 c1) (64 * T.val + c.val)) = false ∧ knownSign (seeOuts (countWake (snapParams s T) (64 *
      T.val + c.val)) (64 * T.val + c.val) c0 c1) (64 * T.val + c.val) = some sg ∧ bandOf (seeOuts (countWake (snapParams s T) (64 * T.val
      + c.val)) (64 * T.val + c.val) c0 c1) (64 * T.val + c.val) < (sg * (measureCell (seeOuts (countWake (snapParams s T) (64 * T.val +
      c.val)) (64 * T.val + c.val) c0 c1) (64 * T.val + c.val)).err - setPoint (seeOuts (countWake (snapParams s T) (64 * T.val + c.val))
      (64 * T.val + c.val) c0 c1) (64 * T.val + c.val)).natAbs ∧ coreFor (seeOuts (countWake (snapParams s T) (64 * T.val + c.val)) (64 *
      T.val + c.val) c0 c1) T = some k ∧ hooksOn (seeOuts (countWake (snapParams s T) (64 * T.val + c.val)) (64 * T.val + c.val) c0 c1) k =
      false) ∧
    (∃ (T : Fin 96) (c : Fin 64) (s : State) (d : _) (w : _) (du : _), (hcell s (64 * T.val + c.val)).signAt = some (d, w, du) ∧ d ≤ s.up ∧
      holdable s (64 * T.val + c.val) = true ∧ kernelBusy s T 3 = false) ∧
    (∃ (T : Fin 96) (c : Fin 64) (s : State) (d : _) (w : _) (e : _), (hcell s (64 * T.val + c.val)).probeAt = some (d, w, e) ∧ d ≤ s.up ∧
      holdable s (64 * T.val + c.val) = true ∧ kernelBusy s T 3 = false) ∧
    (∃ (T : Fin 96) (c : Fin 64) (s : State) (d : _) (e : _), (hcell s (64 * T.val + c.val)).recAt = some (d, e) ∧ d ≤ s.up ∧ holdable s
      (64 * T.val + c.val) = true ∧ kernelBusy s T 3 = false) ∧
    (∃ (T : Fin 96) (c : Fin 64) (s : State) (x : _), (hcell s (64 * T.val + c.val)).arrFrom = some x ∧ (hcell s (64 * T.val +
      c.val)).arrAt ≤ s.up ∧ (hcell s (64 * T.val + c.val)).probeAt = none ∧ modeOf s (64 * T.val + c.val) = 2 ∧ holdable s (64 * T.val +
      c.val) = true ∧ kernelBusy s T 3 = false) ∧
    (∃ (T : Fin 96) (c : Fin 64) (s : State) (f : _), (hcell s (64 * T.val + c.val)).arrFrom = some f ∧ modeOf s (64 * T.val + c.val) = 2 ∧
      f + 1000 * par s T 0x18 2 ≤ s.up ∧ holdable s (64 * T.val + c.val) = true ∧ kernelBusy s T 3 = false) ∧
    (∃ (T : Fin 96) (c : Fin 64) (s : State), (exitDue s (64 * T.val + c.val) = false ∨ kernelBusy s T 2 = true)) ∧
    (∃ (T : Fin 96) (c : Fin 64) (s : State), (holdable s (64 * T.val + c.val) = false ∨ kernelBusy s T 3 = true)) :=
  ⟨⟨0, 0, rput (held [(2, 1)]) (Reg.MON_EXIT 0 0) 0 true, by decide +kernel⟩,
    ⟨0, 0, 0, 0, rput (held [(2, 5)]) (Reg.MON_EXIT 0 0) 1 true, .holdWake 0 0 0 0, Or.inl ⟨rfl, by decide +kernel⟩, by decide +kernel⟩,
    ⟨0, 0, 400000, 400000, lit, .holdWake 0 0 400000 400000, 1, 0, Or.inl ⟨rfl, by decide +kernel⟩, by decide +kernel, lit_unbalanced,
      by decide +kernel, lit_beyond, by decide +kernel, by decide +kernel⟩,
    ⟨0, 0, held [] { HCell.init with signAt := some (0, 0, -1) }, 0, 0, -1, by decide +kernel⟩,
    ⟨0, 0, held [(2, 2)] { HCell.init with probeAt := some (0, 0, 0) }, 0, 0, 0, by decide +kernel⟩,
    ⟨0, 0, held [] { HCell.init with recAt := some (0, 0) }, 0, 0, by decide +kernel⟩,
    ⟨0, 0, held [(2, 2)] { HCell.init with arrFrom := some 0 }, 0, by decide +kernel⟩,
    ⟨0, 0, held [(2, 2)] { HCell.init with arrFrom := some 0 }, 0, by decide +kernel⟩,
    ⟨95, 63, State.reset, by decide +kernel⟩,
    ⟨95, 63, State.reset, by decide +kernel⟩⟩

theorem wit_TileWakesAct :
    (∃ (T : Fin 96) (c : Fin 64) (s : State), holdable s (64 * T.val + c.val) = true ∧ kernelBusy s T 3 = false ∧ modeOf s (64 * T.val +
      c.val) = 3 ∧ dueAt s (hcell s (64 * T.val + c.val)).rampAt = true) ∧
    (∃ (T : Fin 96) (c : Fin 64) (s : State), holdable s (64 * T.val + c.val) = true ∧ modeBit s (64 * T.val + c.val) 4 = true ∧ kernelBusy
      s T 3 = false) ∧
    (∃ (T : Fin 96) (c : Fin 64) (s : State), wrapCan s (64 * T.val + c.val) = true ∧ wrapsIn s T < 4 ∧ kernelBusy s T 3 = false ∧ (∀ x <
      64, 64 * T.val + x ≠ (64 * T.val + c.val) → wrapCan s (64 * T + x) = true → (uOf s (64 * T + x)).natAbs < (uOf s (64 * T.val +
      c.val)).natAbs ∨ ((uOf s (64 * T + x)).natAbs = (uOf s (64 * T.val + c.val)).natAbs ∧ (64 * T.val + c.val) < 64 * T.val + x))) ∧
    (∃ (T : Fin 96) (c : Fin 64) (s : State), modeBit s (64 * T.val + c.val) 4 = false ∧ wrapCan s (64 * T.val + c.val) = false) ∧
    (∃ (T : Fin 96) (s : State) (k cell du : Nat) (rest : List (Nat × Nat)), coreFor s T = some k ∧ (coreOf s k).fifo = (cell, du) :: rest
      ∧ kernelBusy s T 4 = false) ∧
    (∃ (T : Fin 96) (s : State) (k : Nat), coreFor s T = some k ∧ kernelBusy s T 8 = false ∧ dget s k 0x700 4 ≠ par s T 0 4) :=
  ⟨⟨0, 0, held [(2, 3), (5, 0x80), (6, 2)] { HCell.init with rampAt := some 0 }, by decide +kernel⟩,
    ⟨0, 0, held [(2, 0x10)], by decide +kernel⟩,
    ⟨0, 0, wrapping, wrapping_can, by decide +kernel, by decide +kernel, by decide +kernel⟩,
    ⟨95, 63, State.reset, by decide +kernel⟩,
    ⟨0, setCore fabric 0 { Core.init with fifo := [(63, 9)] }, 0, 63, 9, [], by decide +kernel⟩,
    ⟨0, dput fabric 0 0x703 1 1, 0, by decide +kernel⟩⟩

/-- The calibration side of a state changed. -/
def cals (f : Cal → Cal) (s : State := State.reset) : State := { s with cal := f s.cal }

/-- A circuit from west port 0 across cell 0 inside a begun span, sweeps enabled. -/
def recessed : State :=
  let s := regs [(Reg.CAL_CTRL, Reg.CAL_CTRL_SWEEP_EN, 1)] fabric
  { s with bel := { s.bel with forceChart := 2 ^ 15, openSpans := [(0, ⟨0, 1, 0, 1000000000, true, false⟩)] } }

/-- The recess of cell 0 in it, as a sweep's start finds it. -/
theorem recessed_way : sweepWay (snapParams recessed 0) 0 = some none := by
  have a : Alone (snapParams recessed 0) := by unfold Alone; decide +kernel
  have c : circuitsThrough (snapParams recessed 0) (forceVec (snapParams recessed 0)) (snapParams recessed 0).bel.forceChart 0 = [0] := by
    unfold circuitsThrough
    rw [a.lines (by decide +kernel) (by decide +kernel) (by decide +kernel) (by decide +kernel)]
    decide +kernel
  have r : inRecess (snapParams recessed 0) 0 (spanTime (snapParams recessed 0)) = true := by unfold inRecess; rw [c]; decide +kernel
  have f : sweepFits (snapParams recessed 0) 0 (b2n (decide (driveU (snapParams recessed 0) 0 < 0))) = true := by
    unfold sweepFits; simp [a.fits (by decide +kernel)]
  have w : ((List.range 64).any (fun c => wrapCan (snapParams recessed 0) (64 * (0 / 64) + c) ||
      modeBit (snapParams recessed 0) (64 * (0 / 64) + c) 4)) = false := by decide +kernel
  unfold sweepWay; rw [f, r, w]; decide +kernel

/-- A sweep at a point whose dwell has ended. -/
def aSweep (point : Nat) : Sweep := ⟨0, 0, point, [], 0, none, [], 0, [], none, 0, 0, 0, false, [], []⟩

theorem wit_CalibrationAdvances :
    (∃ (T : Fin 96) (s : State) (r : Nat × Int), tfind s.cal.rounds T = some r ∧ kernelBusy s T 7 = false ∧ (picTemp s T - r.2).natAbs ≤
      10) ∧
    (∃ (T : Fin 96) (s : State) (r : Nat × Int), tfind s.cal.rounds T = some r ∧ kernelBusy s T 7 = false ∧ 10 < (picTemp s T -
      r.2).natAbs) ∧
    (∃ (T : Fin 96) (s : State), (tfind s.cal.rounds T = none ∨ kernelBusy s T 7 = true)) ∧
    (∃ (T : Fin 96) (s : State) (r : Nat × Int), tfind s.cal.rounds T = some r ∧ dieShut s = false ∧ (∀ c < 64, roundWaits s (64 * T + c)
      r.1 = false)) ∧
    (∃ (T : Fin 96) (s : State), (dieShut s = true ∨ tfind s.cal.rounds T = none ∨ ∃ r, tfind s.cal.rounds T = some r ∧ ∃ c < 64,
      roundWaits s (64 * T + c) r.1 = true)) ∧
    (∃ (T : Fin 96) (c : Fin 64) (s : State) (way : Option (Nat × List (Nat × Nat))), kernelBusy s T 7 = false ∧ sweepsAllowed s = true ∧
      fget s Reg.CAL_CTRL Reg.CAL_CTRL_SWEEP_EN = 1 ∧ sweepsIn s T < sweepPar s ∧ sweepFirst (snapParams s T) (64 * T.val + c.val) = true ∧
      sweepWay (snapParams s T) (64 * T.val + c.val) = some way) ∧
    (∃ (T : Fin 96) (c : Fin 64) (s : State), (sweepsAllowed s = false ∨ fget s Reg.CAL_CTRL Reg.CAL_CTRL_SWEEP_EN ≠ 1 ∨ sweepPar s ≤
      sweepsIn s T ∨ sweepFirst (snapParams s T) (64 * T.val + c.val) = false ∨ sweepWay (snapParams s T) (64 * T.val + c.val) = none)) ∧
    (∃ (T : Fin 96) (c : Fin 64) (s : State) (d : Nat), tfind s.cal.waits (64 * T + c) = some d ∧ d ≤ s.up) ∧
    (∃ (T : Fin 96) (c : Fin 64) (s : State), (∀ d, tfind s.cal.waits (64 * T + c) = some d → s.up < d)) ∧
    (∃ (T : Fin 96) (c : Fin 64) (s : State) (w : Sweep), tfind s.cal.sweeps (64 * T + c) = some w ∧ w.due ≤ s.up ∧ kernelBusy s T 7 =
      false) ∧
    (∃ (T : Fin 96) (c : Fin 64) (s : State), ((∀ w, tfind s.cal.sweeps (64 * T + c) = some w → s.up < w.due) ∨ kernelBusy s T 7 = true)) ∧
    (∃ (s : State), calOn s = true ∧ s.cal.ready ≠ [] ∧ (∀ T ∈ s.cal.ready, T < 96) ∧ (∀ x, s.cal.lastSwap = some x → x + 10000 * fget s
      Reg.CAL_TRIG Reg.CAL_TRIG_SWAP_INT ≤ s.up)) ∧
    (∃ (s : State), (calOn s = false ∨ s.cal.ready = [] ∨ ∃ x, s.cal.lastSwap = some x ∧ s.up < x + 10000 * fget s Reg.CAL_TRIG
      Reg.CAL_TRIG_SWAP_INT)) := by
  let s3 : State := cals (fun c => { c with rounds := [(0, (0, 0))] }) (held [(2, 4), (3, 0x20)])
  let s4 : State := cals (fun c => { c with ready := [95] }) (regs [(Reg.CAL_CTRL, Reg.CAL_CTRL_EN, 1)])
  exact ⟨⟨0, cals (fun c => { c with rounds := [(0, (0, picTemp State.reset 0 - 10))] }) fabric, _, rfl, by decide +kernel⟩,
    ⟨0, cals (fun c => { c with rounds := [(0, (0, picTemp State.reset 0 - 11))] }) fabric, _, rfl, by decide +kernel⟩,
    ⟨95, State.reset, by decide +kernel⟩,
    ⟨95, cals (fun c => { c with rounds := [(95, (0, 0))] }), (0, 0), by decide +kernel⟩,
    ⟨0, s3, Or.inr (Or.inr ⟨(0, 0), rfl, by decide +kernel⟩)⟩,
    ⟨0, 0, recessed, none, by decide +kernel, by decide +kernel, by decide +kernel, by decide +kernel, by decide +kernel, recessed_way⟩,
    ⟨95, 63, State.reset, by decide +kernel⟩,
    ⟨95, 63, cals (fun c => { c with waits := [(6143, 0)] }), 0, by decide +kernel⟩,
    ⟨95, 63, State.reset, none_all (by decide +kernel)⟩,
    ⟨0, 63, cals (fun c => { c with sweeps := [(63, aSweep 9)] }) fabric, aSweep 9, by decide +kernel⟩,
    ⟨95, 63, State.reset, Or.inl (none_all (by decide +kernel))⟩,
    ⟨s4, by decide +kernel, by decide +kernel, by decide +kernel, none_all (by decide +kernel)⟩,
    ⟨State.reset, Or.inr (Or.inl (by decide +kernel))⟩⟩
/-! ## Witnesses: power, time, networks -/

/-- The power side of a state changed. -/
def pwrs (f : Pwr → Pwr) (s : State := State.reset) : State := { s with pwr := f s.pwr }

theorem wit_RailsFollowTheirCommands :
    (∃ (m : Master) (k : Fin 5) (s : State), Reaches s m (Reg.PWR_RAIL_CFG k)) ∧
    (∃ (m : Master) (k : Fin 5) (v : BitVec 32) (s : State), Reaches s m (Reg.PWR_RAIL_CMD k) ∧ v.toNat % 2 = 1 ∧ railFailed s k = true) ∧
    (∃ (m : Master) (k : Fin 5) (v : BitVec 32) (s : State), Reaches s m (Reg.PWR_RAIL_CMD k) ∧ (v.toNat % 2 = 0 ∨ railFailed s k = false)) ∧
    (∃ (k : Fin 5) (s : State) (x : Nat), railFailed s k = false ∧ (railOf s k).outAt = some x ∧ x + 100000 ≤ s.up ∧ railJudged s k = true) ∧
    (∃ (k : Fin 5) (s : State), railFailed s k = false ∧ (railOf s k).tripDue = true) ∧
    (∃ (k : Fin 5) (s : State), ((∀ x, (railOf s k).outAt = some x → s.up < x + 100000) ∨ railJudged s k = false)) ∧
    (∃ (k : Fin 5) (s : State), ((railOf s k).tripDue = false ∨ railFailed s k = true)) ∧
    (∃ (m : Master) (k : Fin 4) (s : State), Reaches s m (Reg.PWR_RAIL_TGT k)) ∧
    (∃ (k : Fin 4) (s : State) (x : Nat), (railOf s k).fallAt = some x ∧ x ≤ s.up ∧ railLive s k = true) ∧
    (∃ (k : Fin 4) (s : State), ((∀ x, (railOf s k).fallAt = some x → s.up < x) ∨ railLive s k = false)) ∧
    (∃ (s : State) (x : Nat), s.pwr.shutAt = some x ∧ x + 1000000 ≤ s.up) ∧
    (∃ (s : State), (∀ x, s.pwr.shutAt = some x → s.up < x + 1000000)) := by
  let on (k : Nat) (s : State) : State := regs [(Reg.PWR_RAIL_CFG k, Reg.PWR_RAIL_CFG_EN, 1)] s
  exact ⟨⟨.hostA, 4, State.reset, by unfold Reaches; decide +kernel⟩,
    ⟨.hostA, 4, 1, on 4 (rput State.reset Reg.PWR_STATUS 12 true), by unfold Reaches; decide +kernel⟩,
    ⟨.hostA, 4, 1, State.reset, by unfold Reaches; decide +kernel⟩,
    ⟨4, on 4 (at_ 100000 (pwrs (fun p => { p with rails := [(4, { Rail.init with outAt := some 0 })] }))), 0, by decide +kernel⟩,
    ⟨4, pwrs (fun p => { p with rails := [(4, { Rail.init with tripDue := true })] }), by decide +kernel⟩,
    ⟨4, State.reset, Or.inl (none_all (by decide +kernel))⟩,
    ⟨4, State.reset, by decide +kernel⟩,
    ⟨.hostA, 3, State.reset, by unfold Reaches; decide +kernel⟩,
    ⟨3, on 3 (pwrs (fun p => { p with rails := [(3, { Rail.init with fallAt := some 0 })] })), 0, by decide +kernel⟩,
    ⟨3, State.reset, Or.inl (none_all (by decide +kernel))⟩,
    ⟨at_ 1000000 (pwrs (fun p => { p with shutAt := some 0 })), 0, by decide +kernel⟩,
    ⟨State.reset, none_all (by decide +kernel)⟩⟩

theorem wit_PwmChannelsAndBrokerLimits :
    (∃ (n : Fin 24) (s : State), perNow s n + 1 ≤ pwmCount s n ∧ pwmRail s n = 7 ∧ (pwmOf s n).rail = 7) ∧
    (∃ (n : Fin 24) (s : State), pwmCount s n < perNow s n + 1) ∧
    (∃ (m : Master) (n : Fin 24) (s : State), Reaches s m (Reg.PWR_PWM_PER n) ∧ pwmRail s n = 7) ∧
    (∃ (m : Master) (n : Fin 24) (s : State), Reaches s m (Reg.PWR_PWM_CMP n) ∧ pwmRail s n = 7) ∧
    (∃ (m : Master) (n : Fin 24) (s : State), pwmRail s n < 5 ∧ Reaches s m (Reg.PWR_PWM_PER n)) ∧
    (∃ (m : Master) (n : Fin 24) (s : State), pwmRail s n < 5 ∧ Reaches s m (Reg.PWR_PWM_CMP n)) ∧
    (∃ (m : Master) (n : Fin 24) (v : BitVec 32) (s : State), Reaches s m (Reg.PWR_PWM_COMMIT n) ∧ pwmRail s n = 7 ∧ v.toNat % 2 = 1) ∧
    (∃ (m : Master) (n : Fin 24) (v : BitVec 32) (s : State), Reaches s m (Reg.PWR_PWM_COMMIT n) ∧ (v.toNat % 2 = 0 ∨ pwmRail s n < 5)) ∧
    (∃ (m : Master) (r : LimitReg) (s : State), Reaches s m (limitReg r)) :=
  ⟨⟨23, at_ 1000 (regs [(Reg.PWR_PWM_CTRL 23, Reg.PWR_PWM_CTRL_RAIL, 7)]), by decide +kernel⟩,
    ⟨23, State.reset, by decide +kernel⟩,
    ⟨.hostA, 23, regs [(Reg.PWR_PWM_CTRL 23, Reg.PWR_PWM_CTRL_RAIL, 7)], by unfold Reaches; decide +kernel⟩,
    ⟨.hostA, 23, regs [(Reg.PWR_PWM_CTRL 23, Reg.PWR_PWM_CTRL_RAIL, 7)], by unfold Reaches; decide +kernel⟩,
    ⟨.hostA, 23, regs [(Reg.PWR_PWM_CTRL 23, Reg.PWR_PWM_CTRL_RAIL, 4)], by unfold Reaches; decide +kernel⟩,
    ⟨.hostA, 23, regs [(Reg.PWR_PWM_CTRL 23, Reg.PWR_PWM_CTRL_RAIL, 4)], by unfold Reaches; decide +kernel⟩,
    ⟨.hostA, 23, 1, regs [(Reg.PWR_PWM_CTRL 23, Reg.PWR_PWM_CTRL_RAIL, 7)], by unfold Reaches; decide +kernel⟩,
    ⟨.hostA, 23, 0, regs [(Reg.PWR_PWM_CTRL 23, Reg.PWR_PWM_CTRL_RAIL, 7)], by unfold Reaches; decide +kernel⟩,
    ⟨.hostA, .stand, State.reset, by unfold Reaches; decide +kernel⟩⟩

/-- The time unit's side of a state changed, with fields of TMU_STATUS. -/
def tmus (l : List (Fld × Nat)) (f : Tmu → Tmu := id) (s : State := State.reset) : State :=
  let s1 := regs (l.map (fun x => (Reg.TMU_STATUS, x.1, x.2))) s
  { s1 with tmu := f s1.tmu }

theorem wit_TimeUnitCommandsAct :
    (∃ (m : Master) (v : BitVec 32) (s : State), Reaches s m Reg.TMU_CMD ∧ bit v.toNat 0 = true) ∧
    (∃ (m : Master) (v : BitVec 32) (s : State), Reaches s m Reg.TMU_CMD ∧ bit v.toNat 1 = true) ∧
    (∃ (m : Master) (v : BitVec 32) (s : State), Reaches s m Reg.TMU_CMD ∧ v.toNat % 32 = 0) ∧
    (∃ (s : State), servo s = 2 ∧ timetableEmpty s = true ∧ 8 ≤ s.tmu.smps.length) ∧
    (∃ (s : State), (servo s ≠ 2 ∨ timetableEmpty s = false ∨ s.tmu.smps.length < 8)) ∧
    (∃ (m : Master) (v : BitVec 32) (s : State), Reaches s m Reg.TMU_CMD ∧ bit v.toNat 2 = true ∧ bit v.toNat 4 = false) ∧
    (∃ (m : Master) (v : BitVec 32) (s : State), Reaches s m Reg.TMU_CMD ∧ bit v.toNat 3 = true) ∧
    (∃ (m : Master) (v : BitVec 32) (s : State), Reaches s m Reg.TMU_CMD ∧ bit v.toNat 4 = true ∧ rget s Reg.TMU_RC_PERIOD ≠ 0) ∧
    (∃ (m : Master) (v : BitVec 32) (s : State), Reaches s m Reg.TMU_CMD ∧ bit v.toNat 4 = true ∧ bit v.toNat 2 = false ∧ rget s
      Reg.TMU_RC_PERIOD = 0) :=
  ⟨⟨.hostA, 1, State.reset, by unfold Reaches; decide +kernel⟩,
    ⟨.hostA, 2, State.reset, by unfold Reaches; decide +kernel⟩,
    ⟨.hostA, 32, State.reset, by unfold Reaches; decide +kernel⟩,
    ⟨tmus [(Reg.TMU_STATUS_SERVO, 2)] (fun t => { t with smps := List.replicate 8 5 }), by decide +kernel⟩,
    ⟨State.reset, by decide +kernel⟩,
    ⟨.hostA, 4, State.reset, by unfold Reaches; decide +kernel⟩,
    ⟨.hostA, 8, State.reset, by unfold Reaches; decide +kernel⟩,
    ⟨.hostA, 16, rset State.reset Reg.TMU_RC_PERIOD 500, by unfold Reaches; decide +kernel⟩,
    ⟨.hostA, 16, State.reset, by unfold Reaches; decide +kernel⟩⟩

theorem wit_RollCallsCopyEveryCounter :
    (∃ (s : State) (e c : Nat), rollDue s = some (e, c) ∧ e ≤ nowNs s) ∧
    (∃ (s : State), (∀ e c, rollDue s = some (e, c) → nowNs s < e)) ∧
    (∃ (s : State), s.tmu.rcHdr = none) ∧
    (∃ (s : State) (e c : Nat), s.tmu.rcHdr = some (e, c)) :=
  ⟨⟨at_ 100 (tmus [] (fun t => { t with rcAt := some (100, false) })), 100, 1, by decide +kernel⟩,
    ⟨State.reset, fun e c => none_all (P := fun x => nowNs State.reset < x.1) (by decide +kernel) (e, c)⟩,
    ⟨State.reset, by decide +kernel⟩,
    ⟨tmus [] (fun t => { t with rcHdr := some (40, 3) }), 40, 3, by decide +kernel⟩⟩

/-- An Ethernet port with its link up and PTP on in a state. -/
def eth3 (st : Nat) (x : EPort := EPort.init) (s : State := State.reset) : State :=
  { (regs [(Reg.ETH_CTRL 3, Reg.ETH_CTRL_EN, 1), (Reg.ETH_CTRL 3, Reg.ETH_CTRL_PTP_EN, 1), (Reg.ETH_STATUS 3, Reg.ETH_STATUS_LINK, 1),
      (Reg.ETH_STATUS 3, Reg.ETH_STATUS_LAT_VALID, 1), (Reg.ETH_STATUS 3, Reg.ETH_STATUS_PTP_STATE, st)] (powered s)) with eth := [(3, x)] }

/-- Peer delay in force on port 3. -/
def p2p (s : State) : State := { s with eth := [(3, { (eport s 3) with cfg := 0x80FCFC04 })] }

theorem wit_TimeSourcesSteerTheServo :
    (∃ (k : Fin 6) (s : State) (w : Nat × Int × Nat) (a : Nat), s.tmu.waiting.find? (fun x => decide (x.1 = k.val)) = some w ∧ srcNow s = k
      ∧ qualified s k = true ∧ s.tmu.lastAt = some a) ∧
    (∃ (s : State) (k : Nat), bestSrc s = some k ∧ srcNow s < 6 ∧ k ≠ srcNow s ∧ tget s.tmu.qualAt 0 k + 1000000000 * fget s Reg.TMU_CTRL
      Reg.TMU_CTRL_WTR ≤ s.up) ∧
    (∃ (k : Fin 6) (s : State), s.tmu.waiting.find? (fun x => decide (x.1 = k.val)) = none) ∧
    (∃ (s : State), (bestSrc s = none ∨ 6 ≤ srcNow s ∨ bestSrc s = some (srcNow s) ∨ ∃ k, bestSrc s = some k ∧ s.up < tget s.tmu.qualAt 0 k
      + 1000000000 * fget s Reg.TMU_CTRL Reg.TMU_CTRL_WTR)) ∧
    (∃ (e : Fin 4) (s : State) (a : Nat), (eport s e).syncAt = some a ∧ ptpState s e = 9 ∧ a + 3 * syncNs s e ≤ s.up) ∧
    (∃ (e : Fin 4) (s : State), ((∀ a, (eport s e).syncAt = some a → s.up < a + 3 * syncNs s e) ∨ ptpState s e ≠ 9)) :=
  ⟨⟨5, tmus [(Reg.TMU_STATUS_SRC, 5), (Reg.TMU_STATUS_QUAL, 32)] (fun t => { t with waiting := [(5, -7, 9)], lastAt := some 0 }), (5, -7,
      9), 0, by decide +kernel⟩,
    ⟨at_ (10 ^ 13) (tmus [(Reg.TMU_STATUS_SRC, 5), (Reg.TMU_STATUS_QUAL, 1)]), 0, by decide +kernel⟩,
    ⟨5, State.reset, by decide +kernel⟩,
    ⟨State.reset, Or.inl (by decide +kernel)⟩,
    ⟨3, at_ (3 * syncNs (eth3 9) 3) (eth3 9 { EPort.init with syncAt := some 0 }), 0, by decide +kernel⟩,
    ⟨3, State.reset, Or.inl (none_all (by decide +kernel))⟩⟩

theorem wit_PulsesMeetTheirInstants :
    (∃ (m : Fin 2) (s : State), fget s (Reg.TMU_PPS_CFG m) Reg.TMU_PPS_CFG_EN = 1) ∧
    (∃ (m : Fin 2) (falling : Bool) (s : State), (fget s (Reg.TMU_PPS_CFG m) Reg.TMU_PPS_CFG_EN = 0 ∨ falling ≠ decide (fget s
      (Reg.TMU_PPS_CFG m) Reg.TMU_PPS_CFG_EDGE = 1))) ∧
    (∃ (m : Fin 2) (s : State), (∀ p, tfind s.tmu.ppsAt m = some p → 65536 * nowNs s ≤ p + 65536 * 1000100000)) ∧
    (∃ (s : State), (∀ e, s.tmu.ppsEnd = some e → s.now < e) ∧ (secOf s.now = s.tmu.ppsLast ∨ s.now < ((secOf s.now * 1000000000 * q40 :
      Nat) + fineOf (rget s Reg.TMU_PPS_TRIM)).toNat)) ∧
    (∃ (n : Fin 8) (s : State), (∀ e, tfind s.tmu.bellEnd n = some e → s.now < e) ∧ (s.restart.inWindow = true ∨ ∀ b ∈ s.bel.bells,
      pulseFor s n b = false ∨ (b.t, n.val) ∈ s.tmu.pulses ∨ s.now < (pulseStart s n b).1)) ∧
    (∃ (m : Fin 2) (s : State) (p : Nat), tfind s.tmu.ppsAt m = some p ∧ p + 65536 * 1000100000 < 65536 * nowNs s) ∧
    (∃ (s : State), secOf s.now ≠ s.tmu.ppsLast ∧ (((secOf s.now * 1000000000 * q40 : Nat) + fineOf (rget s Reg.TMU_PPS_TRIM)).toNat) ≤
      s.now ∧ s.tmu.ppsEnd = none ∧ fget s Reg.TMU_PPS_OUT Reg.TMU_PPS_OUT_EN = 1 ∧ (fget s Reg.TMU_CTRL Reg.TMU_CTRL_PPS_SQUELCH = 0 ∨ 3 ≤
      servo s)) ∧
    (∃ (s : State) (e : Nat), s.tmu.ppsEnd = some e ∧ e ≤ s.now ∧ secOf s.now = s.tmu.ppsLast) ∧
    (∃ (n : Fin 8) (s : State) (b : Bell), s.restart.inWindow = false ∧ tfind s.tmu.bellEnd n = none ∧ minBy (fun b => (b.t : Int))
      (s.bel.bells.filter (fun b => pulseFor s n b && !s.tmu.pulses.contains (b.t, n.val) && decide ((pulseStart s n b).1 ≤ s.now) &&
      (b.repair || decide (s.bel.skipTo < b.t)))) = some b) ∧
    (∃ (n : Fin 8) (s : State) (e : Nat), tfind s.tmu.bellEnd n = some e ∧ e ≤ s.now ∧ s.restart.inWindow = true) :=
  ⟨⟨1, regs [(Reg.TMU_PPS_CFG 1, Reg.TMU_PPS_CFG_EN, 1)], by decide +kernel⟩,
    ⟨1, true, State.reset, by decide +kernel⟩,
    ⟨1, State.reset, none_all (by decide +kernel)⟩,
    ⟨State.reset, none_all (by decide +kernel), by decide +kernel⟩,
    ⟨7, State.reset, none_all (by decide +kernel), Or.inr (by decide +kernel)⟩,
    ⟨1, at_ 1000100001 (tmus [] (fun t => { t with ppsAt := [(1, 0)] })), 0, by decide +kernel⟩,
    ⟨at_ 1000000000 (tmus [(Reg.TMU_STATUS_SERVO, 3)] id (regs [(Reg.TMU_PPS_OUT, Reg.TMU_PPS_OUT_EN, 1)])), by decide +kernel⟩,
    ⟨tmus [] (fun t => { t with ppsEnd := some 0 }), 0, by decide +kernel⟩,
    ⟨7, belled [aBell 100] (at_ 100 (regs [(Reg.TMU_BELL_CFG 7, Reg.TMU_BELL_CFG_SEL, 1), (Reg.TMU_BELL_CFG 7, Reg.TMU_BELL_CFG_LEAD,
      0)])), aBell 100, by decide +kernel⟩,
    ⟨7, { tmus [] (fun t => { t with bellEnd := [(7, 0)] }) with restart := { State.reset.restart with inWindow := true } }, 0,
      by decide +kernel⟩⟩

theorem wit_LinksAndFirmwareAnswer :
    (∃ (e : Fin 4) (s : State), fget s (Reg.ETH_CTRL e) Reg.ETH_CTRL_EN = 1) ∧
    (∃ (e : Fin 4) (s : State), fget s (Reg.ETH_CTRL e) Reg.ETH_CTRL_EN = 0) ∧
    (∃ (e : Fin 4) (s : State), fget s (Reg.ETH_STATUS e) Reg.ETH_STATUS_LINK = 1) ∧
    (∃ (e : Fin 4) (s : State), fget s (Reg.ETH_STATUS e) Reg.ETH_STATUS_LINK = 0) ∧
    (∃ (e : Fin 4) (s : State), ethUp s e = true) ∧
    (∃ (e : Fin 4) (s : State), ethUp s e = true ∧ fwRuns s = true ∧ ptpOn s e = true) ∧
    (∃ (e : Fin 4) (s : State), ethUp s e = true ∧ (fwRuns s = false ∨ ptpOn s e = false)) ∧
    (∃ (e : Fin 4) (s : State), ethUp s e = false) ∧
    (∃ (e : Fin 4) (target : BitVec 32) (s : State), ethUp s e = true ∧ rget s (Reg.ETH_IPV4 e) = target ∧ target ≠ 0 ∧ fwRuns s = true) ∧
    (∃ (e : Fin 4) (target : BitVec 32) (s : State), ethUp s e = true ∧ (rget s (Reg.ETH_IPV4 e) ≠ target ∨ target = 0 ∨ fwRuns s = false)) ∧
    (∃ (e : Fin 4) (target : BitVec 128) (s : State), ethUp s e = true ∧ target.toNat = linkLocal (macOf s e) ∧ fwRuns s = true) ∧
    (∃ (e : Fin 4) (target : BitVec 128) (s : State), ethUp s e = true ∧ (target.toNat ≠ linkLocal (macOf s e) ∨ fwRuns s = false)) ∧
    (∃ (e : Fin 4) (s : State), ethUp s e = true ∧ fwRuns s = true ∧ fget s (Reg.ETH_CTRL e) Reg.ETH_CTRL_SYNCE_TX = 1) ∧
    (∃ (e : Fin 4) (s : State), (fwRuns s = false ∨ fget s (Reg.ETH_CTRL e) Reg.ETH_CTRL_SYNCE_TX = 0)) :=
  ⟨⟨3, eth3 1, by decide +kernel⟩,
    ⟨3, State.reset, by decide +kernel⟩,
    ⟨3, eth3 1, by decide +kernel⟩,
    ⟨3, State.reset, by decide +kernel⟩,
    ⟨3, eth3 1, by decide +kernel⟩,
    ⟨3, eth3 6, by decide +kernel⟩,
    ⟨3, { eth3 6 with boot := State.reset.boot }, by decide +kernel⟩,
    ⟨3, State.reset, by decide +kernel⟩,
    ⟨3, 7, eth3 1 EPort.init (rset State.reset (Reg.ETH_IPV4 3) 7), by decide +kernel⟩,
    ⟨3, 7, eth3 1, by decide +kernel⟩,
    ⟨3, BitVec.ofNat 128 (linkLocal (macOf (eth3 1) 3)), eth3 1, by decide +kernel⟩,
    ⟨3, 0, eth3 1, by decide +kernel⟩,
    ⟨3, eth3 1 EPort.init (regs [(Reg.ETH_CTRL 3, Reg.ETH_CTRL_SYNCE_TX, 1)]), by decide +kernel⟩,
    ⟨3, State.reset, by decide +kernel⟩⟩

/-- A message of domain 0 for this port. -/
def aMsg : PtpMsg := ⟨0, 5, false, 0, 999999999, -1, true⟩

/-- An Announce by which the port becomes a time receiver. -/
def anAnn : AnnMsg := ⟨0, 0, 0, 0, 0, 0, 37, true, 9⟩

theorem wit_PtpMessagesAct :
    (∃ (e : Fin 4) (s : State), ethUp s e = false) ∧
    (∃ (e : Fin 4) (s : State) (m : PtpMsg), ethUp s e = true ∧ ptpTakes s e m.domain = false) ∧
    (∃ (e : Fin 4) (s : State) (m : AnnMsg), ethUp s e = true ∧ (ptpTakes s e m.domain = false ∨ fwRuns s = false)) ∧
    (∃ (e : Fin 4) (s : State) (m : PtpMsg), ethUp s e = true ∧ ptpTakes s e m.domain = true ∧ 8 ≤ ptpState s e) ∧
    (∃ (e : Fin 4) (s : State) (m : PtpMsg), ethUp s e = true ∧ ptpTakes s e m.domain = true ∧ ptpState s e < 8) ∧
    (∃ (e : Fin 4) (s : State) (m : PtpMsg), ethUp s e = true ∧ ptpTakes s e m.domain = true ∧ (eport s e).syncRx = none) ∧
    (∃ (e : Fin 4) (s : State) (m : PtpMsg), ethUp s e = true ∧ ptpTakes s e m.domain = true ∧ (ptpState s e ≠ 6 ∨ peerDelay s e = true)) ∧
    (∃ (e : Fin 4) (s : State) (m : PtpMsg), ethUp s e = true ∧ ptpTakes s e m.domain = true ∧ ((eport s e).t21 = none ∨ (∀ t3, (eport s
      e).dreq ≠ some (m.seq.toNat, t3)) ∨ m.forUs = false ∨ ptpState s e < 8)) ∧
    (∃ (e : Fin 4) (s : State) (m : PtpMsg), ethUp s e = true ∧ ptpTakes s e m.domain = true ∧ peerDelay s e = false) ∧
    (∃ (e : Fin 4) (s : State) (m : PtpMsg), ethUp s e = true ∧ ptpTakes s e m.domain = true ∧ ((∀ t1, (eport s e).pdreq ≠ some
      (m.seq.toNat, t1)) ∨ m.forUs = false ∨ peerDelay s e = false)) ∧
    (∃ (e : Fin 4) (s : State) (m : PtpMsg), ethUp s e = true ∧ ptpTakes s e m.domain = true ∧ ((∀ t1, (eport s e).pdreq ≠ some
      (m.seq.toNat, t1)) ∨ (eport s e).pdresp = none ∨ m.forUs = false)) ∧
    (∃ (e : Fin 4) (s : State) (m : PtpMsg) (t2 : _), ethUp s e = true ∧ ptpTakes s e m.domain = true ∧ (eport s e).syncRx = some
      (m.seq.toNat, t2)) ∧
    (∃ (e : Fin 4) (s : State) (m : PtpMsg) (q : _) (t2 : _), ethUp s e = true ∧ ptpTakes s e m.domain = true ∧ (eport s e).syncRx = some
      (q, t2) ∧ q ≠ m.seq.toNat) ∧
    (∃ (e : Fin 4) (s : State) (m : PtpMsg), ethUp s e = true ∧ ptpTakes s e m.domain = true ∧ ptpState s e = 6 ∧ peerDelay s e = false) ∧
    (∃ (e : Fin 4) (s : State) (m : PtpMsg) (x : _) (t3 : _), ethUp s e = true ∧ ptpTakes s e m.domain = true ∧ (eport s e).t21 = some x ∧
      (eport s e).dreq = some (m.seq.toNat, t3) ∧ m.forUs = true ∧ 8 ≤ ptpState s e) ∧
    (∃ (e : Fin 4) (s : State) (m : PtpMsg), ethUp s e = true ∧ ptpTakes s e m.domain = true ∧ peerDelay s e = true) ∧
    (∃ (e : Fin 4) (s : State) (m : PtpMsg) (t1 : _), ethUp s e = true ∧ ptpTakes s e m.domain = true ∧ (eport s e).pdreq = some
      (m.seq.toNat, t1) ∧ m.forUs = true ∧ peerDelay s e = true) ∧
    (∃ (e : Fin 4) (s : State) (m : PtpMsg) (t1 : _) (t2 : _) (t4 : _), ethUp s e = true ∧ ptpTakes s e m.domain = true ∧ (eport s e).pdreq
      = some (m.seq.toNat, t1) ∧ (eport s e).pdresp = some (t2, t4) ∧ m.forUs = true) ∧
    (∃ (e : Fin 4) (s : State) (m : AnnMsg), ethUp s e = true ∧ ptpTakes s e m.domain = true ∧ fwRuns s = true) :=
  ⟨⟨3, State.reset, by decide +kernel⟩,
    ⟨3, eth3 8, { aMsg with domain := 77 }, by decide +kernel⟩,
    ⟨3, eth3 8, { anAnn with domain := 77 }, by decide +kernel⟩,
    ⟨3, eth3 8, aMsg, by decide +kernel⟩,
    ⟨3, eth3 7, aMsg, by decide +kernel⟩,
    ⟨3, eth3 8, aMsg, by decide +kernel⟩,
    ⟨3, eth3 7, aMsg, by decide +kernel⟩,
    ⟨3, eth3 8, aMsg, by decide +kernel, by decide +kernel, Or.inl (by decide +kernel)⟩,
    ⟨3, eth3 8, aMsg, by decide +kernel⟩,
    ⟨3, p2p (eth3 8), aMsg, by decide +kernel, by decide +kernel, Or.inl (fun t1 => ne_of_none (by decide +kernel))⟩,
    ⟨3, eth3 8, aMsg, by decide +kernel, by decide +kernel, Or.inr (Or.inl (by decide +kernel))⟩,
    ⟨3, eth3 8 { EPort.init with syncRx := some (5, 4) }, aMsg, 4, by decide +kernel⟩,
    ⟨3, eth3 8 { EPort.init with syncRx := some (6, 4) }, aMsg, 6, 4, by decide +kernel⟩,
    ⟨3, eth3 6, aMsg, by decide +kernel⟩,
    ⟨3, eth3 9 { EPort.init with t21 := some 4, dreq := some (5, 1) }, aMsg, 4, 1, by decide +kernel⟩,
    ⟨3, p2p (eth3 8), aMsg, by decide +kernel⟩,
    ⟨3, p2p (eth3 9 { EPort.init with pdreq := some (5, 1) }), aMsg, 1, by decide +kernel⟩,
    ⟨3, p2p (eth3 9 { EPort.init with pdreq := some (5, 1), pdresp := some (2, 4) }), aMsg, 1, 2, 4, by decide +kernel⟩,
    ⟨3, eth3 4, anAnn, by decide +kernel⟩⟩

theorem wit_PtpIntervalsSend :
    (∃ (e : Fin 4) (s : State), (ptpOn s e = false ∨ ptpState s e ≠ 6 ∨ s.up < (eport s e).nextSync)) ∧
    (∃ (e : Fin 4) (s : State), (ptpOn s e = false ∨ s.up < (eport s e).nextDelay ∨ (peerDelay s e = false ∧ ptpState s e < 8))) ∧
    (∃ (e : Fin 4) (s : State), s.up < (eport s e).nextAnn) ∧
    (∃ (e : Fin 4) (s : State), (eport s e).nextAnn ≤ s.up) ∧
    (∃ (e : Fin 4) (s : State), ((∀ a, (eport s e).annAt = some a → s.up < a + 3 * annNs s e) ∨ ptpOn s e = false ∨ fwRuns s = false ∨
      (ptpState s e ≠ 4 ∧ ptpState s e < 7))) ∧
    (∃ (e : Fin 4) (s : State), ptpOn s e = true ∧ ptpState s e = 6 ∧ (eport s e).nextSync ≤ s.up) ∧
    (∃ (e : Fin 4) (s : State), ptpOn s e = true ∧ (eport s e).nextDelay ≤ s.up ∧ peerDelay s e = true) ∧
    (∃ (e : Fin 4) (s : State), ptpOn s e = true ∧ (eport s e).nextDelay ≤ s.up ∧ peerDelay s e = false ∧ 8 ≤ ptpState s e) ∧
    (∃ (e : Fin 4) (s : State) (a : _), ptpOn s e = true ∧ (eport s e).annAt = some a ∧ fwRuns s = true ∧ (ptpState s e = 4 ∨ 7 ≤ ptpState
      s e) ∧ a + 3 * annNs s e ≤ s.up) :=
  ⟨⟨3, State.reset, by decide +kernel⟩,
    ⟨3, State.reset, by decide +kernel⟩,
    ⟨3, eth3 6 { EPort.init with nextAnn := 1 }, by decide +kernel⟩,
    ⟨3, eth3 6, by decide +kernel⟩,
    ⟨3, State.reset, Or.inl (none_all (by decide +kernel))⟩,
    ⟨3, eth3 6, by decide +kernel⟩,
    ⟨3, p2p (eth3 6), by decide +kernel⟩,
    ⟨3, eth3 8, by decide +kernel⟩,
    ⟨3, at_ (3 * annNs (eth3 9) 3) (eth3 9 { EPort.init with annAt := some 0 }), 0, by decide +kernel⟩⟩
/-! ## Witnesses: thermal, faults, power-on, restarts, flash, the test port -/

/-- The thermal unit's side of a state changed, at a level. -/
def thms (level : Nat) (f : Thm → Thm := id) (s : State := State.reset) : State :=
  let s1 := regs [(Reg.THM_STATUS, Reg.THM_STATUS_LEVEL, level)] s
  { s1 with thm := f s1.thm }

theorem wit_ThermalEventsAct :
    (∃ (s : State), s.boot.powered = true ∧ s.thm.nextPub ≤ s.up) ∧
    (∃ (s : State), (s.boot.powered = false ∨ s.up < s.thm.nextPub)) ∧
    (∃ (s : State) (u : Nat), s.thm.relSince = some u ∧ thmLevel s ≠ 0 ∧ u + 1000000 * max 101 (fget s Reg.THM_CTRL
      Reg.THM_CTRL_RELEASE_HOLD) ≤ s.up) ∧
    (∃ (s : State), ((∀ u, s.thm.relSince = some u → s.up < u + 1000000 * max 101 (fget s Reg.THM_CTRL Reg.THM_CTRL_RELEASE_HOLD)) ∨
      thmLevel s = 0)) ∧
    (∃ (s : State) (g : Nat), s.thm.grace = some g ∧ g ≤ s.up ∧ thmLevel s ≠ 0) ∧
    (∃ (s : State), ((∀ g, s.thm.grace = some g → s.up < g) ∨ thmLevel s = 0)) :=
  ⟨⟨powered (at_ State.reset.thm.nextPub), by decide +kernel⟩,
    ⟨State.reset, by decide +kernel⟩,
    ⟨at_ (1000000 * max 101 (fget State.reset Reg.THM_CTRL Reg.THM_CTRL_RELEASE_HOLD)) (thms 1 (fun t => { t with relSince := some 0 })),
      0, by decide +kernel⟩,
    ⟨State.reset, Or.inl (none_all (by decide +kernel))⟩,
    ⟨at_ 9 (thms 2 (fun t => { t with grace := some 9 })), 9, by decide +kernel⟩,
    ⟨State.reset, Or.inl (none_all (by decide +kernel))⟩⟩

/-- The fault collector with one open slot. -/
def slotted (src : Nat) (s : State := State.reset) : State :=
  { s with flt := { s.flt with slots := [(src, ⟨0x10, 5, 0, 0, 0, 0, false⟩)] } }

/-- Host port B with the FAULT vector waiting. -/
def waiting (last : Option Nat) : State :=
  setPort State.reset 1 { Port.init with faultWait := true, faultLast := last }

/-- Injection of faults enabled. -/
def forcing (kind repair : Nat) (s : State := State.reset) : State :=
  regs [(Reg.FLT_CTRL, Reg.FLT_CTRL_FORCE_EN, 1), (Reg.FLT_FORCE_CFG, Reg.FLT_FORCE_CFG_KIND, kind),
    (Reg.FLT_FORCE_CFG, Reg.FLT_FORCE_CFG_REPAIR, repair)] s

theorem wit_FaultsAreLoggedAndRepaired :
    (∃ (s : State) (src : Nat) (x : Slot), nextSlot s = some (src, x) ∧ src < 352) ∧
    (∃ (s : State), nextSlot s = none) ∧
    (∃ (p : Fin 2) (s : State), (portOf s p).faultWait = true ∧ ((portOf s p).faultLast = none ∨ ∃ u, (portOf s p).faultLast = some u ∧ u +
      10000 ≤ s.up)) ∧
    (∃ (p : Fin 2) (s : State), ((portOf s p).faultWait = false ∨ ∃ u, (portOf s p).faultLast = some u ∧ s.up < u + 10000)) ∧
    (∃ (m : Master) (k : Fin 11) (s : State), Reaches s m (Reg.FLT_FORCE k) ∧ fget s Reg.FLT_CTRL Reg.FLT_CTRL_FORCE_EN = 0) ∧
    (∃ (m : Master) (k : Fin 11) (s : State), Reaches s m (Reg.FLT_FORCE k) ∧ fget s Reg.FLT_CTRL Reg.FLT_CTRL_FORCE_EN = 1 ∧ fget s
      Reg.FLT_FORCE_CFG Reg.FLT_FORCE_CFG_REPAIR = 0) ∧
    (∃ (m : Master) (k : Fin 11) (s : State), Reaches s m (Reg.FLT_FORCE k) ∧ fget s Reg.FLT_CTRL Reg.FLT_CTRL_FORCE_EN = 1 ∧ fget s
      Reg.FLT_FORCE_CFG Reg.FLT_FORCE_CFG_REPAIR = 1) ∧
    (∃ (s : State) (i k due : Nat), (i, k, due) ∈ s.bel.retireQ ∧ due ≤ nowNs s ∧ cellUsable s i = true ∧ i < 6144) ∧
    (∃ (s : State), (∀ x ∈ s.bel.retireQ, nowNs s < x.2.2)) :=
  ⟨⟨slotted 351, 351, _, rfl, by decide +kernel⟩,
    ⟨State.reset, by decide +kernel⟩,
    ⟨1, waiting none, by decide +kernel, Or.inl (by decide +kernel)⟩,
    ⟨1, State.reset, Or.inl (by decide +kernel)⟩,
    ⟨.hostA, 10, State.reset, by unfold Reaches; decide +kernel⟩,
    ⟨.hostA, 10, forcing 0 0, by unfold Reaches; decide +kernel⟩,
    ⟨.hostA, 10, forcing 0x1B 1, by unfold Reaches; decide +kernel⟩,
    ⟨{ mapped with bel := { State.reset.bel with retireQ := [(0, 9, 0)] } }, 0, 9, 0, by decide +kernel⟩,
    ⟨State.reset, by decide +kernel⟩⟩

theorem wit_PowerOnBootsOrStaysInRom :
    (∃ (s : State), s.boot.powered = true) ∧
    (∃ (s : State), s.boot.powered = false ∧ eligible s 0 = false ∧ eligible s 1 = false) ∧
    (∃ (s : State), s.boot.powered = false) ∧
    (∃ (s : State), s.boot.powered = true ∧ fget s Reg.BOOT_STATUS Reg.BOOT_STATUS_ROM_ONLY = 0) ∧
    (∃ (s : State), (s.boot.powered = false ∨ fget s Reg.BOOT_STATUS Reg.BOOT_STATUS_ROM_ONLY = 1)) :=
  ⟨⟨powered, by decide +kernel⟩,
    ⟨State.reset, by decide +kernel⟩,
    ⟨State.reset, by decide +kernel⟩,
    ⟨powered, by decide +kernel⟩,
    ⟨State.reset, by decide +kernel⟩⟩

/-- A warm restart asked for, or its window begun, on a device that has been powered on. -/
def again (asked : Option (Nat × Bool)) (win : Bool) (s : State := powered) : State :=
  { s with restart := { s.restart with asked := asked, inWindow := win } }

/-- A device too hot to go on: the die's shutdown with a sensor's effective value at 327.67 °C. -/
def hot : State :=
  rset (regs [(Reg.THM_STATUS, Reg.THM_STATUS_DIE_SHUT, 1)] powered) (Reg.THM_DIE 0) 0x7FFF

theorem wit_WarmRestartsRunTheirCourse :
    (∃ (s : State), s.boot.powered = false) ∧
    (∃ (s : State), s.boot.powered = true ∧ s.restart.asked = none ∧ s.restart.inWindow = false) ∧
    (∃ (s : State), s.boot.powered = true ∧ s.restart.asked = none ∧ s.restart.inWindow = false ∧ fget s Reg.GLB_WDOG Reg.GLB_WDOG_EN = 1 ∧
      s.boot.dogRun = true ∧ s.boot.dogAt + dogNs s ≤ s.up) ∧
    (∃ (s : State) (m : Master) (v : BitVec 32), s.boot.powered = true ∧ s.restart.asked = none ∧ s.restart.inWindow = false ∧ Reaches s m
      Reg.GLB_RESET ∧ v.toNat / 65536 = 0x6512 ∧ bit v.toNat 0 = true) ∧
    (∃ (s : State), s.boot.powered = true ∧ (s.restart.asked ≠ none ∨ s.restart.inWindow = true)) ∧
    (∃ (s : State), s.boot.powered = true ∧ (s.restart.asked ≠ none ∨ s.restart.inWindow = true) ∧ fget s Reg.GLB_WDOG Reg.GLB_WDOG_EN = 1
      ∧ s.boot.dogRun = true ∧ s.boot.dogAt + dogNs s ≤ s.up) ∧
    (∃ (m : Master) (v : BitVec 32) (s : State), Reaches s m Reg.GLB_RESET ∧ v.toNat / 65536 = 0x6512 ∧ (bit v.toNat 0 = false ∨
      s.restart.asked ≠ none ∨ s.restart.inWindow = true ∨ s.boot.powered = false)) ∧
    (∃ (s : State), (fget s Reg.GLB_WDOG Reg.GLB_WDOG_EN = 0 ∨ s.boot.dogRun = false ∨ s.up < s.boot.dogAt + dogNs s)) ∧
    (∃ (m : Master) (v : BitVec 32) (s : State), Reaches s m Reg.GLB_RESET ∧ v.toNat / 65536 ≠ 0x6512) ∧
    (∃ (m : Master) (s : State), Reaches s m Reg.GLB_WDOG_KICK) ∧
    (∃ (s : State) (cause : Nat) (staged : Bool), s.restart.asked = some (cause, staged) ∧ s.restart.rstLow = false ∧ dieHot s = false ∧
      s.boot.powered = true) ∧
    (∃ (s : State), (s.restart.asked = none ∨ s.restart.rstLow = true ∨ dieHot s = true ∨ s.boot.powered = false)) ∧
    (∃ (s : State), s.restart.inWindow = true ∧ s.restart.asked = none) ∧
    (∃ (s : State), (s.restart.inWindow = false ∨ s.restart.asked ≠ none)) ∧
    (∃ (s : State), s.restart.inWindow = true ∧ s.restart.asked = none ∧ s.restart.rstLow = false) ∧
    (∃ (s : State), (s.restart.inWindow = false ∨ s.restart.asked ≠ none ∨ s.restart.rstLow = true)) :=
  ⟨⟨State.reset, by decide +kernel⟩,
    ⟨powered, by decide +kernel⟩,
    ⟨at_ (10 ^ 12) { (regs [(Reg.GLB_WDOG, Reg.GLB_WDOG_EN, 1)] (again none false)) with boot := { powered.boot with dogRun := true } },
      by decide +kernel⟩,
    ⟨powered, .hostA, 0x65120001, by unfold Reaches; decide +kernel⟩,
    ⟨again none true, by decide +kernel⟩,
    ⟨at_ (10 ^ 12) { (regs [(Reg.GLB_WDOG, Reg.GLB_WDOG_EN, 1)] (again none true)) with boot := { powered.boot with dogRun := true } },
      by decide +kernel⟩,
    ⟨.hostA, 0x65120000, powered, by unfold Reaches; decide +kernel⟩,
    ⟨State.reset, by decide +kernel⟩,
    ⟨.hostA, 0x65130001, powered, by unfold Reaches; decide +kernel⟩,
    ⟨.hostA, State.reset, by unfold Reaches; decide +kernel⟩,
    ⟨again (some (7, true)) true, 7, true, by decide +kernel⟩,
    ⟨State.reset, by decide +kernel⟩,
    ⟨again none true, by decide +kernel⟩,
    ⟨State.reset, by decide +kernel⟩,
    ⟨again none true, by decide +kernel⟩,
    ⟨State.reset, by decide +kernel⟩⟩

/-- The boot side of a state changed, in a power state. -/
def boots (st : Nat) (f : Boot → Boot := id) (s : State := powered) : State :=
  let s1 := regs [(Reg.GLB_PSTATE, Reg.GLB_PSTATE_STATE, st)] s
  { s1 with boot := f s1.boot }

/-- A header in a slot of the flash: MAGIC, VERSION and its CRC. -/
def header (k : Nat) (s : State := powered) : State :=
  let s1 := flashProg s (slotAt k) [0x4B, 0x5A, 0x4B, 0x53, 1, 0]
  flashProg s1 (slotAt k + 0x3C) ((List.range 4).map (fun j => crc32c (rbytes s1.boot.flash (slotAt k) 0x3C 0xFF) / 256 ^ j % 256))

/-- The register of a channel's state is DRV_CHc_STAT, which holds no SLEW after power-on. -/
theorem stat_word (h : Nat) (hh : h < 12288) : resetWord (statReg h) = 0x70000 := by
  have e : statReg h = 0x100600 + 0x1000 * (h / 128) + 4 * (h % 128) := rfl
  have hb : blockRows (statReg h) = regRowsDrv := by
    obtain ⟨n, hn⟩ : ∃ n, statReg h / 0x10000 = n := ⟨_, rfl⟩
    have : 0x10 ≤ n ∧ n ≤ 0x15 := by omega
    unfold blockRows
    rw [hn]
    rcases this with ⟨a, b⟩
    interval_cases n <;> rfl
  have hf : findReg (statReg h) = regRowsDrv[17]? := by
    unfold findReg
    rw [hb, e]
    unfold regRowsDrv
    iterate 17 rw [List.find?_cons_of_neg (by simp only [rowHas, inDims, Bool.and_eq_true, decide_eq_true_eq]; omega)]
    rw [List.find?_cons_of_pos (by simp only [rowHas, inDims, Bool.and_eq_true, decide_eq_true_eq]; omega)]
    rfl
  unfold resetWord
  rw [hf]
  decide +kernel

/-- Where nothing plays, slews, waits or sweeps, DOZE finds every condition met. -/
theorem doze_ready : pstateReason (boots 1) = 0 := by
  have hm : anyMoving (boots 1) = false := by
    unfold anyMoving
    rw [List.any_eq_false]
    intro h hh
    have hs : tfind (boots 1).regs (statReg h) = none := by
      have e : (boots 1).regs = [(Reg.GLB_PSTATE, 0x10)] := by decide +kernel
      rw [e]
      have ne : (0x20 : Nat) ≠ 0x100600 + 0x1000 * (h / 128) + 4 * (h % 128) := by omega
      exact if_neg ne
    have hw : rget (boots 1) (statReg h) = 0x70000 := by
      unfold rget
      rw [hs]
      exact stat_word h (List.mem_range.mp hh)
    have hc : (chanOf (boots 1) h).play = none := rfl
    rw [hc]
    unfold slewing fget
    rw [hw]
    decide
  have hk : (List.range 96).any (fun t => !kernelReady (boots 1) t) = false := by decide +kernel
  unfold pstateReason
  rw [hk, hm]
  decide +kernel

theorem wit_PowerStatesAndFlashCommandsAct :
    (∃ (m : Master) (v : BitVec 32) (s : State), Reaches s m Reg.GLB_PSTATE ∧ (v.toNat % 4 = 1 ∨ v.toNat % 4 = 2) ∧ pstate s < 2) ∧
    (∃ (m : Master) (v : BitVec 32) (s : State), Reaches s m Reg.GLB_PSTATE ∧ (v.toNat % 4 = 1 ∨ v.toNat % 4 = 2) ∧ 2 ≤ pstate s) ∧
    (∃ (m : Master) (v : BitVec 32) (s : State), Reaches s m Reg.GLB_PSTATE ∧ (v.toNat % 4 = 0 ∨ v.toNat % 4 = 3)) ∧
    (∃ (s : State), pstate s ≠ 1) ∧
    (∃ (s : State), (pstate s ≠ 1 ∨ pstateReason s = 0 ∨ (∀ x, s.boot.pstAt = some x → s.up < x + 10000000))) ∧
    (∃ (s : State), pstate s = 1 ∧ pstateReason s = 0) ∧
    (∃ (s : State), pstate s = 1 ∧ pstateReason s ≠ 0) ∧
    (∃ (s : State) (x : _), pstate s = 1 ∧ s.boot.pstAt = some x ∧ x + 10000000 ≤ s.up ∧ pstateReason s ≠ 0) ∧
    (∃ (m : Master) (v : BitVec 32) (s : State), Reaches s m Reg.BOOT_CMD ∧ v.toNat % 8 = 0) ∧
    (∃ (m : Master) (v : BitVec 32) (s : State), Reaches s m Reg.BOOT_CMD ∧ bit v.toNat 0 = true) ∧
    (∃ (m : Master) (v : BitVec 32) (s : State), Reaches s m Reg.BOOT_CMD ∧ bit v.toNat 1 = true) ∧
    (∃ (m : Master) (v : BitVec 32) (s : State), Reaches s m Reg.BOOT_CMD ∧ bit v.toNat 2 = true) ∧
    (∃ (m : Master) (s : State), Reaches s m Reg.BOOT_PROG) := by
  let busy : State := at_ 10000000 (boots 1 (fun b => { b with pstAt := some 0 }) (belled [aBell 5] powered))
  exact ⟨⟨.hostA, 1, State.reset, by unfold Reaches; decide +kernel⟩,
    ⟨.hostA, 2, boots 3, by unfold Reaches; decide +kernel⟩,
    ⟨.hostA, 3, boots 1, by unfold Reaches; decide +kernel⟩,
    ⟨State.reset, by decide +kernel⟩,
    ⟨boots 1, Or.inr (Or.inl doze_ready)⟩,
    ⟨boots 1, by decide +kernel, doze_ready⟩,
    ⟨busy, by decide +kernel⟩,
    ⟨busy, 0, by decide +kernel⟩,
    ⟨.hostA, 8, powered, by unfold Reaches; decide +kernel⟩,
    ⟨.hostA, 1, powered, by unfold Reaches; decide +kernel⟩,
    ⟨.hostA, 2, powered, by unfold Reaches; decide +kernel⟩,
    ⟨.hostA, 4, powered, by unfold Reaches; decide +kernel⟩,
    ⟨.hostA, powered, by unfold Reaches; decide +kernel⟩⟩

theorem wit_FlashOperationsComplete :
    (∃ (s : State), jrnlDue s = true ∧ s.boot.jBusy = false ∧ s.restart.inWindow = false ∧ s.boot.powered = true) ∧
    (∃ (s : State), s.boot.jBusy = false) ∧
    (∃ (s : State), s.boot.opAt = none) ∧
    (∃ (s : State), (jrnlDue s = false ∨ s.boot.jBusy = true ∨ s.restart.inWindow = true ∨ s.boot.powered = false)) ∧
    (∃ (s : State), s.boot.jBusy = true) ∧
    (∃ (s : State) (page : Nat), s.boot.opAt = some (0, page)) ∧
    (∃ (s : State) (page : Nat), s.boot.opAt = some (1, page)) ∧
    (∃ (s : State) (op page : Nat), s.boot.opAt = some (op, page) ∧ 2 ≤ op) :=
  ⟨⟨boots 0 (fun b => { b with jWant := true }), by decide +kernel⟩,
    ⟨powered, by decide +kernel⟩,
    ⟨powered, by decide +kernel⟩,
    ⟨powered, by decide +kernel⟩,
    ⟨boots 0 (fun b => { b with jBusy := true }), by decide +kernel⟩,
    ⟨boots 0 (fun b => { b with opAt := some (0, 7) }), 7, by decide +kernel⟩,
    ⟨boots 0 (fun b => { b with opAt := some (1, 7) }), 7, by decide +kernel⟩,
    ⟨boots 0 (fun b => { b with opAt := some (2, 7) }), 2, 7, by decide +kernel⟩⟩

theorem wit_TestPortAndClocksAct :
    (∃ (i : Fin 4) (s : State), rbit s Reg.GLB_CLK (clkBit i) = true) ∧
    (∃ (i : Fin 4) (s : State), rbit s Reg.GLB_CLK (clkBit i) = false) ∧
    (∃ (a : BitVec 24) (inSup : Bool) (s : State), tfind s.flt.slots (eccSource a.toNat inSup) = none) ∧
    (∃ (a : BitVec 24) (inSup : Bool) (s : State) (x : Slot), tfind s.flt.slots (eccSource a.toNat inSup) = some x) :=
  ⟨⟨3, rset State.reset Reg.GLB_CLK 15, by decide +kernel⟩,
    ⟨3, rset State.reset Reg.GLB_CLK 0, by decide +kernel⟩,
    ⟨0x930000, true, State.reset, by decide +kernel⟩,
    ⟨0x930000, true, slotted (eccSource 0x930000 true), ⟨0x10, 5, 0, 0, 0, 0, false⟩, by decide +kernel⟩⟩

theorem wit_ConfigurationRetriesUntilBoot : ∃ s : State, s.boot.powered = false := ⟨State.reset, by decide +kernel⟩

/-- A fabric map in which tiles 0, 1, 3 and 4 are used, with the adjacency of tile 0 as given. -/
def adjacent (n adj : Nat) : State := bytes [(0xE00840, 1, 1), (0xE01840, 1, 1), (0xE02040, 1, 1), (0xE42001, 3, n + 256 * adj)] fabric

/-- A tile of whose cells the memory lists no byte has none. -/
theorem tile_quiet {s : State} {u : Nat} (o : g32 (fm s) 0x14 = 0x40)
    (h : ∀ e ∈ s.mem, e.1 < 0xE00040 + 2048 * u ∨ 0xE00840 + 2048 * u ≤ e.1) : tileUsed (fm s) u = false := by
  unfold tileUsed
  rw [List.any_eq_false]
  intro c hc
  rw [List.mem_range] at hc
  have z : ∀ k < 2, fm s (cellAt (fm s) (64 * u + c) + k) = 0 := fun k hk => rb_unlisted (fun e he => by
    have := h e he; unfold cellAt; rw [o]; omega)
  unfold cellPresent cellFlags g16
  rw [z 1 (by decide), show fm s (cellAt (fm s) (64 * u + c)) = 0 from z 0 (by decide)]
  decide

/-- The used tiles of a map whose other tiles are quiet. -/
theorem used_tiles {s : State} {t : Nat} (l : List Nat) (o : g32 (fm s) 0x14 = 0x40)
    (h : ∀ u < 96, u ∈ l ∨ ∀ e ∈ s.mem, e.1 < 0xE00040 + 2048 * u ∨ 0xE00840 + 2048 * u ≤ e.1)
    (p : ∀ u ∈ l, tileUsed (fm s) u = true) :
    (List.range 96).filter (fun u => tileUsed (fm s) u && decide (u ≠ t)) =
      (List.range 96).filter (fun u => decide (u ∈ l) && decide (u ≠ t)) := by
  refine List.filter_congr (fun u hu => ?_)
  rw [List.mem_range] at hu
  by_cases m : u ∈ l
  · rw [p u m, decide_eq_true m]
  · rw [tile_quiet o ((h u hu).resolve_left m), decide_eq_false m]

theorem wit_SensorsHaveTheirNeighbours :
    (∃ (s : State) (T : Fin 96) (A U : Nat → Prop) (far : Nat → Nat), (∀ u, U u ↔ u < 96 ∧ u ≠ T.val ∧ tileUsed (fm s) u = true) ∧
      (∀ u, A u ↔ U u ∧ u ∈ tileAdj (fm s) T) ∧ (∀ u, far u = (u - T.val) + (T.val - u)) ∧ (∃ u v, u ≠ v ∧ A u ∧ A v)) ∧
    (∃ (s : State) (T : Fin 96) (A U : Nat → Prop) (far : Nat → Nat), (∀ u, U u ↔ u < 96 ∧ u ≠ T.val ∧ tileUsed (fm s) u = true) ∧
      (∀ u, A u ↔ U u ∧ u ∈ tileAdj (fm s) T) ∧ (∀ u, far u = (u - T.val) + (T.val - u)) ∧ (∃ u, A u) ∧
      ¬ (∃ u v, u ≠ v ∧ A u ∧ A v) ∧ (∃ u v, u ≠ v ∧ U u ∧ U v) ∧
      (∃ u v, 64 + u ∈ picNeighbours s T ∧ ¬ A u ∧ U v ∧ 64 + v ∉ picNeighbours s T)) := by
  refine ⟨⟨adjacent 2 0x0103, 0, _, _, _, fun _ => Iff.rfl, fun _ => Iff.rfl, fun _ => rfl, 3, 1, by decide +kernel⟩,
    ⟨adjacent 1 3, 0, _, _, _, fun _ => Iff.rfl, fun _ => Iff.rfl, fun _ => rfl, ⟨3, by decide +kernel⟩, ?_,
      ⟨1, 4, by decide +kernel⟩, 1, 4, ?_⟩⟩
  swap
  · have e : picNeighbours (adjacent 1 3) (0 : Fin 96) = [67, 65] := by
      unfold picNeighbours
      rw [used_tiles [0, 1, 3, 4] (by decide +kernel) (by decide +kernel) (by decide +kernel)]
      decide +kernel
    rw [e]
    decide +kernel
  rintro ⟨u, v, h, ⟨_, hu⟩, _, hv⟩
  have e : tileAdj (fm (adjacent 1 3)) (0 : Fin 96) = [3] := by decide +kernel
  rw [e, List.mem_singleton] at hu hv
  exact h (hu.trans hv.symm)

theorem wit_TimeReadsCaptureForTheirRequester :
    (∃ (m : Master) (s : State), romBlocks s m (Reg.TMU_NOW 0) = false) ∧
    (∃ (m : Master) (k : Fin 4) (s : State), k ≠ 0 ∧ romBlocks s m (Reg.TMU_NOW k) = false) ∧
    (∃ m m' : Master, m ≠ .leg ∧ m' ≠ .leg ∧ capOf m = capOf m') :=
  ⟨⟨.hostA, State.reset, by decide +kernel⟩, ⟨.mnt, 3, State.reset, by decide +kernel⟩, ⟨.sup, .sup, by decide +kernel⟩⟩

end Sys2Proof.Machine.Test
end

section
/-! The time reads of R273: the registers TMU_NOWk on the bus, the set a read of TMU_NOW0 captures, and whose set it is. -/

namespace Sys2Proof.Machine

/-! ## The set of a requester -/

/-- The requester of R273 whose capture set a number names. -/
def captureOwner : Nat → Master
  | 0 => .hostA
  | 1 => .hostB
  | 2 => .sup
  | _ => .mnt

/-- The requesters of R273 have sets of their own; the SPI port, which shares one (notes/assumptions/50), is left out. -/
theorem captureOwner_capOf : Set.LeftInvOn captureOwner capOf {m | m ≠ .leg} := by
  intro m hm
  cases m with
  | leg => exact absurd rfl hm
  | sup | hostA | hostB | mnt => rfl

/-! ## The capture -/

@[simp] theorem captureNow_regs (s : State) (m : Master) : (captureNow s m).regs = s.regs := rfl
@[simp] theorem captureNow_now (s : State) (m : Master) : (captureNow s m).now = s.now := rfl
@[simp] theorem captureNow_out (s : State) (m : Master) : (captureNow s m).out = s.out := rfl

/-- The sets after a capture, entry by entry. -/
theorem tget_captureNow (s : State) (m : Master) (j : Nat) :
    tget (captureNow s m).tmu.caps 0 j =
      if j = 4 * capOf m + 3 then secOf s.now / 2 ^ 32 % 2 ^ 32
      else if j = 4 * capOf m + 2 then secOf s.now % 2 ^ 32
      else if j = 4 * capOf m + 1 then fracOf s.now
      else if j = 4 * capOf m then nsOf s.now
      else tget s.tmu.caps 0 j := by
  simp only [captureNow, tget_tset, Nat.add_zero]

theorem captureNow_ns (s : State) (m : Master) : tget (captureNow s m).tmu.caps 0 (4 * capOf m) = nsOf s.now := by
  simp [tget_captureNow]

theorem captureNow_frac (s : State) (m : Master) : tget (captureNow s m).tmu.caps 0 (4 * capOf m + 1) = fracOf s.now := by
  simp [tget_captureNow]

/-- The two words of the seconds hold them together. -/
theorem captureNow_sec (s : State) (m : Master) :
    tget (captureNow s m).tmu.caps 0 (4 * capOf m + 2) + 2 ^ 32 * tget (captureNow s m).tmu.caps 0 (4 * capOf m + 3) =
      secOf s.now % 2 ^ 64 := by
  have low : tget (captureNow s m).tmu.caps 0 (4 * capOf m + 2) = secOf s.now % 2 ^ 32 := by simp [tget_captureNow]
  have high : tget (captureNow s m).tmu.caps 0 (4 * capOf m + 3) = secOf s.now / 2 ^ 32 % 2 ^ 32 := by simp [tget_captureNow]
  rw [low, high, ← Nat.mod_mul, ← Nat.pow_add]

theorem captureNow_other (s : State) (m : Master) {j : Nat} (h : j / 4 ≠ capOf m) :
    tget (captureNow s m).tmu.caps 0 j = tget s.tmu.caps 0 j := by
  rw [tget_captureNow, if_neg (by omega), if_neg (by omega), if_neg (by omega), if_neg (by omega)]

/-! ## TMU_NOWk on the bus -/

theorem findReg_TMU_NOW : ∀ k : Fin 4, (findReg (Reg.TMU_NOW k)).isSome = true := by decide

theorem regView_TMU_NOW (s : State) (m : Master) (k : Fin 4) : regView s m (Reg.TMU_NOW k) = nowWord s m k := by
  fin_cases k <;> rfl

/-- A read that reaches a register below the drive blocks returns the register's view, and captures nothing but at TMU_NOW0. -/
theorem busRead_low_register {s : State} {m : Master} {a : Nat} (hb : romBlocks s m a = false) (h4 : a % 4 = 0) (hl : a ≤ 0x0DFFFF)
    (hr : (findReg a).isSome = true) :
    busRead s m a =
      if a = Reg.TMU_NOW 0 then (captureNow s m, regView (captureNow s m) m a) else (s, regView s m a) := by
  have ha : a / 4 * 4 = a := by omega
  obtain ⟨row, hrow⟩ := Option.isSome_iff_exists.mp hr
  unfold busRead
  simp only [ha]
  rw [if_neg (by simp [inTarget_low hl]), if_neg (by simp [hb]), if_neg (by simp [inSram]; omega), if_neg (by omega)]
  split
  · rfl
  · rw [if_neg (by omega), hrow]

theorem busRead_TMU_NOW {s : State} {m : Master} (k : Fin 4) (hb : romBlocks s m (Reg.TMU_NOW k) = false) :
    busRead s m (Reg.TMU_NOW k) = if k = 0 then (captureNow s m, nowWord (captureNow s m) m 0) else (s, nowWord s m k) := by
  have zero : Reg.TMU_NOW k = Reg.TMU_NOW 0 ↔ k = 0 := by simp only [Reg.TMU_NOW]; omega
  rw [busRead_low_register hb (by simp only [Reg.TMU_NOW]; omega) (by simp only [Reg.TMU_NOW]; omega) (findReg_TMU_NOW k)]
  simp only [zero, regView_TMU_NOW]
  split
  · next h => rw [h]; rfl
  · rfl

theorem nowWord_captureNow_zero (s : State) (m : Master) :
    nowWord (captureNow s m) m 0 = BitVec.ofNat 32 (nsOf s.now) :=
  congrArg (BitVec.ofNat 32) (captureNow_ns s m)

/-! ## The bytes returned -/

theorem foldl_range_four (f : Nat → Nat → Nat) : (List.range 4).foldl f 0 = f (f (f (f 0 0) 1) 2) 3 := rfl

theorem bit_all_enabled : ∀ j < 4, bit (15 : BitVec 4).toNat j = true := by decide

/-- A word is put together from its four bytes. -/
theorem sum_bytes (w : BitVec 32) :
    0 + bits w.toNat 0 8 * 256 ^ 0 + bits w.toNat 8 8 * 256 ^ 1 + bits w.toNat 16 8 * 256 ^ 2 + bits w.toNat 24 8 * 256 ^ 3 = w.toNat := by
  have := w.isLt
  simp only [bits, Nat.shiftRight_eq_div_pow]
  omega

/-- R10: all four byte enables return the whole word. -/
theorem selected_all (w : BitVec 32) : selected w 15 = w := by
  rw [selected, foldl_range_four, if_pos (bit_all_enabled 3 (by decide)), if_pos (bit_all_enabled 2 (by decide)),
    if_pos (bit_all_enabled 1 (by decide)), if_pos (bit_all_enabled 0 (by decide)), sum_bytes, BitVec.ofNat_toNat, BitVec.setWidth_eq]

/-! ## The command and the obligation -/

/-- TMU_NOW_CAPTURE takes the capture and answers with the selected bytes of the nanoseconds. -/
theorem exec_tmuNowCapture {m : Master} {s : State} (be : BitVec 4) (hb : romBlocks s m (Reg.TMU_NOW 0) = false) :
    exec (.tmuNowCapture m be) s =
      done s (emit (captureNow s m) (.data m (selected (BitVec.ofNat 32 (nsOf s.now)) be))) := by
  have read : busRead s m (Reg.TMU_NOW 0) = (captureNow s m, BitVec.ofNat 32 (nsOf s.now)) :=
    (busRead_TMU_NOW 0 hb).trans (by rw [if_pos rfl, nowWord_captureNow_zero])
  change done s (readAnswer s m (Reg.TMU_NOW 0) be) = _
  rw [readAnswer, read]

/-- Settles O60: a read of TMU_NOW0 is `captureNow`, which writes the four entries of its requester's set only, and the other three
reads show the entries of that set. -/
theorem timeReadsCaptureForTheirRequester : Obligations.TimeReadsCaptureForTheirRequester := by
  unfold Obligations.TimeReadsCaptureForTheirRequester
  refine ⟨fun m be s hb => ⟨_, exec_tmuNowCapture be hb, rfl, ?_, captureNow_ns s m, captureNow_frac s m, captureNow_sec s m,
    fun _ => captureNow_other s m, rfl, rfl⟩, fun m k s hk hb => ?_, fun m m' hm hm' => ?_⟩
  · rintro rfl
    exact selected_all _
  · rw [busRead_TMU_NOW k hb, if_neg hk, nowWord]
  · exact captureOwner_capOf.injOn.eq_iff hm hm'

end Sys2Proof.Machine
end

section
/-! Configuration requests before boot (R305): with no power-on reset yet (`powered` is the model's reading of "boot firmware has loaded
the configuration space", notes/assumptions/16 and 48), a request only answers with retry status. -/

namespace Sys2Proof.Machine

/-- Before power-on reset a configuration access, read or write, reaches no port state: its answer is retry status and nothing else changes. -/
theorem configAccess_unpowered {s : State} (hs : s.boot.powered = false) (p : Nat) (wr : Bool) (reg v be : Nat) :
    configAccess s p wr reg v be = emit s (.config p true 0) := by
  unfold configAccess
  exact if_pos (by rw [hs]; rfl)

/-- CONFIGURATION_REQUEST before power-on reset. -/
theorem exec_configurationRequest_unpowered {s : State} (hs : s.boot.powered = false) (p : Fin 2) (wr : Bool) (reg : BitVec 12)
    (v : BitVec 32) (be : BitVec 4) :
    exec (.configurationRequest p wr reg v be) s = done s (emit s (.config p true 0)) := by
  change done s (configAccess s p wr reg.toNat v.toNat be.toNat) = _
  rw [configAccess_unpowered hs]

/-- Settles O58: the request's effect is the retry answer alone, so registers and host interface stay as they were. -/
theorem configurationRetriesUntilBoot : Obligations.ConfigurationRetriesUntilBoot := by
  unfold Obligations.ConfigurationRetriesUntilBoot
  intro p wr reg v be s hs
  exact ⟨_, exec_configurationRequest_unpowered hs p wr reg v be, rfl, rfl, rfl⟩

end Sys2Proof.Machine
end

section
/-! The neighbours of R371: the die sensors beside a die sensor on the grid, and the used tiles that a PIC thermometer is compared with. -/

namespace Sys2Proof.Machine

/-! ## Lists in the order of a key, and without repetitions -/

theorem insBy_perm {α : Type} (f : α → Int) (x : α) (l : List α) : (insBy f x l).Perm (x :: l) := by
  induction l with
  | nil => exact .rfl
  | cons y r ih =>
    rw [insBy]
    split
    · exact .rfl
    · exact (ih.cons y).trans (.swap x y r)

theorem insBy_ascending {α : Type} {f : α → Int} (x : α) {l : List α} (h : l.Pairwise (f · ≤ f ·)) :
    (insBy f x l).Pairwise (f · ≤ f ·) := by
  induction h with
  | nil => exact List.pairwise_singleton _ x
  | @cons y r hy hr ih =>
    rw [insBy]
    split
    · next lt =>
      refine List.pairwise_cons.mpr ⟨fun z hz => ?_, hr.cons hy⟩
      obtain rfl | hz := List.mem_cons.mp hz
      · exact lt.le
      · exact lt.le.trans (hy z hz)
    · next le =>
      refine List.pairwise_cons.mpr ⟨fun z hz => ?_, ih⟩
      obtain rfl | hz := List.mem_cons.mp ((insBy_perm f x r).mem_iff.mp hz)
      · exact not_lt.mp le
      · exact hy z hz

/-- Sorting keeps the elements: `acc` is what has been sorted already. -/
theorem foldl_insBy_perm {α : Type} (f : α → Int) (l acc : List α) : (l.foldl (fun acc x => insBy f x acc) acc).Perm (l ++ acc) := by
  induction l generalizing acc with
  | nil => exact .rfl
  | cons x r ih => exact (ih _).trans (((insBy_perm f x acc).append_left r).trans List.perm_middle)

theorem sortBy_perm {α : Type} (f : α → Int) (l : List α) : (sortBy f l).Perm l :=
  (foldl_insBy_perm f l []).trans (.of_eq l.append_nil)

theorem sortBy_ascending {α : Type} (f : α → Int) (l : List α) : (sortBy f l).Pairwise (f · ≤ f ·) :=
  List.foldlRecOn l _ .nil fun _ h x _ => insBy_ascending x h

theorem nodup_eraseDups (l : List Nat) : l.eraseDups.Nodup := by
  match l with
  | [] => exact .nil
  | x :: r =>
    rw [List.eraseDups_cons, List.nodup_cons]
    exact ⟨by simp [List.mem_eraseDups], nodup_eraseDups (r.filter fun y => !y == x)⟩
termination_by l.length
decreasing_by exact Nat.lt_succ_of_le (List.length_filter_le _ _)

/-- Two different members of a list make its length at least two. -/
theorem two_le_length_of_mem {l : List Nat} {u v : Nat} (ne : u ≠ v) (hu : u ∈ l) (hv : v ∈ l) : 2 ≤ l.length :=
  (List.subperm_of_subset (l₁ := [u, v]) (by simpa using ne) (by simp [hu, hv])).length_le

/-- A list without repetitions in which no two members differ has at most one. -/
theorem length_le_one_of_nodup {l : List Nat} (h : l.Nodup) (same : ∀ u ∈ l, ∀ v ∈ l, u = v) : l.length ≤ 1 := by
  match l with
  | [] | [_] => simp
  | u :: v :: r => exact absurd (same u (by simp) v (by simp)) (List.ne_of_not_mem_cons (List.nodup_cons.mp h).1)

/-! ## Die sensors -/

theorem mem_dieNeighbours (n j : Nat) :
    j ∈ dieNeighbours n ↔ (8 ≤ n ∧ j = n - 8) ∨ (n % 8 ≠ 0 ∧ j = n - 1) ∨ (n % 8 ≠ 7 ∧ j = n + 1) ∨ (n < 56 ∧ j = n + 8) := by
  simp only [dieNeighbours, List.mem_append, List.mem_ite_nil_right, List.mem_singleton, or_assoc]

theorem mem_dieNeighbours_iff_adjacent {n : Nat} (hn : n < 64) (j : Nat) :
    j ∈ dieNeighbours n ↔ j < 64 ∧ ((j / 8 = n / 8 ∧ (j = n + 1 ∨ n = j + 1)) ∨ (j % 8 = n % 8 ∧ (j = n + 8 ∨ n = j + 8))) := by
  rw [mem_dieNeighbours]
  omega

/-- One neighbour for each side of the grid that the sensor is not at. -/
theorem length_dieNeighbours (n : Nat) :
    (dieNeighbours n).length =
      (if 8 ≤ n then 1 else 0) + (if n % 8 ≠ 0 then 1 else 0) + (if n % 8 ≠ 7 then 1 else 0) + (if n < 56 then 1 else 0) := by
  simp only [dieNeighbours, List.length_append, apply_ite List.length, List.length_singleton, List.length_nil]

/-- A sensor is not at both of two opposite sides. -/
theorem length_dieNeighbours_bounds (n : Nat) : 2 ≤ (dieNeighbours n).length ∧ (dieNeighbours n).length ≤ 4 := by
  rw [length_dieNeighbours]
  have rows : 8 ≤ n ∨ n < 56 := by omega
  have columns : n % 8 ≠ 0 ∨ n % 8 ≠ 7 := by omega
  split_ifs <;> omega

/-! ## The parts of a PIC thermometer's list -/

/-- The used tiles other than tile `t`. -/
def otherUsed (s : State) (t : Nat) : List Nat := (List.range 96).filter (fun u => tileUsed (fm s) u && decide (u ≠ t))

/-- Those in the adjacency list of tile `t`. -/
def usedAdjacent (s : State) (t : Nat) : List Nat := ((tileAdj (fm s) t).filter (fun u => (otherUsed s t).contains u)).eraseDups

/-- The place of tile `u` in the order of nearness to tile `t` (R371): by distance in number, the lower first. -/
def nearness (t u : Nat) : Int := ((if u < t then 2 * (t - u) else 2 * (u - t) + 1 : Nat) : Int)

/-- The used tiles that are not adjacent, the nearest first. -/
def usedByNearness (s : State) (t : Nat) : List Nat :=
  sortBy (nearness t) ((otherUsed s t).filter (fun u => !(usedAdjacent s t).contains u))

/-- The tiles whose thermometers are the neighbours of tile `t`'s. -/
def neighbourTiles (s : State) (t : Nat) : List Nat :=
  usedAdjacent s t ++ (usedByNearness s t).take (2 - (usedAdjacent s t).length)

/-- The thermometer of tile `u` is sensor 64 + u. -/
theorem picNeighbours_eq (s : State) (t : Nat) : picNeighbours s t = (neighbourTiles s t).map (64 + ·) := rfl

theorem length_picNeighbours (s : State) (t : Nat) : (picNeighbours s t).length = (neighbourTiles s t).length := by
  rw [picNeighbours_eq, List.length_map]

theorem mem_picNeighbours {s : State} {t x : Nat} : x ∈ picNeighbours s t ↔ ∃ u ∈ neighbourTiles s t, 64 + u = x := by
  rw [picNeighbours_eq, List.mem_map]

theorem add_mem_picNeighbours {s : State} {t u : Nat} : 64 + u ∈ picNeighbours s t ↔ u ∈ neighbourTiles s t := by
  rw [picNeighbours_eq, List.mem_map_of_injective (add_right_injective 64)]

theorem mem_otherUsed {s : State} {t u : Nat} : u ∈ otherUsed s t ↔ u < 96 ∧ u ≠ t ∧ tileUsed (fm s) u = true := by
  simp [otherUsed, and_comm]

theorem mem_usedAdjacent {s : State} {t u : Nat} : u ∈ usedAdjacent s t ↔ u ∈ otherUsed s t ∧ u ∈ tileAdj (fm s) t := by
  simp [usedAdjacent, List.mem_eraseDups, and_comm]

theorem mem_usedByNearness {s : State} {t u : Nat} : u ∈ usedByNearness s t ↔ u ∈ otherUsed s t ∧ u ∉ usedAdjacent s t := by
  rw [usedByNearness, (sortBy_perm _ _).mem_iff]
  simp

theorem nodup_usedAdjacent (s : State) (t : Nat) : (usedAdjacent s t).Nodup := nodup_eraseDups _

theorem nodup_usedByNearness (s : State) (t : Nat) : (usedByNearness s t).Nodup :=
  (sortBy_perm _ _).nodup_iff.mpr ((List.nodup_range.filter _).filter _)

/-- Of two tiles the one earlier in the order is nearer in number, or as near and lower. -/
theorem nearer_of_nearness_le {t u v : Nat} (ne : u ≠ v) (h : nearness t u ≤ nearness t v) :
    (u - t) + (t - u) < (v - t) + (t - v) ∨ ((u - t) + (t - u) = (v - t) + (t - v) ∧ u < v) := by
  unfold nearness at h
  split_ifs at h <;> omega

/-! ## The tiles taken -/

theorem mem_neighbourTiles_of_adjacent {s : State} {t u : Nat} (h : u ∈ usedAdjacent s t) : u ∈ neighbourTiles s t :=
  List.mem_append_left _ h

theorem otherUsed_of_mem_neighbourTiles {s : State} {t u : Nat} (h : u ∈ neighbourTiles s t) : u ∈ otherUsed s t := by
  obtain h | h := List.mem_append.mp h
  · exact (mem_usedAdjacent.mp h).1
  · exact (mem_usedByNearness.mp (List.mem_of_mem_take h)).1

theorem nodup_neighbourTiles (s : State) (t : Nat) : (neighbourTiles s t).Nodup :=
  List.nodup_append'.mpr ⟨nodup_usedAdjacent s t, (nodup_usedByNearness s t).sublist (List.take_sublist _ _),
    fun _ adjacent fill => (mem_usedByNearness.mp (List.mem_of_mem_take fill)).2 adjacent⟩

/-- Two adjacent tiles are enough: none is filled up. -/
theorem neighbourTiles_of_two_adjacent {s : State} {t : Nat} (h : 2 ≤ (usedAdjacent s t).length) :
    neighbourTiles s t = usedAdjacent s t := by
  rw [neighbourTiles, Nat.sub_eq_zero_of_le h, List.take_zero, List.append_nil]

theorem length_neighbourTiles_le_two {s : State} {t : Nat} (h : (usedAdjacent s t).length ≤ 1) : (neighbourTiles s t).length ≤ 2 := by
  simp only [neighbourTiles, List.length_append, List.length_take]
  omega

/-- Where fewer than two tiles are taken, no used tile is left out. -/
theorem mem_neighbourTiles_of_length_lt_two {s : State} {t u : Nat} (short : (neighbourTiles s t).length < 2) (h : u ∈ otherUsed s t) :
    u ∈ neighbourTiles s t := by
  have whole : (usedByNearness s t).length ≤ 2 - (usedAdjacent s t).length := by
    simp only [neighbourTiles, List.length_append, List.length_take] at short
    omega
  rw [neighbourTiles, List.take_of_length_le whole, List.mem_append, mem_usedByNearness]
  tauto

theorem two_le_length_neighbourTiles {s : State} {t u v : Nat} (ne : u ≠ v) (hu : u ∈ otherUsed s t) (hv : v ∈ otherUsed s t) :
    2 ≤ (neighbourTiles s t).length := by
  by_contra short
  have short := not_le.mp short
  exact short.not_ge (two_le_length_of_mem ne (mem_neighbourTiles_of_length_lt_two short hu) (mem_neighbourTiles_of_length_lt_two short hv))

/-- A tile filled up precedes every used tile left out: the one stands in the part taken of the sorted list, the other behind it. -/
theorem nearness_le_of_filled {s : State} {t u v : Nat} (hu : u ∈ neighbourTiles s t) (nu : u ∉ usedAdjacent s t)
    (hv : v ∈ otherUsed s t) (nv : v ∉ neighbourTiles s t) : nearness t u ≤ nearness t v := by
  rw [neighbourTiles, List.mem_append] at hu nv
  obtain ⟨notAdjacent, notTaken⟩ := not_or.mp nv
  have sorted := sortBy_ascending (nearness t) ((otherUsed s t).filter (fun u => !(usedAdjacent s t).contains u))
  change (usedByNearness s t).Pairwise _ at sorted
  have listed : v ∈ usedByNearness s t := mem_usedByNearness.mpr ⟨hv, notAdjacent⟩
  rw [← List.take_append_drop (2 - (usedAdjacent s t).length) (usedByNearness s t)] at sorted listed
  obtain ⟨-, -, ordered⟩ := List.pairwise_append.mp sorted
  exact ordered u (hu.resolve_left nu) v ((List.mem_append.mp listed).resolve_left notTaken)

/-! ## The obligation -/

/-- Settles O59: the grid by arithmetic on the number of the sensor; a thermometer's list is its used adjacent tiles and then the front
of the other used tiles in the order of nearness, as far as two are wanting. -/
theorem sensorsHaveTheirNeighbours : Obligations.SensorsHaveTheirNeighbours := by
  unfold Obligations.SensorsHaveTheirNeighbours
  refine ⟨fun n hn => ⟨mem_dieNeighbours_iff_adjacent hn, length_dieNeighbours_bounds n⟩, fun s T A U far hU hA hfar => ?_⟩
  replace hU : ∀ u, U u ↔ u ∈ otherUsed s T := fun u => (hU u).trans mem_otherUsed.symm
  replace hA : ∀ u, A u ↔ u ∈ usedAdjacent s T := fun u => by rw [hA, hU, mem_usedAdjacent]
  simp only [hU, hA, hfar, add_mem_picNeighbours, length_picNeighbours]
  refine ⟨fun u => mem_neighbourTiles_of_adjacent, fun x hx => ?_, ?_, ?_, ?_, fun single => ?_, fun u v hu nu hv nv => ?_⟩
  · obtain ⟨u, hu, rfl⟩ := mem_picNeighbours.mp hx
    exact ⟨u, rfl, otherUsed_of_mem_neighbourTiles hu⟩
  · exact (nodup_neighbourTiles s T).map (add_right_injective 64)
  · rintro ⟨u, v, ne, hu, hv⟩ x hx
    obtain ⟨w, hw, rfl⟩ := mem_picNeighbours.mp hx
    rwa [Nat.add_sub_cancel_left, ← neighbourTiles_of_two_adjacent (two_le_length_of_mem ne hu hv)]
  · rintro ⟨u, v, ne, hu, hv⟩
    exact two_le_length_neighbourTiles ne hu hv
  · refine length_neighbourTiles_le_two (length_le_one_of_nodup (nodup_usedAdjacent s T) fun u hu v hv => ?_)
    by_contra ne
    exact single ⟨u, v, ne, hu, hv⟩
  · have ne : u ≠ v := fun e => nv (e ▸ hu)
    exact nearer_of_nearness_le ne (nearness_le_of_filled hu nu hv nv)

end Sys2Proof.Machine
end
